-- ==== Sys2Proof/Word.lean ====
section
/-! DEFINITION. The hub's words: 48-bit fabric words and registers (R5, R8), and bytes. -/

namespace Sys2Proof

/-- A fabric word or a register: 48 bits, bit 0 the least significant (R5). -/
abbrev Word := BitVec 48

/-- A byte of a wire or of a memory interface (R6). -/
abbrev Byte := BitVec 8

end Sys2Proof
end

