-- ==== Sys2Proof/Syntax.lean ====
section
/-! DEFINITION. The commands of the block: one constructor of `Instr` per row of the table of
operations and events, with the row's operands.  A command is either an access from outside (a
register write, a fabric access, a PCIe request), an event at a ball or a link (an edge, a
codeword, a frame), or an event of one of the hub's own engines (a dispatch, a sweep visit, the
execution of the instruction at an engine's program counter, the end of a timed wait). -/

namespace Sys2Proof

/-- An engine that runs Detaica: a sequencer lane, or physical tenon `t` of bay `b` (R158). -/
inductive Engine where
  | lane (k : Fin 8)
  | tenon (b : Fin 32) (t : Fin 5)
  deriving DecidableEq, Repr

/-- A switch cell: the header fields of R312 and the twenty payload words of R38. -/
structure Cell where
  node  : BitVec 16
  f1    : BitVec 16
  f2    : BitVec 16
  kind  : BitVec 3
  cls   : BitVec 2
  wrap  : BitVec 2
  ten   : BitVec 4
  nm1   : BitVec 5
  words : List Word
  deriving DecidableEq, Repr

/-- What arrives in one slot of a ring sub-link (R292 to R294, R308): the slot's index in the superframe, the
slots of the sub-link before it since the epoch began, the cell as its bytes spell it on the wire, the 32 bits
that follow it, whether the slot overlaps an uncorrectable codeword that no CODEWORD_RECEIVED told of, and
whether the hub is already forwarding the cell cut-through when it proves bad. -/
structure Slot where
  index : Fin 320
  count : Nat
  cell  : Cell
  crc   : BitVec 32
  ue    : Bool
  cut   : Bool
  deriving DecidableEq, Repr

/-- A lane codeword after FEC: corrected symbols and the side bits of its twenty blocks (R289), bit `i` that of
block `i`; or uncorrectable. -/
inductive Codeword where
  | good (corrected : Nat) (side : BitVec 20)
  | uncorrectable
  deriving DecidableEq, Repr

/-- A frame of a message bus as the data link layer delivers it (R268). -/
structure BusFrame where
  ide   : Bool
  rtr   : Bool
  fdf   : Bool
  brs   : Bool
  esi   : Bool
  dlc   : BitVec 4
  id    : BitVec 29
  data  : List Byte
  deriving DecidableEq, Repr

/-- A received frame of a message bus, and how many ticks ago the sample point of its SOF was (R268). -/
structure RxFrame where
  frame : BusFrame
  ago   : Nat
  deriving DecidableEq, Repr

/-- A received Ethernet frame with its FCS, and what the PCS and the FCS check say of it (R397). -/
structure EthFrame where
  bytes  : List Byte
  fcsOk  : Bool
  codeOk : Bool
  deriving DecidableEq, Repr

/-- A frame as one input of a head receives it, up to its LAT edge (R239, R253), and the HEALTH that the
head reports meanwhile (R244). -/
structure HeadFrame where
  clocks   : Nat
  preamble : Word
  header   : Word
  points   : Nat
  crc      : BitVec 16
  health   : BitVec 2
  deriving DecidableEq, Repr

/-- How the host answers a read of an inbound window (R384). -/
inductive HostAnswer where
  | data (bytes : List Byte)
  | ur
  | ca
  | poisoned
  deriving DecidableEq, Repr

/-- How a transmission on a message bus ends (R275 to R278). -/
inductive TxEnd where
  | sent
  | lostArbitration
  | error
  | collision (pos : BitVec 10)
  deriving DecidableEq, Repr

/-- A bus error seen by a message-bus controller (R277 to R279): an identifier collision in its own frame; any
other error while it transmits; two that ISO 11898-1 lets a transmitter leave uncounted, no acknowledge while it
is error passive and a stuff bit overwritten in arbitration; an error while it receives; a dominant bit after its
error flag, in its own frame or in another's. -/
inductive BusError where
  | collision (pos : BitVec 10)
  | transmitting
  | noAck
  | arbitrationStuff
  | receiving
  | dominantAfterFlag (own : Bool)
  deriving DecidableEq, Repr

/-- What wakes a sleeping message-bus controller (R280). -/
inductive WakeSource where
  | dominant (clocks : Nat)
  | frame (f : BusFrame) (ago : Nat)
  | txRequest
  deriving DecidableEq, Repr

/-- The source of a tunnelled frame (R388): a MAC's oldest received frame, a message-bus
controller's oldest stored frame, or a MOVE of a frame-tunnel channel. -/
inductive FrameSource where
  | mac (m : Fin 12)
  | mbus (c : Fin 16)
  | move
  deriving DecidableEq, Repr

/-- Why the selected table home becomes unreachable (R54). -/
inductive HomeLoss where
  | pcieDown
  | ddrFatal (ch : Fin 2)
  deriving DecidableEq, Repr

/-- The transport of a Recovery download (R495). -/
inductive RecoveryPath where
  | pcie
  | eth4
  | uart
  deriving DecidableEq, Repr

/-- The commands: one constructor per row of the table, in the table's order. -/
inductive Instr where
  -- Register file and fabric accesses (01, 18)
  | registerWrite (addr : BitVec 16) (v : Word)
  | registerReadClear (addr : BitVec 16)
  | fabricWrite (cp : Fin 32) (ten : Fin 16) (addr : Word) (ws : List Word)
  | fabricRead (cp : Fin 32) (ten : Fin 16) (addr : Word) (nm1 : Fin 20) (ret : Word) (ue : Bool)
  | broadcastWrite (sender : BitVec 16) (ten : Fin 16) (ch w : BitVec 16) (ws : List Word)
  | cellArrival (port sub : Fin 4) (slot : Slot)
  -- Channel table, cache and table port (02)
  | tblInval (v : Word)
  | tblUpdate (v : Word)
  | invalService (ue : Bool)
  | invalRefetch (ue : Bool)
  | updateService
  | doorbellComplete
  | entryFetch (ch : BitVec 16) (ue : Bool)
  | tblHomeWrite (v : Word)
  | homeLost (cause : HomeLoss)
  | homeReturn
  | ddrRetrain (pass : Bool)
  | arbitrationRound
  | revocation
  | aliveFall (n : Fin 8)
  | readBurstArrival (ue : Bool) (ce : BitVec 16)
  | writeBurstCommit (n : Fin 8)
  | tblStarve (n : Fin 8)
  -- Phase domains (03)
  | roleWrite (d : Fin 4) (v : Word)
  | phSrcWrite (d : Fin 4) (v : Word)
  | setphWrite (d : Fin 4) (v : Word)
  | slipAck (d : Fin 4)
  | encoderEdge (d : Fin 4) (a b : Bool)
  | indexEdge (d : Fin 4)
  | ssiReadStart (d : Fin 4)
  | ssiReadEnd (d : Fin 4) (raw : Word)
  | mainsEdge (d : Fin 4)
  | sampleReceived (ws : List Word)
  | modelEffective (d : Fin 4)
  | phFailover (d : Fin 4)
  | phStale (d : Fin 4)
  | directionChange (d : Fin 4)
  -- Ephemeris and sequencer (04)
  | ephemerisWrite (ten : Fin 16) (w : BitVec 16) (ws : List Word) (ue : Bool)
  | sweepVisit (e : Fin 262144) (ue : Bool)
  | dispatch (ue : Bool)
  | moveComplete
  | programStart (k : Fin 8)
  | laneRunmax (k : Fin 8)
  | timedCommand
  | deadlineMiss
  | holdRelease (v : Word)
  | runClear (v : Word)
  -- Detaica, both profiles (05): the engine executes the instruction at its program counter
  | nop (g : Engine) | halt (g : Engine) | mov (g : Engine) | movi (g : Engine)
  | movh (g : Engine) | add (g : Engine) | sub (g : Engine) | and (g : Engine)
  | or (g : Engine) | xor (g : Engine) | shl (g : Engine) | shr (g : Engine)
  | sar (g : Engine) | addi (g : Engine) | andi (g : Engine) | ori (g : Engine)
  | xori (g : Engine) | shli (g : Engine) | shri (g : Engine) | sari (g : Engine)
  | cmpr (g : Engine) | cmpri (g : Engine) | tst (g : Engine) | br (g : Engine)
  | call (g : Engine) | ret (g : Engine) | loop (g : Engine) | wait (g : Engine)
  | ext (g : Engine) | ins (g : Engine) | jmpr (g : Engine)
  -- Detaica, S profile
  | ldw (k : Fin 8) (ue : Bool)
  | stw (k : Fin 8)
  | movc (k : Fin 8)
  | movcComplete (k : Fin 8)
  | fire (k : Fin 8) (ue : Bool)
  | arm (k : Fin 8) (ue : Bool)
  | disarm (k : Fin 8) (ue : Bool)
  | waitPhase (k : Fin 8)
  | phaseWaitEnd (k : Fin 8)
  | waitTime (k : Fin 8)
  | timeWaitEnd (k : Fin 8)
  | vote (k : Fin 8)
  | tariff (k : Fin 8)
  | signal (k : Fin 8)
  | rdt (k : Fin 8)
  | rdph (k : Fin 8)
  -- Detaica, T profile
  | shifto (b : Fin 32) (t : Fin 5)
  | shifti (b : Fin 32) (t : Fin 5) (samples : List (BitVec 16))
  | selectRelease (b : Fin 32) (t : Fin 5) (edges : Nat) (samples : List (BitVec 16))
  | wclk (b : Fin 32) (t : Fin 5)
  | wpin (b : Fin 32) (t : Fin 5)
  | cmp (b : Fin 32) (t : Fin 5)
  | pop (b : Fin 32) (t : Fin 5)
  | push (b : Fin 32) (t : Fin 5)
  | instructionWaitEnd (b : Fin 32) (t : Fin 5) (pins : BitVec 16)
  | mark (b : Fin 32) (t : Fin 5)
  | rewind (b : Fin 32) (t : Fin 5)
  | release (b : Fin 32) (t : Fin 5)
  | clkctl (b : Fin 32) (t : Fin 5)
  | seqStoreWrite (w : BitVec 16) (v : Word)
  | tenonStoreWrite (w : BitVec 16) (v : Word)
  -- Tenons, mortises and bays (06)
  | bankOutOfBand (b : Fin 32)
  | tenonStart (b : Fin 32) (t : Fin 5) (v : Word)
  | tenonStop (b : Fin 32) (t : Fin 5)
  | tenonTest (b : Fin 32) (t : Fin 5)
  | periodicSelftest (b : Fin 32)
  | selftestComplete (b : Fin 32) (t : Fin 5) (pass : Bool) (ce : BitVec 8)
  | qlinkWrite (b : Fin 32) (v : Word)
  | queueInWrite (b : Fin 32) (l : Fin 4) (v : Word)
  | queueOutRead (b : Fin 32) (l : Fin 4)
  | flush (b : Fin 32) (l : Fin 4)
  | autoStreamBurst (b : Fin 32) (l : Fin 4)
  | streamStall (b : Fin 32) (l : Fin 4)
  | swapGo (b : Fin 32) (v : Word)
  | tenonSwapCancel (b : Fin 32)
  | storeCopyComplete (b : Fin 32) (ue : Bool)
  | tenSpareIn (b : Fin 32)
  -- Chain ports (07)
  | chainEnable (p : Fin 64) (v : Word)
  | kick (p : Fin 64)
  | frameStart (p : Fin 64)
  | refreshDue (p : Fin 64)
  | frameEnd (p : Fin 64)
  | readbackJudgement (p : Fin 64) (status : BitVec 24) (laneBits : Nat) (crc : BitVec 16)
  | headFrameDecision (h : Fin 64) (a b : Option HeadFrame)
  | claimHoldExpiry (h : Fin 64)
  | safeTimeout (h : Fin 64)
  | headPowerUp (h : Fin 64) (size : Nat)
  -- Message-bus controllers (08)
  | mbModeWrite (c : Fin 16) (v : Word)
  | mbModeApply (c : Fin 16)
  | fmaskWrite (c : Fin 16) (v : Word)
  | mbFrameReceived (c : Fin 16) (f : RxFrame)
  | mbLockTimeout (c : Fin 16) (o : Fin 512)
  | txreqWrite (c : Fin 16) (v : Word)
  | txcanWrite (c : Fin 16) (v : Word)
  | transmissionEnd (c : Fin 16) (r : TxEnd)
  | mbBusErr (c : Fin 16) (err : BusError)
  | mbRecovered (c : Fin 16)
  | mbWake (c : Fin 16) (src : WakeSource)
  -- Ring ports and lanes (09)
  | codewordReceived (p : Fin 4) (l : Fin 9) (w : Codeword) (eye : BitVec 8)
  | laneDown (p : Fin 4) (l : Fin 9)
  | trainFail (p : Fin 4) (l : Fin 9)
  | laneSwapGo (p : Fin 4) (q : Fin 8)
  | copyLocked (p : Fin 4)
  | laneSwapFail (p : Fin 4)
  | laneSwapBack (p : Fin 4)
  | laneSwapCancel (p : Fin 4)
  | keyExchangeReceived (p : Fin 4) (ws : List Word)
  | sealFail (p : Fin 4)
  -- Switch core (10)
  | cellTime (ue : BitVec 32) (ce : BitVec 16)
  | cellAdmission (cp : Fin 32) (cell : Cell)
  | quotaWrite (n : Fin 16) (v : Word)
  | portHoldExpiry (p : Fin 16)
  | bankSpareGo (v : Word)
  | xbarSpareIn
  -- Cycle matrix, ring time and synchronisation (11)
  | basicCycleStart
  | matrixBoundary
  | cycCfgWrite (v : Word)
  | activationWrite (v : Word)
  | ttWindow (row : Fin 4096) (busy : BitVec 14) (cells : List Cell)
  | syncCellReceived (port : Fin 4) (sub : Fin 4) (cell : Cell) (arrival : BitVec 48)
  | offsetCorrection
  | linkDelayReceived (p : Fin 4) (ws : List Word) (arrival : BitVec 48)
  | steerRequest (v : Word)
  -- Host bridge, tunnels and Ethernet MACs (12)
  | bar0Request (write : Bool) (offset : Nat) (bytes : List Byte)
  | outboundWrite (fn : Fin 16) (offset : Nat) (bytes : List Byte)
  | outboundRead (fn : Fin 16) (offset len : Nat)
  | respArrival (cell : Cell)
  | brgRdTimeout (tag : Fin 1024)
  | tagQuarantineEnd (tag : Fin 1024)
  | functionLevelReset (fn : Fin 16)
  | brgLinkDown
  | pcieLinkUp
  | inboundAccess (cell : Cell)
  | hostCompletion (id : Nat) (answer : HostAnswer)
  | hostReadTimeout (id : Nat)
  | tunnelFrameSend (src : FrameSource)
  | tunnelCellArrival (cell : Cell)
  | tunReasmTimeout (t : Fin 256)
  | macFrameReceived (m : Fin 12) (f : EthFrame)
  | macFrameSent (m : Fin 12)
  | txtsRead (m : Fin 12)
  | macLinkUp (m : Fin 12) (rate : Fin 5)
  | macLinkDown (m : Fin 12)
  | fallbackPeriod (m : Fin 12)
  | lpiEntry (m : Fin 12)
  -- Twin hubs, votes and king-post registers (13)
  | heartbeatReceived (cell : Cell)
  | redSwap
  | mirrorPass
  | mirrorCellReceived (cell : Cell)
  | voteCellReceived (cell : Cell)
  | voteGroupCommit (v : Word)
  | kingPostWrite (r : Fin 5) (v : Word)
  | kpScrub
  | kpTest (v : Word)
  -- Feeds and supply (14)
  | feedOn (f : Fin 32)
  | feedOff (f : Fin 32)
  | feedAdmission (g : Fin 4)
  | prechargeDone (f : Fin 32) (vcode : BitVec 12)
  | prechargeFail (f : Fin 32)
  | feedUp (f : Fin 32)
  | gateFail (f : Fin 32)
  | gateLost (f : Fin 32)
  | currentSample (f : Fin 32) (icode vcode : BitVec 12)
  | feedShort (f : Fin 32) (icode : BitVec 12)
  | backoffEnd (f : Fin 32)
  | retryReset (f : Fin 32)
  | periodEnd
  | tariffRequest (f : Fin 32) (v : Word)
  | dsync (f : Fin 32)
  | clrmax (f : Fin 32)
  | supplyWarn (i : Fin 7)
  | lastgaspDone
  | lastgaspFail (refused : Bool)
  | supplyOk
  | bankWarn (b : Fin 32)
  | supplyReset (inputs : BitVec 7)
  | checkpoint
  -- Fault collection (15)
  | faultReport
  | summaryDrain
  | stickyClear (src : Fin 16) (j : Fin 6) (v : Word)
  | clrall
  | forwardSend
  | forwardedMessageReceived (cell : Cell)
  | remoteQueueRead
  -- Modes, start-up, spares and firmware (16)
  | requestJoin (lock : Bool)
  | commissionChecksDone (lanesOk tenonsOk : Bool)
  | requestHold (lock : Bool)
  | leaveHold (lock : Bool)
  | requestCommission (lock : Bool)
  | resetIntoRecovery (lock : Bool)
  | resetRequest (lock : Bool)
  | setLock
  | resetN (straps : BitVec 4)
  | boot (verified : BitVec 4)
  | entropyReady
  | rngHealth
  | entropy
  | rngDataRead
  | referenceLoss (r : Fin 2)
  | rowRepairGo (v : Word)
  | sramRepaired
  | nvSwitch (port : Fin 2)
  | imageStart
  | imageData (v : Word)
  | fwVerify
  | verifyComplete (ok : Bool)
  | handover
  | confirm
  | fwFallback
  | watchdogExpiry
  | lockstepDisagreement
  | recoveryDownload (path : RecoveryPath) (ok : Bool) (version : BitVec 32)
  | recoveryReset
  -- Events added at the end of the table
  | siderealWrap (d : Fin 4) (reverse : Bool)
  | runfromMove (d : Fin 4)
  | bankInBand (b : Fin 32)
  | supplyInputRecovery (i : Fin 39)
  | referenceReturn (r : Fin 2)
  | newFirmwareNotRunning
  | counterPinEdge (b : Fin 32) (pin : Fin 16) (rising : Bool)
  | aliveRise (n : Fin 8)
  deriving DecidableEq, Repr

end Sys2Proof
end

