-- ==== Sys2Proof/Config.lean ====
section
/-! DEFINITION. The free values: what the spec leaves open although the hub goes on.  Each is a
constant without a body, so that no proof can depend on a value the spec does not give. -/

namespace Sys2Proof.Config

/-- What a king-post copy with three or more flipped bits reads as (R427: the error may go
undetected or be miscorrected): `none` where it is detected, else the value it appears to hold. -/
opaque kpCopyRead : Word → BitVec 55 → Option Word

/-- The n-th value drawn from the entropy pool (R482). -/
opaque entropy : Nat → BitVec 96

/-- How many bits of assessed entropy the source has added to the pool by the n-th time it is asked
(R482 gives no minimum rate). -/
opaque entropyAdded : Nat → Nat

/-- How long the n-th forwarded sync cell stays in the hub, in 1/256 tick (R356). -/
opaque residence : Nat → Nat

/-- The bits of an ephemeris entry after an uncorrectable error, by draw and stored bits (R129: each
field holds its bits as read, corrected where the code could, and may be corrupt). -/
opaque corruptEntry : Nat → BitVec 128 → BitVec 128

/-- What REC falls to at a valid reception while it is above 127: ISO 11898-1 leaves a value of 119 to
127 open (R277). -/
opaque recAfter : Nat → Fin 9

/-- The slot of its sub-link, counted from the start of the key epoch, that a sealed cell leaves in: which of the
slots to come the hub takes is left open (R292, R308). -/
opaque txSlot : Nat → Nat

/-- The transmitter delay of a message-bus controller, in controller clocks: the transceiver's own (R262). -/
opaque txDelay : Nat → Nat

/-- `MGT_STAT.RSTCAUSE` after the reset that follows a Recovery download, by draw: the causes that R496
lists do not name it (R495). -/
opaque recoveryCause : Nat → Fin 6

/-- The row in which the n-th burst of correctable errors of a program store lay (R224 and R487 give no
row for what a self-test finds). -/
opaque errorRow : Nat → BitVec 22

end Sys2Proof.Config
end

