-- ==== Sys2Proof/Machine/Tab.lean ====
section
/-! DEFINITION. Sparse tables: the one representation of every addressed store of the hub
(registers, memories, per-unit records).  A table lists the keys whose value differs from a
default, in rising order, so that equal stores are equal data. -/

namespace Sys2Proof.Machine

/-- A sparse table from natural-number keys to values. -/
abbrev Tab (α : Type) := List (Nat × α)

/-- The value of key `k`; `d` is what an unlisted key holds. -/
def Tab.get {α : Type} (d : α) (m : Tab α) (k : Nat) : α :=
  match m with
  | [] => d
  | (k', v) :: rest => if k' = k then v else Tab.get d rest k

/-- Insert `(k, v)` before the first greater key. -/
def Tab.ins {α : Type} (m : Tab α) (k : Nat) (v : α) : Tab α :=
  match m with
  | [] => [(k, v)]
  | (k', v') :: rest => if k < k' then (k, v) :: (k', v') :: rest else (k', v') :: Tab.ins rest k v

/-- Remove every entry of key `k`. -/
def Tab.erase {α : Type} (m : Tab α) (k : Nat) : Tab α :=
  match m with
  | [] => []
  | (k', v) :: rest => if k' = k then Tab.erase rest k else (k', v) :: Tab.erase rest k

/-- Write `v` at `k`; a value equal to the default is not listed. -/
def Tab.put {α : Type} [DecidableEq α] (d : α) (m : Tab α) (k : Nat) (v : α) : Tab α :=
  if v = d then m.erase k else (m.erase k).ins k v

/-- The canonical form: keys strictly rising from above `lo`, and no value equal to the default. -/
def Tab.wfFrom {α : Type} [DecidableEq α] (d : α) (lo : Option Nat) (m : Tab α) : Bool :=
  match m with
  | [] => true
  | (k, v) :: rest =>
    (match lo with | none => true | some l => decide (l < k)) && decide (v ≠ d)
      && Tab.wfFrom d (some k) rest

/-- The canonical form of a whole table. -/
def Tab.wf {α : Type} [DecidableEq α] (d : α) (m : Tab α) : Bool := Tab.wfFrom d none m

/-- The keys of a table rise. -/
def Tab.rising {α : Type} (m : Tab α) : Prop := m.Pairwise (fun a b => a.1 < b.1)

/-- Write a run of consecutive keys from `k` upward. -/
def Tab.putList {α : Type} [DecidableEq α] (d : α) (m : Tab α) (k : Nat) (vs : List α) : Tab α :=
  match vs with
  | [] => m
  | v :: rest => Tab.putList d (Tab.put d m k v) (k + 1) rest

/-- Read `n` consecutive keys from `k` upward. -/
def Tab.getList {α : Type} (d : α) (m : Tab α) (k n : Nat) : List α :=
  match n with
  | 0 => []
  | n + 1 => Tab.get d m k :: Tab.getList d m (k + 1) n

/-- Apply `f` to the value of key `k`. -/
def Tab.modify {α : Type} [DecidableEq α] (d : α) (m : Tab α) (k : Nat) (f : α → α) : Tab α :=
  Tab.put d m k (f (Tab.get d m k))

/-- Apply `f`, which leaves the default alone, to every listed value. -/
def Tab.mapVals {α : Type} [DecidableEq α] (d : α) (f : α → α) (m : Tab α) : Tab α :=
  (m.map (fun kv => (kv.1, f kv.2))).filter (fun kv => decide (kv.2 ≠ d))

end Sys2Proof.Machine
end

