-- ==== Sys2Proof/Machine/Fields.lean ====
section
/-! DEFINITION. The register fields: address, lowest bit, width, access code (R8) and reset value
of every field of the register tables of the spec, under the register's and the field's own names.
An index letter of a register name (the `d` of `PHd_CTL`) is an argument. -/

namespace Sys2Proof.Machine

/-- The access codes of R8. -/
inductive Access where
  | rw | ro | wo | rc | w1c | rwl
  deriving DecidableEq, Repr

/-- A register field.  `rst` is the Reset column (R13); the fields that R523 excepts are listed in
the assumption log with the value they take here. -/
structure Field where
  addr  : Nat
  lsb   : Nat
  width : Nat
  acc   : Access
  rst   : Nat
  deriving DecidableEq, Repr

/-- The key of a field in the register store: its register's address and its lowest bit. -/
def Field.key (f : Field) : Nat := f.addr * 64 + f.lsb

-- `MGT_CMD` (R496)
def MGT_CMD.LOCK : Field := .mk (0x0001) 7 1 .wo 0
def MGT_CMD.REQ : Field := .mk (0x0001) 0 4 .wo 0

-- `MGT_STAT` (R496)
def MGT_STAT.KPLOCK : Field := .mk (0x0002) 15 1 .ro 0
def MGT_STAT.RSTCAUSE : Field := .mk (0x0002) 12 3 .ro 0
def MGT_STAT.BOOTPORT : Field := .mk (0x0002) 11 1 .ro 0
def MGT_STAT.BOOTBANK : Field := .mk (0x0002) 10 1 .ro 0
def MGT_STAT.BOOTALT : Field := .mk (0x0002) 9 1 .ro 0
def MGT_STAT.PREVMODE : Field := .mk (0x0002) 6 3 .ro 7
def MGT_STAT.CHKRUN : Field := .mk (0x0002) 5 1 .ro 0

-- `MGT_STRAP` (R496)
def MGT_STRAP.STRAP : Field := .mk (0x0003) 0 4 .ro 0

-- `MGT_CHK` (R496)
def MGT_CHK.FAIL : Field := .mk (0x0004) 0 9 .ro 0

-- `MGT_FWCTL` (R496)
def MGT_FWCTL.CONFTO : Field := .mk (0x0005) 16 16 .rw 30
def MGT_FWCTL.CONFIRM : Field := .mk (0x0005) 2 1 .wo 0
def MGT_FWCTL.HANDOVER : Field := .mk (0x0005) 1 1 .wo 0
def MGT_FWCTL.VERIFY : Field := .mk (0x0005) 0 1 .wo 0

-- `MGT_FWSTAT` (R496)
def MGT_FWSTAT.VERSION : Field := .mk (0x0006) 16 32 .ro 0
def MGT_FWSTAT.STATE : Field := .mk (0x0006) 0 3 .ro 0

-- `MGT_IMGCTL` (R496)
def MGT_IMGCTL.START : Field := .mk (0x0008) 47 1 .wo 0
def MGT_IMGCTL.COUNT : Field := .mk (0x0008) 0 23 .ro 0

-- `MGT_IMGDATA` (R496)
def MGT_IMGDATA.DATA : Field := .mk (0x0009) 0 48 .wo 0

-- `MGT_MODE` (R496)
def MGT_MODE.MODE : Field := .mk (0x0010) 0 3 .ro 1

-- `MGT_NODE` (R429)
def MGT_NODE.NODE : Field := .mk (0x0011) 0 16 .rwl 0

-- `MGT_CLAIM` (R429)
def MGT_CLAIM.CLAIM : Field := .mk (0x0012) 0 8 .rwl 0

-- `MGT_GSLOT` (R429)
def MGT_GSLOT.GNODE : Field := .mk (0x0013) 0 16 .rwl 0

-- `RNG_STATUS` (R496)
def RNG_STATUS.BITS : Field := .mk (0x0020) 1 9 .ro 0
def RNG_STATUS.READY : Field := .mk (0x0020) 0 1 .ro 0

-- `RNG_DATA` (R496)
def RNG_DATA.VALID : Field := .mk (0x0021) 47 1 .rc 0
def RNG_DATA.DATA : Field := .mk (0x0021) 0 32 .rc 0

-- `SUP_CTL` (R455)
def SUP_CTL.SMEN : Field := .mk (0x0100) 12 1 .rw 0
def SUP_CTL.WARNPCT : Field := .mk (0x0100) 8 4 .rw 8
def SUP_CTL.BANKPCT : Field := .mk (0x0100) 4 4 .rw 12

-- `SUP_SUPMON` (R455)
def SUP_SUPMON.RESET : Field := .mk (0x0101) 16 10 .rw 942
def SUP_SUPMON.WARN : Field := .mk (0x0101) 0 10 .rw 983

-- `SUP_STAT` (R455)
def SUP_STAT.LGST : Field := .mk (0x0102) 8 2 .ro 0
def SUP_STAT.BELOW : Field := .mk (0x0102) 0 7 .ro 0

-- `SUP_LATCH` (R455)
def SUP_LATCH.RSTBY : Field := .mk (0x0103) 16 7 .ro 0
def SUP_LATCH.SEEN : Field := .mk (0x0103) 0 7 .w1c 0

-- `SUP_BANKST` (R455)
def SUP_BANKST.BELOW : Field := .mk (0x0104) 0 32 .ro 0

-- `SUP_CKPT` (R455)
def SUP_CKPT.MIN : Field := .mk (0x0105) 0 8 .rw 60

-- `SUP_LGTIME` (R455)
def SUP_LGTIME.LGSEQ : Field := .mk (0x0106) 40 8 .ro 0
def SUP_LGTIME.US : Field := .mk (0x0106) 0 20 .ro 0

-- `SUP_GRPg` (R455)
def SUP_GRP.BUDGET (g : Nat) : Field := .mk (0x0108 + g) 0 16 .rw 0xFFFF

-- `SUP_GSTATg` (R455)
def SUP_GSTAT.USED (g : Nat) : Field := .mk (0x010C + g) 16 16 .ro 0
def SUP_GSTAT.QLEN (g : Nat) : Field := .mk (0x010C + g) 0 6 .ro 0

-- `FLT_CTL` (R472)
def FLT_CTL.CLRALL : Field := .mk (0x0180) 1 1 .wo 0
def FLT_CTL.RXEN : Field := .mk (0x0180) 0 1 .rw 0

-- `FLT_STAT` (R472)
def FLT_STAT.SRCANY : Field := .mk (0x0181) 32 16 .ro 0
def FLT_STAT.CLASSANY : Field := .mk (0x0181) 28 4 .ro 0

-- `FLT_HPTR` (R472)
def FLT_HPTR.TOTAL : Field := .mk (0x0182) 16 32 .ro 0
def FLT_HPTR.NEXT : Field := .mk (0x0182) 0 5 .ro 0

-- `FLT_IEN` (R472)
def FLT_IEN.CLASSEN : Field := .mk (0x0183) 16 4 .rw 14
def FLT_IEN.SRCEN : Field := .mk (0x0183) 0 16 .rw 0xFFFF

-- `FLT_HOLDEN` (R472)
def FLT_HOLDEN.SRC : Field := .mk (0x0184) 0 16 .rw 0xFFFF

-- `FLT_FWD` (R472)
def FLT_FWD.CLASSMIN : Field := .mk (0x0185) 16 2 .rw 2
def FLT_FWD.NODE : Field := .mk (0x0185) 0 16 .rw 0

-- `FLT_CNT` (R472)
def FLT_CNT.FOLDX : Field := .mk (0x0186) 32 16 .rc 0
def FLT_CNT.FWDDROP : Field := .mk (0x0186) 16 16 .rc 0
def FLT_CNT.RQDROP : Field := .mk (0x0186) 0 16 .rc 0

-- `FLT_RQ0` (R472)
def FLT_RQ0.VALID : Field := .mk (0x0188) 16 1 .ro 0
def FLT_RQ0.NODE : Field := .mk (0x0188) 0 16 .ro 0

-- `FLT_RQ1` (R472)
def FLT_RQ1.WORD : Field := .mk (0x0189) 0 48 .ro 0

-- `FLT_RQ2` (R472)
def FLT_RQ2.WORD : Field := .mk (0x018A) 0 48 .ro 0

-- `FLT_RQ3` (R472)
def FLT_RQ3.WORD : Field := .mk (0x018B) 0 48 .rc 0

-- `FLT_VFMASKn` (R472)
def FLT_VFMASK.SRC (n : Nat) : Field := .mk (0x0190 + n) 0 16 .rw 0

-- `FLT_STK` (R472)
def FLT_STK.KIND (src : Nat) (j : Nat) : Field := .mk (0x01A0 + 6 * (src - 1) + j) 0 (if j = 5 then 16 else 48) .w1c 0

-- `RED_CTL` (R429)
def RED_CTL.SWAP : Field := .mk (0x0200) 0 1 .wo 0

-- `RED_CFG` (R429)
def RED_CFG.TWIN : Field := .mk (0x0201) 32 16 .rw 0
def RED_CFG.DWELL : Field := .mk (0x0201) 16 8 .rw 1
def RED_CFG.MISS : Field := .mk (0x0201) 8 4 .rw 3
def RED_CFG.HOLDTK : Field := .mk (0x0201) 2 1 .rw 1
def RED_CFG.ROLE : Field := .mk (0x0201) 0 2 .rw 0

-- `RED_STAT` (R429)
def RED_STAT.ECLAIM : Field := .mk (0x0202) 40 8 .ro 0
def RED_STAT.TWMODE : Field := .mk (0x0202) 37 3 .ro 0
def RED_STAT.MISSCNT : Field := .mk (0x0202) 28 4 .ro 0
def RED_STAT.STATE : Field := .mk (0x0202) 0 3 .ro 0

-- `RED_MRANGE` (R429)
def RED_MRANGE.LAST : Field := .mk (0x0203) 16 16 .rw 0
def RED_MRANGE.FIRST : Field := .mk (0x0203) 0 16 .rw 1

-- `RED_MSTAT` (R429)
def RED_MSTAT.TXROUND : Field := .mk (0x0204) 24 24 .ro 0
def RED_MSTAT.RXROUND : Field := .mk (0x0204) 0 24 .ro 0

-- `RED_CNT` (R429)
def RED_CNT.TAKEOVER : Field := .mk (0x0205) 36 12 .rc 0
def RED_CNT.RETURN : Field := .mk (0x0205) 24 12 .rc 0
def RED_CNT.GAP : Field := .mk (0x0205) 12 12 .rc 0
def RED_CNT.VOTEFAIL : Field := .mk (0x0205) 0 12 .rc 0

-- `RED_VGSEL` (R429)
def RED_VGSEL.GROUP : Field := .mk (0x0206) 0 8 .rw 1

-- `RED_VGSRC` (R429)
def RED_VGSRC.SRC0 : Field := .mk (0x0207) 32 16 .rw 0
def RED_VGSRC.SRC1 : Field := .mk (0x0207) 16 16 .rw 0
def RED_VGSRC.SRC2 : Field := .mk (0x0207) 0 16 .rw 0

-- `RED_VGCFG` (R429)
def RED_VGCFG.OUTNODE : Field := .mk (0x0208) 32 16 .rw 0
def RED_VGCFG.OUTCH : Field := .mk (0x0208) 16 16 .rw 0
def RED_VGCFG.WIN : Field := .mk (0x0208) 2 14 .rw 16
def RED_VGCFG.NOMAJ : Field := .mk (0x0208) 1 1 .rw 0
def RED_VGCFG.EN : Field := .mk (0x0208) 0 1 .rw 0

-- `RED_VGSTAT` (R429)
def RED_VGSTAT.DISSENT : Field := .mk (0x0209) 16 2 .ro 0
def RED_VGSTAT.VSEQ : Field := .mk (0x0209) 8 8 .ro 0
def RED_VGSTAT.PRESENT : Field := .mk (0x0209) 5 3 .ro 0
def RED_VGSTAT.OUTCOME : Field := .mk (0x0209) 0 4 .ro 0

-- `RED_KPSTAT` (R429)
def RED_KPSTAT.REPAIRS : Field := .mk (0x020A) 32 16 .rc 0
def RED_KPSTAT.LASTREG : Field := .mk (0x020A) 8 4 .ro 0
def RED_KPSTAT.LASTCOPY : Field := .mk (0x020A) 6 2 .ro 0
def RED_KPSTAT.LASTRES : Field := .mk (0x020A) 4 2 .ro 0

-- `RED_KPTEST` (R429)
def RED_KPTEST.REG : Field := .mk (0x020B) 8 4 .wo 0
def RED_KPTEST.COPY : Field := .mk (0x020B) 6 2 .wo 0
def RED_KPTEST.BIT : Field := .mk (0x020B) 0 6 .wo 0

-- `PHd_CTL` (R119)
def PH_CTL.ACK (d : Nat) : Field := .mk (0x0300 + 0x40 * d + 0x00) 7 1 .wo 0
def PH_CTL.AUTORES (d : Nat) : Field := .mk (0x0300 + 0x40 * d + 0x00) 6 1 .rw 0
def PH_CTL.ROLE (d : Nat) : Field := .mk (0x0300 + 0x40 * d + 0x00) 0 2 .rw 0

-- `PHd_CFG` (R119)
def PH_CFG.QLIM (d : Nat) : Field := .mk (0x0300 + 0x40 * d + 0x01) 32 5 .rw 12
def PH_CFG.FILT (d : Nat) : Field := .mk (0x0300 + 0x40 * d + 0x01) 24 6 .rw 3
def PH_CFG.ZMODE (d : Nat) : Field := .mk (0x0300 + 0x40 * d + 0x01) 20 2 .rw 0
def PH_CFG.DIRB (d : Nat) : Field := .mk (0x0300 + 0x40 * d + 0x01) 19 1 .rw 0
def PH_CFG.REVDIR (d : Nat) : Field := .mk (0x0300 + 0x40 * d + 0x01) 18 1 .rw 0
def PH_CFG.KIND (d : Nat) : Field := .mk (0x0300 + 0x40 * d + 0x01) 0 4 .rw 0

-- `PHd_SCALE` (R119)
def PH_SCALE.INC (d : Nat) : Field := .mk (0x0300 + 0x40 * d + 0x02) 0 40 .rw 0x10000

-- `PHd_SRC` (R119)
def PH_SRC.ALT (d : Nat) : Field := .mk (0x0300 + 0x40 * d + 0x03) 16 16 .rw 0
def PH_SRC.NODE (d : Nat) : Field := .mk (0x0300 + 0x40 * d + 0x03) 0 16 .rw 0

-- `PHd_APPLY` (R119)
def PH_APPLY.TICKS (d : Nat) : Field := .mk (0x0300 + 0x40 * d + 0x04) 0 24 .rw 0x3E80

-- `PHd_JUMP` (R119)
def PH_JUMP.STEPS (d : Nat) : Field := .mk (0x0300 + 0x40 * d + 0x05) 0 48 .rw 0x10000

-- `PHd_HYST` (R119)
def PH_HYST.STEPS (d : Nat) : Field := .mk (0x0300 + 0x40 * d + 0x06) 0 24 .rw 64

-- `PHd_MAXAGE` (R119)
def PH_MAXAGE.TICKS (d : Nat) : Field := .mk (0x0300 + 0x40 * d + 0x07) 0 32 .rw 0xBB80

-- `PHd_GAIN` (R119)
def PH_GAIN.KG (d : Nat) : Field := .mk (0x0300 + 0x40 * d + 0x08) 8 5 .rw 5
def PH_GAIN.KB (d : Nat) : Field := .mk (0x0300 + 0x40 * d + 0x08) 4 4 .rw 2
def PH_GAIN.KA (d : Nat) : Field := .mk (0x0300 + 0x40 * d + 0x08) 0 3 .rw 1

-- `PHd_SSI` (R119)
def PH_SSI.EVERY (d : Nat) : Field := .mk (0x0300 + 0x40 * d + 0x09) 44 4 .rw 3
def PH_SSI.TM (d : Nat) : Field := .mk (0x0300 + 0x40 * d + 0x09) 28 16 .rw 0x7A12
def PH_SSI.HALF (d : Nat) : Field := .mk (0x0300 + 0x40 * d + 0x09) 16 12 .rw 781
def PH_SSI.MT (d : Nat) : Field := .mk (0x0300 + 0x40 * d + 0x09) 9 5 .rw 0
def PH_SSI.BITS (d : Nat) : Field := .mk (0x0300 + 0x40 * d + 0x09) 4 5 .rw 13
def PH_SSI.PAR (d : Nat) : Field := .mk (0x0300 + 0x40 * d + 0x09) 1 1 .rw 0
def PH_SSI.GRAY (d : Nat) : Field := .mk (0x0300 + 0x40 * d + 0x09) 0 1 .rw 0

-- `PHd_ZTOL` (R119)
def PH_ZTOL.STEPS (d : Nat) : Field := .mk (0x0300 + 0x40 * d + 0x0A) 0 24 .rw 256

-- `PHd_LAT` (R119)
def PH_LAT.TICKS (d : Nat) : Field := .mk (0x0300 + 0x40 * d + 0x0B) 0 16 .rw 0

-- `PHd_SETPH` (R119)
def PH_SETPH.PHASE (d : Nat) : Field := .mk (0x0300 + 0x40 * d + 0x0C) 0 48 .wo 0

-- `PHd_STAT` (R119)
def PH_STAT.MSEQ (d : Nat) : Field := .mk (0x0300 + 0x40 * d + 0x10) 32 16 .ro 0
def PH_STAT.QUALITY (d : Nat) : Field := .mk (0x0300 + 0x40 * d + 0x10) 24 8 .ro 0
def PH_STAT.HOMESEQ (d : Nat) : Field := .mk (0x0300 + 0x40 * d + 0x10) 16 8 .ro 0
def PH_STAT.ONALT (d : Nat) : Field := .mk (0x0300 + 0x40 * d + 0x10) 11 1 .ro 0
def PH_STAT.DIR (d : Nat) : Field := .mk (0x0300 + 0x40 * d + 0x10) 10 1 .ro 0
def PH_STAT.STATE (d : Nat) : Field := .mk (0x0300 + 0x40 * d + 0x10) 0 3 .ro 0

-- `PHd_NOW` (R119)
def PH_NOW.PHASE (d : Nat) : Field := .mk (0x0300 + 0x40 * d + 0x11) 0 48 .ro 0

-- `PHd_M_PHASE` (R119)
def PH_M_PHASE.PHASE (d : Nat) : Field := .mk (0x0300 + 0x40 * d + 0x12) 0 48 .ro 0

-- `PHd_M_GEN` (R119)
def PH_M_GEN.GEN (d : Nat) : Field := .mk (0x0300 + 0x40 * d + 0x13) 0 16 .ro 0

-- `PHd_M_TICKS` (R119)
def PH_M_TICKS.TICKS (d : Nat) : Field := .mk (0x0300 + 0x40 * d + 0x14) 0 48 .ro 0

-- `PHd_M_RATE` (R119)
def PH_M_RATE.RATE (d : Nat) : Field := .mk (0x0300 + 0x40 * d + 0x15) 0 48 .ro 0

-- `PHd_M_ACCEL` (R119)
def PH_M_ACCEL.ACCEL (d : Nat) : Field := .mk (0x0300 + 0x40 * d + 0x16) 0 48 .ro 0

-- `PHd_CORR` (R119)
def PH_CORR.CORR (d : Nat) : Field := .mk (0x0300 + 0x40 * d + 0x17) 0 48 .ro 0

-- `PHd_SLIP_FROM` (R119)
def PH_SLIP_FROM.PHASE (d : Nat) : Field := .mk (0x0300 + 0x40 * d + 0x18) 0 48 .ro 0

-- `PHd_SLIP_TO` (R119)
def PH_SLIP_TO.PHASE (d : Nat) : Field := .mk (0x0300 + 0x40 * d + 0x19) 0 48 .ro 0

-- `PHd_RAW` (R119)
def PH_RAW.RAW (d : Nat) : Field := .mk (0x0300 + 0x40 * d + 0x1A) 0 48 .ro 0

-- `PHd_ERRCNT` (R119)
def PH_ERRCNT.LATE (d : Nat) : Field := .mk (0x0300 + 0x40 * d + 0x1B) 32 16 .rc 0
def PH_ERRCNT.ENC (d : Nat) : Field := .mk (0x0300 + 0x40 * d + 0x1B) 16 16 .rc 0
def PH_ERRCNT.REJ (d : Nat) : Field := .mk (0x0300 + 0x40 * d + 0x1B) 0 16 .rc 0

-- `SEQ_CTL` (R156)
def SEQ_CTL.LANE_EN : Field := .mk (0x0400) 8 8 .rw 255
def SEQ_CTL.RUN : Field := .mk (0x0400) 0 1 .rw 0

-- `SEQ_CFG` (R156)
def SEQ_CFG.RUNMAX : Field := .mk (0x0401) 16 24 .rw 0x3E800
def SEQ_CFG.LEAD : Field := .mk (0x0401) 0 16 .rw 256

-- `SEQ_HORIZON` (R156)
def SEQ_HORIZON.TICKS : Field := .mk (0x0402) 0 24 .rw 0x4E200

-- `SEQ_SCAN` (R156)
def SEQ_SCAN.LIMIT : Field := .mk (0x0403) 0 18 .rw 0x3FFFF

-- `SEQ_STAT` (R156)
def SEQ_STAT.WHEEL : Field := .mk (0x0408) 32 15 .ro 0
def SEQ_STAT.BUSY : Field := .mk (0x0408) 24 8 .ro 0
def SEQ_STAT.SWEEP : Field := .mk (0x0408) 0 24 .ro 0

-- `SEQ_HOLD` (R156)
def SEQ_HOLD.TENANT : Field := .mk (0x0409) 0 16 .w1c 0

-- `SEQ_COUNT` (R156)
def SEQ_COUNT.MISS : Field := .mk (0x040A) 36 12 .rc 0
def SEQ_COUNT.LATE : Field := .mk (0x040A) 24 12 .rc 0
def SEQ_COUNT.SKIP : Field := .mk (0x040A) 12 12 .rc 0
def SEQ_COUNT.SUPPRESS : Field := .mk (0x040A) 0 12 .rc 0

-- `SEQ_LASTMISS` (R156)
def SEQ_LASTMISS.POLICY : Field := .mk (0x040B) 18 2 .ro 0
def SEQ_LASTMISS.ENTRY : Field := .mk (0x040B) 0 18 .ro 0

-- `SEQ_RETOLd` (R156)
def SEQ_RETOL.STEPS (d : Nat) : Field := .mk (0x0404 + d) 0 24 .rw 16

-- `SEQ_EPH_PAGEn` (R28)
def SEQ_EPH_PAGE.PAGE (n : Nat) : Field := .mk (0x0410 + n) 0 4 .rw 0

-- `SEQ_TCAPn` (R156)
def SEQ_TCAP.USED (n : Nat) : Field := .mk (0x0420 + n) 24 19 .ro 0
def SEQ_TCAP.CAP (n : Nat) : Field := .mk (0x0420 + n) 0 19 .rw (if n = 0 then 0x40000 else 0)

-- `SEQ_RUNFROMd` (R156)
def SEQ_RUNFROM.PHASE (d : Nat) : Field := .mk (0x0430 + d) 0 48 .ro 0

-- `SEQ_LANEk` (R156)
def SEQ_LANE.ENTRY (k : Nat) : Field := .mk (0x0440 + k) 24 18 .ro 0
def SEQ_LANE.STATE (k : Nat) : Field := .mk (0x0440 + k) 20 2 .ro 0
def SEQ_LANE.PC (k : Nat) : Field := .mk (0x0440 + k) 0 14 .ro 0

-- `SEQ_ABORT` (R192)
def SEQ_ABORT.CAUSE : Field := .mk (0x0448) 32 4 .ro 0
def SEQ_ABORT.LANE : Field := .mk (0x0448) 24 3 .ro 0
def SEQ_ABORT.PC : Field := .mk (0x0448) 0 14 .ro 0

-- `TBL_HOME` (R77)
def TBL_HOME.HBASE : Field := .mk (0x0600) 6 42 .rwl 0
def TBL_HOME.SIZE : Field := .mk (0x0600) 2 4 .rwl 0
def TBL_HOME.SEL : Field := .mk (0x0600) 0 2 .rwl 0

-- `TBL_CFG` (R77)
def TBL_CFG.STARVE_LIMIT : Field := .mk (0x0601) 16 24 .rw 0x1000
def TBL_CFG.URGENT : Field := .mk (0x0601) 0 16 .rw 256

-- `TBL_STAT` (R77)
def TBL_STAT.HOME_UP : Field := .mk (0x0602) 43 1 .ro 0
def TBL_STAT.PINNED : Field := .mk (0x0602) 32 11 .ro 0
def TBL_STAT.DONE : Field := .mk (0x0602) 16 16 .ro 0
def TBL_STAT.DEPTH : Field := .mk (0x0602) 0 6 .ro 0

-- `TBL_INVAL` (R77)
def TBL_INVAL.GEN : Field := .mk (0x0603) 16 8 .wo 0
def TBL_INVAL.CH : Field := .mk (0x0603) 0 16 .wo 0

-- `TBL_UPDATE` (R77)
def TBL_UPDATE.GEN : Field := .mk (0x0604) 16 8 .wo 0
def TBL_UPDATE.CH : Field := .mk (0x0604) 0 16 .wo 0

-- `TBL_HIT` (R77)
def TBL_HIT.COUNT : Field := .mk (0x0610) 0 48 .rc 0

-- `TBL_MISS` (R77)
def TBL_MISS.COUNT : Field := .mk (0x0611) 0 48 .rc 0

-- `TBL_ARB_STAT` (R77)
def TBL_ARB_STAT.ALIVE : Field := .mk (0x0612) 8 8 .ro 255
def TBL_ARB_STAT.STARVE : Field := .mk (0x0612) 0 8 .w1c 0

-- `TBL_STAGE` (R77)
def TBL_STAGE.WORD (k : Nat) : Field := .mk (0x0605 + k) (if k = 10 then 16 else 0) (if k = 10 then 32 else 48) .rw 0

-- `TBL_WEIGHTn` (R77)
def TBL_WEIGHT.WEIGHT (n : Nat) : Field := .mk (0x0618 + n) 0 8 .rw ([64, 32, 32, 32, 16, 8, 4, 32].getD n 0)

-- `TBL_WAITn` (R77)
def TBL_WAIT.WAIT (n : Nat) : Field := .mk (0x0620 + n) 0 24 .ro 0

-- `TBL_REVOKEn` (R77)
def TBL_REVOKE.COUNT (n : Nat) : Field := .mk (0x0628 + n) 0 32 .rc 0

-- `TBL_DCLASSn` (R77)
def TBL_DCLASS.BUDGET (n : Nat) : Field := .mk (0x0630 + n) 0 24 .rw 0

-- `CYC_CTL` (R372)
def CYC_CTL.CS : Field := .mk (0x0700) 7 1 .rw 0
def CYC_CTL.STEER : Field := .mk (0x0700) 6 1 .rw 0
def CYC_CTL.SYNC : Field := .mk (0x0700) 5 1 .rw 0
def CYC_CTL.SLOT : Field := .mk (0x0700) 0 4 .rw 0

-- `CYC_CFG` (R372)
def CYC_CFG.KERF : Field := .mk (0x0701) 32 8 .rw 64
def CYC_CFG.SSLOT : Field := .mk (0x0701) 24 7 .rw 64
def CYC_CFG.MEXP : Field := .mk (0x0701) 17 3 .rw 6
def CYC_CFG.BC : Field := .mk (0x0701) 0 17 .rw 0x3E80

-- `CYC_STAT` (R372)
def CYC_STAT.MSEQ : Field := .mk (0x0702) 16 32 .ro 0
def CYC_STAT.CYC : Field := .mk (0x0702) 10 6 .ro 0
def CYC_STAT.JOINOK : Field := .mk (0x0702) 9 1 .ro 0
def CYC_STAT.NSYNC : Field := .mk (0x0702) 4 5 .ro 0
def CYC_STAT.SSTATE : Field := .mk (0x0702) 0 3 .ro 1

-- `CYC_OFFS` (R372)
def CYC_OFFS.DEV : Field := .mk (0x0703) 24 24 .ro 0
def CYC_OFFS.RATE : Field := .mk (0x0703) 0 24 .ro 0

-- `CYC_LIMIT` (R372)
def CYC_LIMIT.MINSYNC : Field := .mk (0x0704) 32 8 .rw 2
def CYC_LIMIT.LISTEN : Field := .mk (0x0704) 28 4 .rw 2
def CYC_LIMIT.SYNCLIM : Field := .mk (0x0704) 0 24 .rw 256

-- `CYC_STEP` (R372)
def CYC_STEP.SLEW : Field := .mk (0x0705) 40 8 .rw 2
def CYC_STEP.THRESH : Field := .mk (0x0705) 0 24 .rw 0x17D784

-- `CYC_STEERREQ` (R372)
def CYC_STEERREQ.OFFSET : Field := .mk (0x0706) 0 48 .wo 0

-- `CYC_STEERST` (R372)
def CYC_STEERST.STSEQ : Field := .mk (0x0707) 40 8 .ro 0
def CYC_STEERST.REMAIN : Field := .mk (0x0707) 0 40 .ro 0

-- `CYC_GEN` (R372)
def CYC_GEN.GEN : Field := .mk (0x0708) 0 16 .ro 0

-- `CYC_TICKS` (R372)
def CYC_TICKS.TICKS : Field := .mk (0x0709) 0 48 .ro 0

-- `CYC_SPAN` (R372)
def CYC_SPAN.TICKS : Field := .mk (0x070A) 0 24 .rw 0x1F40

-- `CYC_TCRC` (R372)
def CYC_TCRC.TCRC : Field := .mk (0x070B) 0 32 .ro 0

-- `CYC_TTCNT` (R372)
def CYC_TTCNT.POLICE : Field := .mk (0x070C) 32 16 .rc 0
def CYC_TTCNT.COLLIDE : Field := .mk (0x070C) 16 16 .rc 0
def CYC_TTCNT.DUP : Field := .mk (0x070C) 0 16 .rc 0

-- `CYC_GUARD` (R372)
def CYC_GUARD.TRIP : Field := .mk (0x070D) 0 4 .ro 0

-- `CYC_LINKDLYp` (R372)
def CYC_LINKDLY.DELAY (p : Nat) : Field := .mk (0x0710 + p) 0 32 .ro 0

-- `XBAR_FWDp` (R333)
def XBAR_FWD.PRUN (p : Nat) : Field := .mk (0x0800 + p) 4 4 .rw 7
def XBAR_FWD.CTBULK (p : Nat) : Field := .mk (0x0800 + p) 3 1 .rw (if p < 16 then 1 else 0)
def XBAR_FWD.CTPRIO (p : Nat) : Field := .mk (0x0800 + p) 2 1 .rw (if p < 16 then 1 else 0)
def XBAR_FWD.CTCTL (p : Nat) : Field := .mk (0x0800 + p) 1 1 .rw (if p < 16 then 1 else 0)

-- `XBAR_TQUOTAn` (R333)
def XBAR_TQUOTA.CLASS (n : Nat) : Field := .mk (0x0820 + n) 24 2 .rw (if n = 0 then 2 else 3)
def XBAR_TQUOTA.TBLW (n : Nat) : Field := .mk (0x0820 + n) 16 8 .rw 16
def XBAR_TQUOTA.CELLS (n : Nat) : Field := .mk (0x0820 + n) 0 16 .rw (if n = 0 then 0xFFFF else 0)

-- `XBAR_TSTATn` (R333)
def XBAR_TSTAT.OVER (n : Nat) : Field := .mk (0x0830 + n) 47 1 .ro 0
def XBAR_TSTAT.BUFFERED (n : Nat) : Field := .mk (0x0830 + n) 16 16 .ro 0
def XBAR_TSTAT.ADMITTED (n : Nat) : Field := .mk (0x0830 + n) 0 16 .ro 0

-- `XBAR_CTLCAP` (R333)
def XBAR_CTLCAP.CELLS : Field := .mk (0x0840) 0 16 .rw 16

-- `XBAR_PORTHOLD` (R333)
def XBAR_PORTHOLD.PRIOAGE : Field := .mk (0x0841) 24 24 .rw 0x27100
def XBAR_PORTHOLD.TICKS : Field := .mk (0x0841) 0 24 .rw 0x17D784

-- `XBAR_HOLDCNT` (R333)
def XBAR_HOLDCNT.EXPIRED : Field := .mk (0x0842) 32 16 .rc 0
def XBAR_HOLDCNT.FLUSHED : Field := .mk (0x0842) 16 16 .rc 0
def XBAR_HOLDCNT.MOVED : Field := .mk (0x0842) 0 16 .rc 0

-- `XBAR_DROP` (R333)
def XBAR_DROP.INQ : Field := .mk (0x0843) 32 16 .rc 0
def XBAR_DROP.HDR : Field := .mk (0x0843) 16 16 .rc 0
def XBAR_DROP.UE : Field := .mk (0x0843) 0 16 .rc 0

-- `XBAR_SPARE` (R333)
def XBAR_SPARE.CELIM : Field := .mk (0x0844) 16 8 .rw 8
def XBAR_SPARE.STATE : Field := .mk (0x0844) 14 2 .ro 0
def XBAR_SPARE.GO : Field := .mk (0x0844) 13 1 .wo 0
def XBAR_SPARE.AUTO : Field := .mk (0x0844) 12 1 .rw 1
def XBAR_SPARE.BANK : Field := .mk (0x0844) 8 4 .rw 0
def XBAR_SPARE.SERVES : Field := .mk (0x0844) 4 4 .ro 0

-- `XBAR_NODEQ` (R333)
def XBAR_NODEQ.PRESENT : Field := .mk (0x0845) 16 1 .ro 0
def XBAR_NODEQ.NODE : Field := .mk (0x0845) 0 16 .rw 0

-- `XBAR_BANKCEb` (R333)
def XBAR_BANKCE.CE (b : Nat) : Field := .mk (0x0850 + b) 0 16 .rc 0

-- `RINGp_CTL` (R310)
def RINGP_CTL.SEAL (p : Nat) : Field := .mk (0x0C00 + 0x100 * p + 0x00) 3 1 .rw 0
def RINGP_CTL.AUTOSWAP (p : Nat) : Field := .mk (0x0C00 + 0x100 * p + 0x00) 2 1 .rw 1
def RINGP_CTL.WRAPEN (p : Nat) : Field := .mk (0x0C00 + 0x100 * p + 0x00) 1 1 .rw 1
def RINGP_CTL.EN (p : Nat) : Field := .mk (0x0C00 + 0x100 * p + 0x00) 0 1 .rw 0

-- `RINGp_STAT` (R310)
def RINGP_STAT.SUBUP (p : Nat) : Field := .mk (0x0C00 + 0x100 * p + 0x01) 4 4 .ro 0
def RINGP_STAT.SEALST (p : Nat) : Field := .mk (0x0C00 + 0x100 * p + 0x01) 2 2 .ro 0
def RINGP_STAT.WRAP (p : Nat) : Field := .mk (0x0C00 + 0x100 * p + 0x01) 1 1 .ro 0
def RINGP_STAT.LOST (p : Nat) : Field := .mk (0x0C00 + 0x100 * p + 0x01) 0 1 .ro 0

-- `RINGp_MARGIN` (R310)
def RINGP_MARGIN.EYEMIN (p : Nat) : Field := .mk (0x0C00 + 0x100 * p + 0x02) 32 8 .rw 32
def RINGP_MARGIN.FECMAX (p : Nat) : Field := .mk (0x0C00 + 0x100 * p + 0x02) 0 32 .rw 0x10000

-- `RINGp_SWAP` (R310)
def RINGP_SWAP.STATE (p : Nat) : Field := .mk (0x0C00 + 0x100 * p + 0x03) 10 2 .ro 0
def RINGP_SWAP.RESULT (p : Nat) : Field := .mk (0x0C00 + 0x100 * p + 0x03) 8 2 .ro 0
def RINGP_SWAP.BACK (p : Nat) : Field := .mk (0x0C00 + 0x100 * p + 0x03) 7 1 .wo 0
def RINGP_SWAP.CANCEL (p : Nat) : Field := .mk (0x0C00 + 0x100 * p + 0x03) 6 1 .wo 0
def RINGP_SWAP.GO (p : Nat) : Field := .mk (0x0C00 + 0x100 * p + 0x03) 5 1 .wo 0
def RINGP_SWAP.POS (p : Nat) : Field := .mk (0x0C00 + 0x100 * p + 0x03) 0 3 .rw 0

-- `RINGp_RXMAP` (R310)
def RINGP_RXMAP.MAP (p : Nat) : Field := .mk (0x0C00 + 0x100 * p + 0x04) 0 32 .ro 0x76543210

-- `RINGp_CNT` (R310)
def RINGP_CNT.CRC (p : Nat) : Field := .mk (0x0C00 + 0x100 * p + 0x05) 36 12 .rc 0
def RINGP_CNT.STOMP (p : Nat) : Field := .mk (0x0C00 + 0x100 * p + 0x05) 24 12 .rc 0
def RINGP_CNT.AUTH (p : Nat) : Field := .mk (0x0C00 + 0x100 * p + 0x05) 12 12 .rc 0
def RINGP_CNT.WRAPDROP (p : Nat) : Field := .mk (0x0C00 + 0x100 * p + 0x05) 0 12 .rc 0

-- `RINGp_LANEl` (R310)
def RINGP_LANE.EYE (p : Nat) (l : Nat) : Field := .mk (0x0C10 + 0x100 * p + l) 40 8 .ro 0
def RINGP_LANE.STATE (p : Nat) (l : Nat) : Field := .mk (0x0C10 + 0x100 * p + l) 34 2 .ro 0
def RINGP_LANE.FECCORR (p : Nat) (l : Nat) : Field := .mk (0x0C10 + 0x100 * p + l) 8 24 .rc 0
def RINGP_LANE.UNCORR (p : Nat) (l : Nat) : Field := .mk (0x0C10 + 0x100 * p + l) 0 8 .rc 0

-- `RING_CFG` (R310)
def RING_CFG.SEALEPOCH : Field := .mk (0x0C80) 16 16 .rw 0x1000
def RING_CFG.TRAINTO : Field := .mk (0x0C80) 0 16 .rw 0x1388

-- `RING_KEY` (R310)
def RING_KEY.KEY (k : Nat) : Field := .mk (0x0C81 + k) (if k = 5 then 32 else 0) (if k = 5 then 16 else 48) .wo 0

-- `BRG_CFG` (R402)
def BRG_CFG.RDTO : Field := .mk (0x1000) 32 16 .rw 100
def BRG_CFG.HRDTO : Field := .mk (0x1000) 16 16 .rw 0x2710
def BRG_CFG.REASMTO : Field := .mk (0x1000) 0 16 .rw 0x3E8

-- `BRG_STAT` (R402)
def BRG_STAT.LINKUP : Field := .mk (0x1001) 37 1 .ro 0
def BRG_STAT.OUTRD : Field := .mk (0x1001) 26 11 .ro 0
def BRG_STAT.HOSTRD : Field := .mk (0x1001) 17 9 .ro 0
def BRG_STAT.REASM : Field := .mk (0x1001) 10 7 .ro 0

-- `BRG_CNT` (R402)
def BRG_CNT.REFUSED : Field := .mk (0x1002) 36 12 .rc 0
def BRG_CNT.LATE : Field := .mk (0x1002) 24 12 .rc 0
def BRG_CNT.HOSTERR : Field := .mk (0x1002) 12 12 .rc 0
def BRG_CNT.TUNDROP : Field := .mk (0x1002) 0 12 .rc 0

-- `BRG_OWINAn` (R402)
def BRG_OWINA.NODE (n : Nat) : Field := .mk (0x1040 + 2 * n) 32 16 .rw 0
def BRG_OWINA.CH (n : Nat) : Field := .mk (0x1040 + 2 * n) 16 16 .rw 0
def BRG_OWINA.WORD (n : Nat) : Field := .mk (0x1040 + 2 * n) 0 16 .rw 0

-- `BRG_OWINBn` (R402)
def BRG_OWINB.EN (n : Nat) : Field := .mk (0x1041 + 2 * n) 23 1 .rw 0
def BRG_OWINB.RULE (n : Nat) : Field := .mk (0x1041 + 2 * n) 22 1 .rw 0
def BRG_OWINB.PACK (n : Nat) : Field := .mk (0x1041 + 2 * n) 21 1 .rw 0
def BRG_OWINB.FUNC (n : Nat) : Field := .mk (0x1041 + 2 * n) 16 4 .rw 0
def BRG_OWINB.LASTW (n : Nat) : Field := .mk (0x1041 + 2 * n) 0 16 .rw 0

-- `BRG_IWINAk` (R402)
def BRG_IWINA.HADDR (k : Nat) : Field := .mk (0x1100 + 2 * k) 0 48 .rw 0

-- `BRG_IWINBk` (R402)
def BRG_IWINB.EN (k : Nat) : Field := .mk (0x1101 + 2 * k) 23 1 .rw 0
def BRG_IWINB.RULE (k : Nat) : Field := .mk (0x1101 + 2 * k) 22 1 .rw 0
def BRG_IWINB.PACK (k : Nat) : Field := .mk (0x1101 + 2 * k) 21 1 .rw 0
def BRG_IWINB.FUNC (k : Nat) : Field := .mk (0x1101 + 2 * k) 16 4 .rw 0

-- `BRG_TUNt` (R402)
def BRG_TUN.DNODE (t : Nat) : Field := .mk (0x1200 + t) 32 16 .rw 0
def BRG_TUN.DCH (t : Nat) : Field := .mk (0x1200 + t) 16 16 .rw 0
def BRG_TUN.TENANT (t : Nat) : Field := .mk (0x1200 + t) 12 4 .rw 0
def BRG_TUN.EN (t : Nat) : Field := .mk (0x1200 + t) 11 1 .rw 0
def BRG_TUN.SINK (t : Nat) : Field := .mk (0x1200 + t) 8 3 .rw 0
def BRG_TUN.SIDX (t : Nat) : Field := .mk (0x1200 + t) 0 6 .rw 0

-- `MACm_CTL` (R403)
def MAC_CTL.TEST (m : Nat) : Field := .mk (0x1400 + 0x40 * m + 0x00) 2 1 .rw 0
def MAC_CTL.LPIEN (m : Nat) : Field := .mk (0x1400 + 0x40 * m + 0x00) 1 1 .rw 1
def MAC_CTL.EN (m : Nat) : Field := .mk (0x1400 + 0x40 * m + 0x00) 0 1 .rw 0

-- `MACm_CFG` (R403)
def MAC_CFG.TNUM (m : Nat) : Field := .mk (0x1400 + 0x40 * m + 0x01) 40 8 .rw 0
def MAC_CFG.MAXLEN (m : Nat) : Field := .mk (0x1400 + 0x40 * m + 0x01) 25 15 .rw 0x5F2
def MAC_CFG.TXCK (m : Nat) : Field := .mk (0x1400 + 0x40 * m + 0x01) 24 1 .rw 0
def MAC_CFG.RXCK (m : Nat) : Field := .mk (0x1400 + 0x40 * m + 0x01) 23 1 .rw 1
def MAC_CFG.SPEED (m : Nat) : Field := .mk (0x1400 + 0x40 * m + 0x01) 21 2 .rw 0
def MAC_CFG.PCS (m : Nat) : Field := .mk (0x1400 + 0x40 * m + 0x01) 20 1 .rw 0
def MAC_CFG.FBTIME (m : Nat) : Field := .mk (0x1400 + 0x40 * m + 0x01) 10 10 .rw 500

-- `MACm_STAT` (R403)
def MAC_STAT.LINK (m : Nat) : Field := .mk (0x1400 + 0x40 * m + 0x02) 4 1 .ro 0
def MAC_STAT.RATE (m : Nat) : Field := .mk (0x1400 + 0x40 * m + 0x02) 1 3 .ro 0
def MAC_STAT.LPI (m : Nat) : Field := .mk (0x1400 + 0x40 * m + 0x02) 0 1 .ro 0

-- `MACm_LPI` (R403)
def MAC_LPI.TWPART (m : Nat) : Field := .mk (0x1400 + 0x40 * m + 0x03) 32 16 .rw 0
def MAC_LPI.TWSYS (m : Nat) : Field := .mk (0x1400 + 0x40 * m + 0x03) 16 16 .rw 16
def MAC_LPI.IDLE (m : Nat) : Field := .mk (0x1400 + 0x40 * m + 0x03) 0 16 .rw 100

-- `MACm_RXCNT` (R403)
def MAC_RXCNT.FRAMES (m : Nat) : Field := .mk (0x1400 + 0x40 * m + 0x04) 20 28 .rc 0
def MAC_RXCNT.CKBAD (m : Nat) : Field := .mk (0x1400 + 0x40 * m + 0x04) 0 20 .rc 0

-- `MACm_DROP` (R403)
def MAC_DROP.FCS (m : Nat) : Field := .mk (0x1400 + 0x40 * m + 0x05) 36 12 .rc 0
def MAC_DROP.SHORT (m : Nat) : Field := .mk (0x1400 + 0x40 * m + 0x05) 24 12 .rc 0
def MAC_DROP.LONG (m : Nat) : Field := .mk (0x1400 + 0x40 * m + 0x05) 12 12 .rc 0
def MAC_DROP.OVF (m : Nat) : Field := .mk (0x1400 + 0x40 * m + 0x05) 0 12 .rc 0

-- `MACm_TXCNT` (R403)
def MAC_TXCNT.SENT (m : Nat) : Field := .mk (0x1400 + 0x40 * m + 0x06) 28 20 .rc 0
def MAC_TXCNT.EXPIRED (m : Nat) : Field := .mk (0x1400 + 0x40 * m + 0x06) 18 10 .rc 0
def MAC_TXCNT.FLUSHED (m : Nat) : Field := .mk (0x1400 + 0x40 * m + 0x06) 8 10 .rc 0
def MAC_TXCNT.DISCARD (m : Nat) : Field := .mk (0x1400 + 0x40 * m + 0x06) 0 8 .rc 0

-- `MACm_TXTS0` (R403)
def MAC_TXTS0.GEN (m : Nat) : Field := .mk (0x1400 + 0x40 * m + 0x07) 32 16 .ro 0
def MAC_TXTS0.SEQID (m : Nat) : Field := .mk (0x1400 + 0x40 * m + 0x07) 16 16 .ro 0
def MAC_TXTS0.MTYPE (m : Nat) : Field := .mk (0x1400 + 0x40 * m + 0x07) 12 4 .ro 0
def MAC_TXTS0.VALID (m : Nat) : Field := .mk (0x1400 + 0x40 * m + 0x07) 11 1 .ro 0

-- `MACm_TXTS1` (R403)
def MAC_TXTS1.TICKS (m : Nat) : Field := .mk (0x1400 + 0x40 * m + 0x08) 0 48 .rc 0

-- `MBnn_CTL` (R282)
def MB_CTL.WAKESRC (c : Nat) : Field := .mk (0x1800 + 0x40 * c + 0x00) 2 2 .rw 0
def MB_CTL.MODE (c : Nat) : Field := .mk (0x1800 + 0x40 * c + 0x00) 0 2 .rw 0

-- `MBnn_CFG` (R282)
def MB_CFG.WAKEOBJ (c : Nat) : Field := .mk (0x1800 + 0x40 * c + 0x01) 36 9 .rw 0
def MB_CFG.G1 (c : Nat) : Field := .mk (0x1800 + 0x40 * c + 0x01) 35 1 .rw 0
def MB_CFG.FDEN (c : Nat) : Field := .mk (0x1800 + 0x40 * c + 0x01) 34 1 .rw 0
def MB_CFG.LOCKTO (c : Nat) : Field := .mk (0x1800 + 0x40 * c + 0x01) 0 32 .rw 0x2625A

-- `MBnn_NBT` (R282)
def MB_NBT.NBRP (c : Nat) : Field := .mk (0x1800 + 0x40 * c + 0x02) 24 8 .rw 0
def MB_NBT.NTSEG1 (c : Nat) : Field := .mk (0x1800 + 0x40 * c + 0x02) 16 8 .rw 62
def MB_NBT.NTSEG2 (c : Nat) : Field := .mk (0x1800 + 0x40 * c + 0x02) 8 7 .rw 15
def MB_NBT.NSJW (c : Nat) : Field := .mk (0x1800 + 0x40 * c + 0x02) 0 7 .rw 15

-- `MBnn_DBT` (R282)
def MB_DBT.TDCO (c : Nat) : Field := .mk (0x1800 + 0x40 * c + 0x03) 24 7 .rw 0
def MB_DBT.TDCEN (c : Nat) : Field := .mk (0x1800 + 0x40 * c + 0x03) 23 1 .rw 0
def MB_DBT.DBRP (c : Nat) : Field := .mk (0x1800 + 0x40 * c + 0x03) 16 5 .rw 0
def MB_DBT.DTSEG1 (c : Nat) : Field := .mk (0x1800 + 0x40 * c + 0x03) 8 5 .rw 14
def MB_DBT.DTSEG2 (c : Nat) : Field := .mk (0x1800 + 0x40 * c + 0x03) 4 4 .rw 3
def MB_DBT.DSJW (c : Nat) : Field := .mk (0x1800 + 0x40 * c + 0x03) 0 4 .rw 3

-- `MBnn_FSEL` (R282)
def MB_FSEL.OBJ (c : Nat) : Field := .mk (0x1800 + 0x40 * c + 0x04) 0 9 .rw 0

-- `MBnn_FID` (R282)
def MB_FID.EN (c : Nat) : Field := .mk (0x1800 + 0x40 * c + 0x05) 47 1 .rw 0
def MB_FID.IDE (c : Nat) : Field := .mk (0x1800 + 0x40 * c + 0x05) 46 1 .rw 0
def MB_FID.RTR (c : Nat) : Field := .mk (0x1800 + 0x40 * c + 0x05) 45 1 .rw 0
def MB_FID.TUN (c : Nat) : Field := .mk (0x1800 + 0x40 * c + 0x05) 44 1 .rw 0
def MB_FID.ID (c : Nat) : Field := .mk (0x1800 + 0x40 * c + 0x05) 0 29 .rw 0

-- `MBnn_FMASK` (R282)
def MB_FMASK.CH (c : Nat) : Field := .mk (0x1800 + 0x40 * c + 0x06) 32 16 .rw 0
def MB_FMASK.MIDE (c : Nat) : Field := .mk (0x1800 + 0x40 * c + 0x06) 31 1 .rw 0
def MB_FMASK.MRTR (c : Nat) : Field := .mk (0x1800 + 0x40 * c + 0x06) 30 1 .rw 0
def MB_FMASK.MASK (c : Nat) : Field := .mk (0x1800 + 0x40 * c + 0x06) 0 29 .rw 0

-- `MBnn_TXREQ` (R282)
def MB_TXREQ.REQ (c : Nat) : Field := .mk (0x1800 + 0x40 * c + 0x07) 0 32 .wo 0

-- `MBnn_TXCAN` (R282)
def MB_TXCAN.CAN (c : Nat) : Field := .mk (0x1800 + 0x40 * c + 0x08) 0 32 .wo 0

-- `MBnn_TXSTAT` (R282)
def MB_TXSTAT.PEND (c : Nat) : Field := .mk (0x1800 + 0x40 * c + 0x09) 0 32 .ro 0

-- `MBnn_ERR` (R282)
def MB_ERR.BOCNT (c : Nat) : Field := .mk (0x1800 + 0x40 * c + 0x0A) 20 8 .ro 0
def MB_ERR.STATE (c : Nat) : Field := .mk (0x1800 + 0x40 * c + 0x0A) 18 2 .ro 0
def MB_ERR.TEC (c : Nat) : Field := .mk (0x1800 + 0x40 * c + 0x0A) 9 9 .ro 0
def MB_ERR.REC (c : Nat) : Field := .mk (0x1800 + 0x40 * c + 0x0A) 0 8 .ro 0

-- `MBnn_COLL` (R282)
def MB_COLL.BUF (c : Nat) : Field := .mk (0x1800 + 0x40 * c + 0x0B) 16 5 .ro 0
def MB_COLL.POS (c : Nat) : Field := .mk (0x1800 + 0x40 * c + 0x0B) 0 10 .ro 0

-- `MBnn_CNT` (R282)
def MB_CNT.RX (c : Nat) : Field := .mk (0x1800 + 0x40 * c + 0x0C) 32 16 .rc 0
def MB_CNT.NOMATCH (c : Nat) : Field := .mk (0x1800 + 0x40 * c + 0x0C) 16 16 .rc 0
def MB_CNT.DROP (c : Nat) : Field := .mk (0x1800 + 0x40 * c + 0x0C) 0 16 .rc 0

-- `MBnn_TUN` (R282)
def MB_TUN.EN (c : Nat) : Field := .mk (0x1800 + 0x40 * c + 0x0D) 21 1 .rw 0
def MB_TUN.QUSED (c : Nat) : Field := .mk (0x1800 + 0x40 * c + 0x0D) 16 5 .ro 0
def MB_TUN.TNUM (c : Nat) : Field := .mk (0x1800 + 0x40 * c + 0x0D) 0 16 .rw 0

-- `BAY_CTL` (R232)
def BAY_CTL.BANKOK (b : Nat) : Field := .mk (0x2000 + 0x80 * b + 0x00) 15 1 .ro 0
def BAY_CTL.QLINK (b : Nat) : Field := .mk (0x2000 + 0x80 * b + 0x00) 12 3 .rw 0
def BAY_CTL.BANK (b : Nat) : Field := .mk (0x2000 + 0x80 * b + 0x00) 8 2 .rwl 0

-- `BAY_MUX` (R232)
def BAY_MUX.FN (b : Nat) : Field := .mk (0x2000 + 0x80 * b + 0x01) 0 32 .rwl 0

-- `BAY_PADS` (R232)
def BAY_PADS.DOE (b : Nat) : Field := .mk (0x2000 + 0x80 * b + 0x02) 32 16 .rw 0
def BAY_PADS.PULL (b : Nat) : Field := .mk (0x2000 + 0x80 * b + 0x02) 0 32 .rw 0x55555555

-- `BAY_SAFE` (R232)
def BAY_SAFE.EN (b : Nat) : Field := .mk (0x2000 + 0x80 * b + 0x03) 16 16 .rw 0
def BAY_SAFE.VAL (b : Nat) : Field := .mk (0x2000 + 0x80 * b + 0x03) 0 16 .rw 0

-- `BAY_PIN` (R232)
def BAY_PIN.OUT (b : Nat) : Field := .mk (0x2000 + 0x80 * b + 0x04) 16 16 .ro 0
def BAY_PIN.IN (b : Nat) : Field := .mk (0x2000 + 0x80 * b + 0x04) 0 16 .ro 0

-- `BAY_MAP` (R232)
def BAY_MAP.SPARE (b : Nat) : Field := .mk (0x2000 + 0x80 * b + 0x05) 12 3 .ro 4
def BAY_MAP.L3 (b : Nat) : Field := .mk (0x2000 + 0x80 * b + 0x05) 9 3 .ro 3
def BAY_MAP.L2 (b : Nat) : Field := .mk (0x2000 + 0x80 * b + 0x05) 6 3 .ro 2
def BAY_MAP.L1 (b : Nat) : Field := .mk (0x2000 + 0x80 * b + 0x05) 3 3 .ro 1
def BAY_MAP.L0 (b : Nat) : Field := .mk (0x2000 + 0x80 * b + 0x05) 0 3 .ro 0

-- `BAY_SWAP` (R232)
def BAY_SWAP.STATE (b : Nat) : Field := .mk (0x2000 + 0x80 * b + 0x06) 10 2 .ro 0
def BAY_SWAP.RESULT (b : Nat) : Field := .mk (0x2000 + 0x80 * b + 0x06) 8 2 .ro 0
def BAY_SWAP.REASON (b : Nat) : Field := .mk (0x2000 + 0x80 * b + 0x06) 6 2 .ro 0
def BAY_SWAP.CANCEL (b : Nat) : Field := .mk (0x2000 + 0x80 * b + 0x06) 5 1 .wo 0
def BAY_SWAP.GO (b : Nat) : Field := .mk (0x2000 + 0x80 * b + 0x06) 4 1 .wo 0
def BAY_SWAP.RETIRE (b : Nat) : Field := .mk (0x2000 + 0x80 * b + 0x06) 3 1 .rw 0
def BAY_SWAP.COPY (b : Nat) : Field := .mk (0x2000 + 0x80 * b + 0x06) 2 1 .rw 1
def BAY_SWAP.LOG (b : Nat) : Field := .mk (0x2000 + 0x80 * b + 0x06) 0 2 .rw 0

-- `BAY_SPARE` (R232)
def BAY_SPARE.TINT (b : Nat) : Field := .mk (0x2000 + 0x80 * b + 0x07) 24 16 .rw 0x400
def BAY_SPARE.CELIM (b : Nat) : Field := .mk (0x2000 + 0x80 * b + 0x07) 16 8 .rw 4
def BAY_SPARE.POLICY (b : Nat) : Field := .mk (0x2000 + 0x80 * b + 0x07) 0 2 .rw 1

-- `BAY_QSTATl` (R232)
def BAY_QSTAT.LASTPRI (b : Nat) (l : Nat) : Field := .mk (0x2000 + 0x80 * b + 0x08 + 4 * l) 45 3 .ro 0
def BAY_QSTAT.MARKED (b : Nat) (l : Nat) : Field := .mk (0x2000 + 0x80 * b + 0x08 + 4 * l) 44 1 .ro 0
def BAY_QSTAT.IN_USED (b : Nat) (l : Nat) : Field := .mk (0x2000 + 0x80 * b + 0x08 + 4 * l) 38 6 .ro 0
def BAY_QSTAT.IN_VIS (b : Nat) (l : Nat) : Field := .mk (0x2000 + 0x80 * b + 0x08 + 4 * l) 32 6 .ro 0
def BAY_QSTAT.OUT_USED (b : Nat) (l : Nat) : Field := .mk (0x2000 + 0x80 * b + 0x08 + 4 * l) 26 6 .ro 0
def BAY_QSTAT.CAP (b : Nat) (l : Nat) : Field := .mk (0x2000 + 0x80 * b + 0x08 + 4 * l) 20 6 .ro 8
def BAY_QSTAT.DROP (b : Nat) (l : Nat) : Field := .mk (0x2000 + 0x80 * b + 0x08 + 4 * l) 0 16 .rc 0

-- `BAY_QINl` (R232)
def BAY_QIN.ITEM (b : Nat) (l : Nat) : Field := .mk (0x2000 + 0x80 * b + 0x09 + 4 * l) 0 48 .wo 0

-- `BAY_QOUTl` (R232)
def BAY_QOUT.ITEM (b : Nat) (l : Nat) : Field := .mk (0x2000 + 0x80 * b + 0x0A + 4 * l) 0 48 .rc 0

-- `BAY_STREAMl` (R232)
def BAY_STREAM.CH (b : Nat) (l : Nat) : Field := .mk (0x2000 + 0x80 * b + 0x0B + 4 * l) 32 16 .rw 0
def BAY_STREAM.AUTO (b : Nat) (l : Nat) : Field := .mk (0x2000 + 0x80 * b + 0x0B + 4 * l) 31 1 .rw 0
def BAY_STREAM.DIR (b : Nat) (l : Nat) : Field := .mk (0x2000 + 0x80 * b + 0x0B + 4 * l) 30 1 .rw 0
def BAY_STREAM.PRI (b : Nat) (l : Nat) : Field := .mk (0x2000 + 0x80 * b + 0x0B + 4 * l) 27 3 .rw 0
def BAY_STREAM.FLUSH (b : Nat) (l : Nat) : Field := .mk (0x2000 + 0x80 * b + 0x0B + 4 * l) 26 1 .wo 0
def BAY_STREAM.STALL (b : Nat) (l : Nat) : Field := .mk (0x2000 + 0x80 * b + 0x0B + 4 * l) 16 8 .rw 16
def BAY_STREAM.WPTR (b : Nat) (l : Nat) : Field := .mk (0x2000 + 0x80 * b + 0x0B + 4 * l) 0 16 .rw 0

-- `TENt_CTL` (R232)
def TEN_CTL.TEST (b : Nat) (t : Nat) : Field := .mk (0x2000 + 0x80 * b + 0x18 + 8 * t) 10 1 .wo 0
def TEN_CTL.STOP (b : Nat) (t : Nat) : Field := .mk (0x2000 + 0x80 * b + 0x18 + 8 * t) 9 1 .wo 0
def TEN_CTL.START (b : Nat) (t : Nat) : Field := .mk (0x2000 + 0x80 * b + 0x18 + 8 * t) 8 1 .wo 0
def TEN_CTL.ENTRY (b : Nat) (t : Nat) : Field := .mk (0x2000 + 0x80 * b + 0x18 + 8 * t) 0 8 .rw 0

-- `TENt_CFG` (R232)
def TEN_CFG.TGT (b : Nat) (t : Nat) : Field := .mk (0x2000 + 0x80 * b + 0x19 + 8 * t) 23 1 .rw 0
def TEN_CFG.SELPOL (b : Nat) (t : Nat) : Field := .mk (0x2000 + 0x80 * b + 0x19 + 8 * t) 22 1 .rw 0
def TEN_CFG.SELPIN (b : Nat) (t : Nat) : Field := .mk (0x2000 + 0x80 * b + 0x19 + 8 * t) 16 4 .rw 0
def TEN_CFG.CPIN (b : Nat) (t : Nat) : Field := .mk (0x2000 + 0x80 * b + 0x19 + 8 * t) 12 4 .rw 0
def TEN_CFG.CSRC (b : Nat) (t : Nat) : Field := .mk (0x2000 + 0x80 * b + 0x19 + 8 * t) 8 3 .rw 0
def TEN_CFG.SSWHEN (b : Nat) (t : Nat) : Field := .mk (0x2000 + 0x80 * b + 0x19 + 8 * t) 0 1 .rw 0

-- `TENt_CLK` (R232)
def TEN_CLK.SAMP (b : Nat) (t : Nat) : Field := .mk (0x2000 + 0x80 * b + 0x1A + 8 * t) 40 8 .rw 0
def TEN_CLK.INT (b : Nat) (t : Nat) : Field := .mk (0x2000 + 0x80 * b + 0x1A + 8 * t) 24 16 .rw 16
def TEN_CLK.FRAC (b : Nat) (t : Nat) : Field := .mk (0x2000 + 0x80 * b + 0x1A + 8 * t) 8 16 .rw 0
def TEN_CLK.SRC (b : Nat) (t : Nat) : Field := .mk (0x2000 + 0x80 * b + 0x1A + 8 * t) 6 2 .rw 0
def TEN_CLK.IDLE (b : Nat) (t : Nat) : Field := .mk (0x2000 + 0x80 * b + 0x1A + 8 * t) 5 1 .rw 0
def TEN_CLK.CKPIN (b : Nat) (t : Nat) : Field := .mk (0x2000 + 0x80 * b + 0x1A + 8 * t) 0 4 .rw 0

-- `TENt_PINS` (R232)
def TEN_PINS.OE (b : Nat) (t : Nat) : Field := .mk (0x2000 + 0x80 * b + 0x1B + 8 * t) 32 16 .rw 0
def TEN_PINS.MORT (b : Nat) (t : Nat) : Field := .mk (0x2000 + 0x80 * b + 0x1B + 8 * t) 16 16 .rw 0
def TEN_PINS.S3 (b : Nat) (t : Nat) : Field := .mk (0x2000 + 0x80 * b + 0x1B + 8 * t) 12 4 .rw 0
def TEN_PINS.S2 (b : Nat) (t : Nat) : Field := .mk (0x2000 + 0x80 * b + 0x1B + 8 * t) 8 4 .rw 0
def TEN_PINS.S1 (b : Nat) (t : Nat) : Field := .mk (0x2000 + 0x80 * b + 0x1B + 8 * t) 4 4 .rw 0
def TEN_PINS.S0 (b : Nat) (t : Nat) : Field := .mk (0x2000 + 0x80 * b + 0x1B + 8 * t) 0 4 .rw 0

-- `TENt_STAT` (R232)
def TEN_STAT.PC (b : Nat) (t : Nat) : Field := .mk (0x2000 + 0x80 * b + 0x1C + 8 * t) 32 8 .ro 0
def TEN_STAT.CAUSE (b : Nat) (t : Nat) : Field := .mk (0x2000 + 0x80 * b + 0x1C + 8 * t) 24 4 .ro 0
def TEN_STAT.FLAGS (b : Nat) (t : Nat) : Field := .mk (0x2000 + 0x80 * b + 0x1C + 8 * t) 20 4 .ro 0
def TEN_STAT.WAIT (b : Nat) (t : Nat) : Field := .mk (0x2000 + 0x80 * b + 0x1C + 8 * t) 16 3 .ro 0
def TEN_STAT.STATE (b : Nat) (t : Nat) : Field := .mk (0x2000 + 0x80 * b + 0x1C + 8 * t) 0 3 .ro (if t = 4 then 2 else 0)

-- `TENt_CNT` (R232)
def TEN_CNT.CNT (b : Nat) (t : Nat) : Field := .mk (0x2000 + 0x80 * b + 0x1D + 8 * t) 0 48 .ro 0

-- `TENt_TEST` (R232)
def TEN_TEST.PASS (b : Nat) (t : Nat) : Field := .mk (0x2000 + 0x80 * b + 0x1E + 8 * t) 24 16 .ro 0
def TEN_TEST.FAIL (b : Nat) (t : Nat) : Field := .mk (0x2000 + 0x80 * b + 0x1E + 8 * t) 16 8 .ro 0
def TEN_TEST.CE (b : Nat) (t : Nat) : Field := .mk (0x2000 + 0x80 * b + 0x1E + 8 * t) 8 8 .rc 0
def TEN_TEST.LAST (b : Nat) (t : Nat) : Field := .mk (0x2000 + 0x80 * b + 0x1E + 8 * t) 0 1 .ro 0

-- `TENt_ERR` (R232)
def TEN_ERR.SHORT (b : Nat) (t : Nat) : Field := .mk (0x2000 + 0x80 * b + 0x1F + 8 * t) 16 16 .rc 0
def TEN_ERR.OVER (b : Nat) (t : Nat) : Field := .mk (0x2000 + 0x80 * b + 0x1F + 8 * t) 0 16 .rc 0

-- `CHPk_CTL` (R258)
def CHP_CTL.KICK (p : Nat) : Field := .mk (0x2000 + 0x80 * (p / 2) + 0x40 + 0x20 * (p % 2)) 2 1 .wo 0
def CHP_CTL.HOLDACT (p : Nat) : Field := .mk (0x2000 + 0x80 * (p / 2) + 0x40 + 0x20 * (p % 2)) 1 1 .rw 0
def CHP_CTL.EN (p : Nat) : Field := .mk (0x2000 + 0x80 * (p / 2) + 0x40 + 0x20 * (p % 2)) 0 1 .rw 0

-- `CHPk_CFG` (R258)
def CHP_CFG.PM1 (p : Nat) : Field := .mk (0x2000 + 0x80 * (p / 2) + 0x41 + 0x20 * (p % 2)) 16 14 .rw 0x3FFF
def CHP_CFG.VERIFY (p : Nat) : Field := .mk (0x2000 + 0x80 * (p / 2) + 0x41 + 0x20 * (p % 2)) 15 1 .rw 1
def CHP_CFG.DIV (p : Nat) : Field := .mk (0x2000 + 0x80 * (p / 2) + 0x41 + 0x20 * (p % 2)) 0 13 .rw 8

-- `CHPk_TIMING` (R258)
def CHP_TIMING.LSU (p : Nat) : Field := .mk (0x2000 + 0x80 * (p / 2) + 0x42 + 0x20 * (p % 2)) 16 8 .rw 56
def CHP_TIMING.LATW (p : Nat) : Field := .mk (0x2000 + 0x80 * (p / 2) + 0x42 + 0x20 * (p % 2)) 8 8 .rw 8
def CHP_TIMING.RBDLY (p : Nat) : Field := .mk (0x2000 + 0x80 * (p / 2) + 0x42 + 0x20 * (p % 2)) 0 5 .rw 4

-- `CHPk_REFRESH` (R258)
def CHP_REFRESH.PERIOD (p : Nat) : Field := .mk (0x2000 + 0x80 * (p / 2) + 0x43 + 0x20 * (p % 2)) 0 32 .rw 0x17D784

-- `CHPk_VERIFY` (R258)
def CHP_VERIFY.BUDGET (p : Nat) : Field := .mk (0x2000 + 0x80 * (p / 2) + 0x44 + 0x20 * (p % 2)) 0 32 .rw 0x4C4B4

-- `CHPk_STAT` (R258)
def CHP_STAT.SEQ (p : Nat) : Field := .mk (0x2000 + 0x80 * (p / 2) + 0x45 + 0x20 * (p % 2)) 40 8 .ro 0
def CHP_STAT.VSEQ (p : Nat) : Field := .mk (0x2000 + 0x80 * (p / 2) + 0x45 + 0x20 * (p % 2)) 32 8 .ro 0
def CHP_STAT.STATE (p : Nat) : Field := .mk (0x2000 + 0x80 * (p / 2) + 0x45 + 0x20 * (p % 2)) 28 2 .ro 0
def CHP_STAT.FTIME (p : Nat) : Field := .mk (0x2000 + 0x80 * (p / 2) + 0x45 + 0x20 * (p % 2)) 0 27 .ro 0

-- `CHPk_RBSTAT` (R258)
def CHP_RBSTAT.STATUS (p : Nat) : Field := .mk (0x2000 + 0x80 * (p / 2) + 0x46 + 0x20 * (p % 2)) 0 24 .ro 0

-- `CHPk_ERR` (R258)
def CHP_ERR.MISMATCH (p : Nat) : Field := .mk (0x2000 + 0x80 * (p / 2) + 0x47 + 0x20 * (p % 2)) 36 12 .rc 0
def CHP_ERR.CLAIM (p : Nat) : Field := .mk (0x2000 + 0x80 * (p / 2) + 0x47 + 0x20 * (p % 2)) 24 12 .rc 0
def CHP_ERR.ABORT (p : Nat) : Field := .mk (0x2000 + 0x80 * (p / 2) + 0x47 + 0x20 * (p % 2)) 12 12 .rc 0
def CHP_ERR.DEADLINE (p : Nat) : Field := .mk (0x2000 + 0x80 * (p / 2) + 0x47 + 0x20 * (p % 2)) 0 12 .rc 0

-- `FEED_CTL` (R454)
def FEED_CTL.DSYNC (f : Nat) : Field := .mk (0x3000 + 0x20 * f + 0x00) 11 1 .wo 0
def FEED_CTL.CLRMAX (f : Nat) : Field := .mk (0x3000 + 0x20 * f + 0x00) 10 1 .wo 0
def FEED_CTL.OFF (f : Nat) : Field := .mk (0x3000 + 0x20 * f + 0x00) 9 1 .wo 0
def FEED_CTL.ON (f : Nat) : Field := .mk (0x3000 + 0x20 * f + 0x00) 8 1 .wo 0
def FEED_CTL.HOLDOFF (f : Nat) : Field := .mk (0x3000 + 0x20 * f + 0x00) 7 1 .rw 0
def FEED_CTL.PRIO (f : Nat) : Field := .mk (0x3000 + 0x20 * f + 0x00) 4 3 .rw 0

-- `FEED_CFG` (R454)
def FEED_CFG.TENANT (f : Nat) : Field := .mk (0x3000 + 0x20 * f + 0x01) 44 4 .rw 0
def FEED_CFG.GROUP (f : Nat) : Field := .mk (0x3000 + 0x20 * f + 0x01) 42 2 .rw 0
def FEED_CFG.INRUSH (f : Nat) : Field := .mk (0x3000 + 0x20 * f + 0x01) 24 16 .rw 0
def FEED_CFG.PRE_THRESH (f : Nat) : Field := .mk (0x3000 + 0x20 * f + 0x01) 0 16 .rw 0x5208

-- `FEED_TIME` (R454)
def FEED_TIME.PRETO (f : Nat) : Field := .mk (0x3000 + 0x20 * f + 0x02) 24 12 .rw 100
def FEED_TIME.GATETO (f : Nat) : Field := .mk (0x3000 + 0x20 * f + 0x02) 12 12 .rw 0x3E8
def FEED_TIME.BACKOFF (f : Nat) : Field := .mk (0x3000 + 0x20 * f + 0x02) 0 12 .rw 100

-- `FEED_SCALE` (R454)
def FEED_SCALE.ISCALE (f : Nat) : Field := .mk (0x3000 + 0x20 * f + 0x03) 16 16 .rw 0x1313
def FEED_SCALE.VSCALE (f : Nat) : Field := .mk (0x3000 + 0x20 * f + 0x03) 0 16 .rw 0x1C9C

-- `FEED_TRIP` (R454)
def FEED_TRIP.RETRIES (f : Nat) : Field := .mk (0x3000 + 0x20 * f + 0x04) 20 4 .rw 3
def FEED_TRIP.INST (f : Nat) : Field := .mk (0x3000 + 0x20 * f + 0x04) 0 12 .rw 0xFFF

-- `FEED_CURVEk` (R454)
def FEED_CURVE.I (f : Nat) (k : Nat) : Field := .mk (0x3000 + 0x20 * f + 0x05 + k) 24 16 .rw 0xFFFF
def FEED_CURVE.T (f : Nat) (k : Nat) : Field := .mk (0x3000 + 0x20 * f + 0x05 + k) 0 24 .rw 0

-- `FEED_STAT` (R454)
def FEED_STAT.QPOS (f : Nat) : Field := .mk (0x3000 + 0x20 * f + 0x0D) 40 8 .ro 0
def FEED_STAT.RETRY (f : Nat) : Field := .mk (0x3000 + 0x20 * f + 0x0D) 36 4 .ro 0
def FEED_STAT.CAUSE (f : Nat) : Field := .mk (0x3000 + 0x20 * f + 0x0D) 28 3 .ro 0
def FEED_STAT.STATE (f : Nat) : Field := .mk (0x3000 + 0x20 * f + 0x0D) 0 4 .ro 0

-- `FEED_MEAS` (R454)
def FEED_MEAS.I (f : Nat) : Field := .mk (0x3000 + 0x20 * f + 0x0E) 24 24 .ro 0
def FEED_MEAS.V (f : Nat) : Field := .mk (0x3000 + 0x20 * f + 0x0E) 0 24 .ro 0

-- `FEED_POWER` (R454)
def FEED_POWER.P (f : Nat) : Field := .mk (0x3000 + 0x20 * f + 0x0F) 0 32 .ro 0

-- `FEED_ENERGY` (R454)
def FEED_ENERGY.E (f : Nat) : Field := .mk (0x3000 + 0x20 * f + 0x10) 0 48 .ro 0

-- `FEED_TARIFFt` (R454)
def FEED_TARIFF.E (f : Nat) (t : Nat) : Field := .mk (0x3000 + 0x20 * f + 0x11 + t) 0 48 .ro 0

-- `FEED_TSEL` (R454)
def FEED_TSEL.TARIFF (f : Nat) : Field := .mk (0x3000 + 0x20 * f + 0x15) 0 2 .rw 0

-- `FEED_DEMAND` (R454)
def FEED_DEMAND.ELAPSED (f : Nat) : Field := .mk (0x3000 + 0x20 * f + 0x16) 24 24 .ro 0
def FEED_DEMAND.MIN (f : Nat) : Field := .mk (0x3000 + 0x20 * f + 0x16) 0 6 .rw 15

-- `FEED_MAXDEM` (R454)
def FEED_MAXDEM.TARIFF (f : Nat) : Field := .mk (0x3000 + 0x20 * f + 0x17) 46 2 .ro 0
def FEED_MAXDEM.P (f : Nat) : Field := .mk (0x3000 + 0x20 * f + 0x17) 0 32 .ro 0

-- `FEED_LASTINT` (R454)
def FEED_LASTINT.PARTIAL (f : Nat) : Field := .mk (0x3000 + 0x20 * f + 0x18) 47 1 .ro 0
def FEED_LASTINT.DUR (f : Nat) : Field := .mk (0x3000 + 0x20 * f + 0x18) 35 12 .ro 0
def FEED_LASTINT.E (f : Nat) : Field := .mk (0x3000 + 0x20 * f + 0x18) 0 35 .ro 0

-- `FEED_CNT` (R454)
def FEED_CNT.TRIPS (f : Nat) : Field := .mk (0x3000 + 0x20 * f + 0x19) 32 16 .rc 0
def FEED_CNT.SHORTS (f : Nat) : Field := .mk (0x3000 + 0x20 * f + 0x19) 16 16 .rc 0
def FEED_CNT.PREFAIL (f : Nat) : Field := .mk (0x3000 + 0x20 * f + 0x19) 0 16 .rc 0

-- `FEED_SNAP` (R454)
def FEED_SNAP.LGSEQ (f : Nat) : Field := .mk (0x3000 + 0x20 * f + 0x1A) 40 8 .ro 0
def FEED_SNAP.COINCIDENT (f : Nat) : Field := .mk (0x3000 + 0x20 * f + 0x1A) 3 1 .ro 0
def FEED_SNAP.TARIFFSW (f : Nat) : Field := .mk (0x3000 + 0x20 * f + 0x1A) 2 1 .ro 0
def FEED_SNAP.INTEND (f : Nat) : Field := .mk (0x3000 + 0x20 * f + 0x1A) 1 1 .ro 0
def FEED_SNAP.WARN (f : Nat) : Field := .mk (0x3000 + 0x20 * f + 0x1A) 0 1 .ro 0

-- `SPR_CTL` (R497)
def SPR_CTL.CELIM : Field := .mk (0x3400) 8 8 .rw 8
def SPR_CTL.REFSEL : Field := .mk (0x3400) 1 1 .rw 0
def SPR_CTL.AUTO : Field := .mk (0x3400) 0 1 .rw 1

-- `SPR_STAT` (R497)
def SPR_STAT.REFUSE : Field := .mk (0x3401) 7 1 .ro 0
def SPR_STAT.REFOK : Field := .mk (0x3401) 5 2 .ro 0
def SPR_STAT.NVOK : Field := .mk (0x3401) 2 2 .ro 3
def SPR_STAT.NVUSE : Field := .mk (0x3401) 0 2 .ro 0

-- `SPR_BANKSEL` (R497)
def SPR_BANKSEL.BANK : Field := .mk (0x3402) 0 6 .rw 0

-- `SPR_BANKCE` (R497)
def SPR_BANKCE.FREE : Field := .mk (0x3403) 40 8 .ro 4
def SPR_BANKCE.LASTROW : Field := .mk (0x3403) 16 22 .ro 0
def SPR_BANKCE.CE : Field := .mk (0x3403) 0 16 .rc 0

-- `SPR_ROWREP` (R497)
def SPR_ROWREP.GO : Field := .mk (0x3404) 31 1 .wo 0
def SPR_ROWREP.STATE : Field := .mk (0x3404) 29 2 .ro 0
def SPR_ROWREP.BANK : Field := .mk (0x3404) 22 7 .rw 0
def SPR_ROWREP.ROW : Field := .mk (0x3404) 0 22 .rw 0

-- `SPR_DDRCE` (R497)
def SPR_DDRCE.CE : Field := .mk (0x3405) 0 16 .rc 0

end Sys2Proof.Machine
end

