-- ==== Sys2Proof/Machine/Kinds.lean ====
section
/-! DEFINITION. The fault kinds: source code and kind number of every kind the sources report
(R473, R498), under the kind's own name, and which of them are level kinds (R459). -/

namespace Sys2Proof.Machine

/-- A source and kind of the fault collector (R457). -/
structure Kind where
  src  : Nat
  kind : Nat
  deriving DecidableEq, Repr

/-- The class of a kind, KIND[7:6]: 0 info, 1 degraded, 2 fault, 3 critical (R458). -/
def Kind.cls (k : Kind) : Nat := k.kind / 64 % 4

/-- The key of a source and kind in the collector's tables, rising in source, then kind. -/
def Kind.key (k : Kind) : Nat := k.src * 256 + k.kind


-- source RING (R311)
def Kind.LANE_SWAP : Kind := .mk 0x01 0x00
def Kind.RING_UNWRAP : Kind := .mk 0x01 0x01
def Kind.SEAL_UP : Kind := .mk 0x01 0x02
def Kind.LANE_DEGRADED : Kind := .mk 0x01 0x40
def Kind.LANE_DOWN : Kind := .mk 0x01 0x41
def Kind.SUBLINK_DOWN : Kind := .mk 0x01 0x42
def Kind.CELL_CRC : Kind := .mk 0x01 0x43
def Kind.WRAP_DROP : Kind := .mk 0x01 0x44
def Kind.LANE_NO_SPARE : Kind := .mk 0x01 0x45
def Kind.RING_WRAP : Kind := .mk 0x01 0x80
def Kind.LANE_SWAP_FAIL : Kind := .mk 0x01 0x81
def Kind.SEAL_AUTH : Kind := .mk 0x01 0x82
def Kind.SEAL_FAIL : Kind := .mk 0x01 0x83
def Kind.TRAIN_FAIL : Kind := .mk 0x01 0x84

-- source XBAR (R34, R334)
def Kind.XBAR_SPARE_IN : Kind := .mk 0x02 0x00
def Kind.OVER_QUOTA : Kind := .mk 0x02 0x40
def Kind.XBAR_IN_DROP : Kind := .mk 0x02 0x41
def Kind.XBAR_HOLD_FLUSH : Kind := .mk 0x02 0x42
def Kind.XBAR_BANK_WEAR : Kind := .mk 0x02 0x43
def Kind.XBAR_NO_SPARE : Kind := .mk 0x02 0x44
def Kind.XBAR_HDR_BAD : Kind := .mk 0x02 0x80
def Kind.NODE_ABSENT : Kind := .mk 0x02 0x81
def Kind.XBAR_BUF_UE : Kind := .mk 0x02 0x82
def Kind.ADDR_RESERVED : Kind := .mk 0x02 0xA0
def Kind.ADDR_NOCHAN : Kind := .mk 0x02 0xA1
def Kind.ADDR_TENANT : Kind := .mk 0x02 0xA2
def Kind.ADDR_RANGE : Kind := .mk 0x02 0xA3
def Kind.ADDR_BCAST : Kind := .mk 0x02 0xA4
def Kind.ADDR_ZERO : Kind := .mk 0x02 0xA5

-- source CYC (R373)
def Kind.EPOCH : Kind := .mk 0x03 0x00
def Kind.TABLE_SWAP : Kind := .mk 0x03 0x01
def Kind.COLDSTART : Kind := .mk 0x03 0x02
def Kind.SYNC_FEW : Kind := .mk 0x03 0x40
def Kind.TT_DUP_OVF : Kind := .mk 0x03 0x41
def Kind.TT_POLICE : Kind := .mk 0x03 0x42
def Kind.CYC_LABEL : Kind := .mk 0x03 0x43
def Kind.TT_COLLIDE : Kind := .mk 0x03 0x80
def Kind.TABLE_MISMATCH : Kind := .mk 0x03 0x81
def Kind.TABLE_BAD : Kind := .mk 0x03 0x82
def Kind.GUARD_TRIP : Kind := .mk 0x03 0x83
def Kind.CYC_CONFIG : Kind := .mk 0x03 0x84
def Kind.SYNC_LOST : Kind := .mk 0x03 0xC0

-- source TBL (R78)
def Kind.TBL_STARVE : Kind := .mk 0x04 0x40
def Kind.TBL_PIN_FULL : Kind := .mk 0x04 0x41
def Kind.TBL_BAD_ENTRY : Kind := .mk 0x04 0x80
def Kind.TBL_GEN_MISMATCH : Kind := .mk 0x04 0x81
def Kind.TBL_DOOR_OVF : Kind := .mk 0x04 0x82
def Kind.TBL_ECC_UE : Kind := .mk 0x04 0x83
def Kind.TBL_HOME_LOST : Kind := .mk 0x04 0xC0

-- source PH (R120, R528)
def Kind.WRAP : Kind := .mk 0x05 0x00
def Kind.PH_HOMED : Kind := .mk 0x05 0x01
def Kind.PH_LATE : Kind := .mk 0x05 0x40
def Kind.PH_DEGRADED : Kind := .mk 0x05 0x41
def Kind.PH_FOREIGN : Kind := .mk 0x05 0x42
def Kind.PH_ENC_ERR : Kind := .mk 0x05 0x43
def Kind.PH_FAILOVER : Kind := .mk 0x05 0x44
def Kind.SLIP : Kind := .mk 0x05 0x80
def Kind.PH_STALE : Kind := .mk 0x05 0x81
def Kind.PH_RANGE : Kind := .mk 0x05 0x82
def Kind.PH_SAMPLE_BAD : Kind := .mk 0x05 0x83
def Kind.PH_CONFIG : Kind := .mk 0x05 0x84

-- source SEQ (R157, R174)
def Kind.SEQ_LATE : Kind := .mk 0x06 0x00
def Kind.SEQ_SKIP : Kind := .mk 0x06 0x01
def Kind.SEQ_WHEEL_FULL : Kind := .mk 0x06 0x40
def Kind.SEQ_CAP : Kind := .mk 0x06 0x41
def Kind.SEQ_MISS : Kind := .mk 0x06 0x80
def Kind.SEQ_BAD_ENTRY : Kind := .mk 0x06 0x81
def Kind.SEQ_BAD_ACTION : Kind := .mk 0x06 0x82
def Kind.SEQ_LANE_ABORT : Kind := .mk 0x06 0x83
def Kind.SEQ_HOLD : Kind := .mk 0x06 0x84
def Kind.SEQ_STORE_UE : Kind := .mk 0x06 0x85
def Kind.SEQ_CONFIG : Kind := .mk 0x06 0x86

-- source TEN (R233)
def Kind.TEN_SPARE_IN : Kind := .mk 0x07 0x00
def Kind.SHORT_WORD : Kind := .mk 0x07 0x40
def Kind.OVERRUN : Kind := .mk 0x07 0x41
def Kind.TEN_WEAR : Kind := .mk 0x07 0x42
def Kind.TEN_NO_SPARE : Kind := .mk 0x07 0x43
def Kind.TEN_ILLEGAL : Kind := .mk 0x07 0x80
def Kind.PROG_WHILE_RUN : Kind := .mk 0x07 0x81
def Kind.TEN_CONFIG : Kind := .mk 0x07 0x82
def Kind.TEN_TEST_FAIL : Kind := .mk 0x07 0x83
def Kind.TEN_SWAP_FAIL : Kind := .mk 0x07 0x84
def Kind.TEN_STORE_UE : Kind := .mk 0x07 0x85
def Kind.TEN_STREAM_ABORT : Kind := .mk 0x07 0x86
def Kind.TEN_BANK : Kind := .mk 0x07 0x87

-- source CHN (R259)
def Kind.CHN_RB_MISMATCH : Kind := .mk 0x08 0x40
def Kind.CHN_OUTCLAIMED : Kind := .mk 0x08 0x41
def Kind.CHN_HEAD_SAFE : Kind := .mk 0x08 0x42
def Kind.CHN_HEAD_FAULT : Kind := .mk 0x08 0x43
def Kind.CHN_SIZE : Kind := .mk 0x08 0x44
def Kind.CHN_DEADLINE : Kind := .mk 0x08 0x80
def Kind.CHN_CONFIG : Kind := .mk 0x08 0x81
def Kind.CHN_NO_HEAD : Kind := .mk 0x08 0x82

-- source MBUS (R283)
def Kind.MB_RECOVERED : Kind := .mk 0x09 0x00
def Kind.MB_WAKE : Kind := .mk 0x09 0x01
def Kind.MB_LOCK_TIMEOUT : Kind := .mk 0x09 0x02
def Kind.MB_CANCEL_LATE : Kind := .mk 0x09 0x03
def Kind.MB_PASSIVE : Kind := .mk 0x09 0x40
def Kind.MB_LOST : Kind := .mk 0x09 0x41
def Kind.MB_TUN_DROP : Kind := .mk 0x09 0x42
def Kind.MB_BUS_ERR : Kind := .mk 0x09 0x43
def Kind.MB_BUSOFF : Kind := .mk 0x09 0x80
def Kind.ID_COLLISION : Kind := .mk 0x09 0x81
def Kind.MB_CONFIG : Kind := .mk 0x09 0x82
def Kind.MB_BINDING : Kind := .mk 0x09 0x83

-- source BRG (R404)
def Kind.BRG_LATE_RESP : Kind := .mk 0x0A 0x00
def Kind.BRG_OUT_REFUSED : Kind := .mk 0x0A 0x40
def Kind.TUN_REASM : Kind := .mk 0x0A 0x41
def Kind.TUN_DROP : Kind := .mk 0x0A 0x42
def Kind.BRG_RD_TIMEOUT : Kind := .mk 0x0A 0x80
def Kind.BRG_HOST_ERR : Kind := .mk 0x0A 0x81
def Kind.TUN_CONFIG : Kind := .mk 0x0A 0x82
def Kind.BRG_LINK_DOWN : Kind := .mk 0x0A 0x83

-- source MAC (R404)
def Kind.MAC_LINK_UP : Kind := .mk 0x0B 0x00
def Kind.MAC_FALLBACK : Kind := .mk 0x0B 0x01
def Kind.MAC_LINK_DOWN : Kind := .mk 0x0B 0x40
def Kind.MAC_HOLD_FLUSH : Kind := .mk 0x0B 0x41
def Kind.MAC_TXTS_OVF : Kind := .mk 0x0B 0x42

-- source RED (R430)
def Kind.RED_RETURN : Kind := .mk 0x0C 0x00
def Kind.RED_SWAP : Kind := .mk 0x0C 0x01
def Kind.KP_REPAIR : Kind := .mk 0x0C 0x02
def Kind.RED_TAKEOVER : Kind := .mk 0x0C 0x40
def Kind.RED_MIRROR_GAP : Kind := .mk 0x0C 0x41
def Kind.RED_VOTE_MINORITY : Kind := .mk 0x0C 0x42
def Kind.RED_VOTE_SHORT : Kind := .mk 0x0C 0x43
def Kind.RED_VOTE_FULL : Kind := .mk 0x0C 0x44
def Kind.RED_NO_TWIN : Kind := .mk 0x0C 0x45
def Kind.DIVERGE : Kind := .mk 0x0C 0x80
def Kind.RED_VOTE_CONFLICT : Kind := .mk 0x0C 0x81
def Kind.RED_VOTE_LOST : Kind := .mk 0x0C 0x82
def Kind.RED_MIRROR_BIND : Kind := .mk 0x0C 0x83
def Kind.KP_WEAK : Kind := .mk 0x0C 0x84
def Kind.RED_CONFIG : Kind := .mk 0x0C 0x85
def Kind.KEYSTONE : Kind := .mk 0x0C 0xC0

-- source FEED (R456)
def Kind.FEED_UP : Kind := .mk 0x0D 0x00
def Kind.DEMAND_PARTIAL : Kind := .mk 0x0D 0x01
def Kind.FEED_TRIP : Kind := .mk 0x0D 0x80
def Kind.FEED_SHORT : Kind := .mk 0x0D 0x81
def Kind.PRECHARGE_FAIL : Kind := .mk 0x0D 0x82
def Kind.GATE_FAIL : Kind := .mk 0x0D 0x83
def Kind.GATE_LOST : Kind := .mk 0x0D 0x84
def Kind.FEED_LOCKOUT : Kind := .mk 0x0D 0x85
def Kind.FEED_CONFIG : Kind := .mk 0x0D 0x86

-- source SUP (R456)
def Kind.SUPPLY_OK : Kind := .mk 0x0E 0x00
def Kind.LASTGASP_DONE : Kind := .mk 0x0E 0x01
def Kind.BANK_WARN : Kind := .mk 0x0E 0x40
def Kind.SUPPLY_WARN : Kind := .mk 0x0E 0x80
def Kind.LASTGASP_FAIL : Kind := .mk 0x0E 0x81
def Kind.SUP_CONFIG : Kind := .mk 0x0E 0x82

-- source MGT (R498)
def Kind.MODE_CHANGE : Kind := .mk 0x0F 0x00
def Kind.FW_CONFIRMED : Kind := .mk 0x0F 0x01
def Kind.RETAIN_NONE : Kind := .mk 0x0F 0x02
def Kind.BOOT_ALT : Kind := .mk 0x0F 0x03
def Kind.FW_FALLBACK : Kind := .mk 0x0F 0x40
def Kind.RNG_HEALTH : Kind := .mk 0x0F 0x41
def Kind.ENTROPY : Kind := .mk 0x0F 0x80
def Kind.COMMISSION_FAIL : Kind := .mk 0x0F 0x81
def Kind.MGT_BAD_CMD : Kind := .mk 0x0F 0x82
def Kind.FWVERIFY_FAIL : Kind := .mk 0x0F 0x83
def Kind.RCV_BAD : Kind := .mk 0x0F 0x84

-- source SPR (R498)
def Kind.SRAM_REPAIRED : Kind := .mk 0x10 0x00
def Kind.REF_SWITCH : Kind := .mk 0x10 0x01
def Kind.SRAM_WEAR : Kind := .mk 0x10 0x40
def Kind.REF_LOST : Kind := .mk 0x10 0x41
def Kind.NV_SWITCH : Kind := .mk 0x10 0x42
def Kind.NV_WEAR : Kind := .mk 0x10 0x43
def Kind.NO_SPARE_ROW : Kind := .mk 0x10 0x44
def Kind.DDR_WEAR : Kind := .mk 0x10 0x45
def Kind.NV_FAIL : Kind := .mk 0x10 0x80
def Kind.REF_NONE : Kind := .mk 0x10 0xC0

/-- The kinds of R473 and R498. -/
def Kind.defined : List Kind :=
  [Kind.LANE_SWAP, Kind.RING_UNWRAP, Kind.SEAL_UP, Kind.LANE_DEGRADED, Kind.LANE_DOWN,
      Kind.SUBLINK_DOWN, Kind.CELL_CRC, Kind.WRAP_DROP, Kind.LANE_NO_SPARE, Kind.RING_WRAP,
      Kind.LANE_SWAP_FAIL, Kind.SEAL_AUTH, Kind.SEAL_FAIL, Kind.TRAIN_FAIL]
  ++ [Kind.XBAR_SPARE_IN, Kind.OVER_QUOTA, Kind.XBAR_IN_DROP, Kind.XBAR_HOLD_FLUSH,
      Kind.XBAR_BANK_WEAR, Kind.XBAR_NO_SPARE, Kind.XBAR_HDR_BAD, Kind.NODE_ABSENT,
      Kind.XBAR_BUF_UE, Kind.ADDR_RESERVED, Kind.ADDR_NOCHAN, Kind.ADDR_TENANT, Kind.ADDR_RANGE,
      Kind.ADDR_BCAST, Kind.ADDR_ZERO]
  ++ [Kind.EPOCH, Kind.TABLE_SWAP, Kind.COLDSTART, Kind.SYNC_FEW, Kind.TT_DUP_OVF,
      Kind.TT_POLICE, Kind.CYC_LABEL, Kind.TT_COLLIDE, Kind.TABLE_MISMATCH, Kind.TABLE_BAD,
      Kind.GUARD_TRIP, Kind.CYC_CONFIG, Kind.SYNC_LOST]
  ++ [Kind.TBL_STARVE, Kind.TBL_PIN_FULL, Kind.TBL_BAD_ENTRY, Kind.TBL_GEN_MISMATCH,
      Kind.TBL_DOOR_OVF, Kind.TBL_ECC_UE, Kind.TBL_HOME_LOST]
  ++ [Kind.WRAP, Kind.PH_HOMED, Kind.PH_LATE, Kind.PH_DEGRADED, Kind.PH_FOREIGN, Kind.PH_ENC_ERR,
      Kind.PH_FAILOVER, Kind.SLIP, Kind.PH_STALE, Kind.PH_RANGE, Kind.PH_SAMPLE_BAD,
      Kind.PH_CONFIG]
  ++ [Kind.SEQ_LATE, Kind.SEQ_SKIP, Kind.SEQ_WHEEL_FULL, Kind.SEQ_CAP, Kind.SEQ_MISS,
      Kind.SEQ_BAD_ENTRY, Kind.SEQ_BAD_ACTION, Kind.SEQ_LANE_ABORT, Kind.SEQ_HOLD,
      Kind.SEQ_STORE_UE, Kind.SEQ_CONFIG]
  ++ [Kind.TEN_SPARE_IN, Kind.SHORT_WORD, Kind.OVERRUN, Kind.TEN_WEAR, Kind.TEN_NO_SPARE,
      Kind.TEN_ILLEGAL, Kind.PROG_WHILE_RUN, Kind.TEN_CONFIG, Kind.TEN_TEST_FAIL,
      Kind.TEN_SWAP_FAIL, Kind.TEN_STORE_UE, Kind.TEN_STREAM_ABORT, Kind.TEN_BANK]
  ++ [Kind.CHN_RB_MISMATCH, Kind.CHN_OUTCLAIMED, Kind.CHN_HEAD_SAFE, Kind.CHN_HEAD_FAULT,
      Kind.CHN_SIZE, Kind.CHN_DEADLINE, Kind.CHN_CONFIG, Kind.CHN_NO_HEAD]
  ++ [Kind.MB_RECOVERED, Kind.MB_WAKE, Kind.MB_LOCK_TIMEOUT, Kind.MB_CANCEL_LATE,
      Kind.MB_PASSIVE, Kind.MB_LOST, Kind.MB_TUN_DROP, Kind.MB_BUS_ERR, Kind.MB_BUSOFF,
      Kind.ID_COLLISION, Kind.MB_CONFIG, Kind.MB_BINDING]
  ++ [Kind.BRG_LATE_RESP, Kind.BRG_OUT_REFUSED, Kind.TUN_REASM, Kind.TUN_DROP,
      Kind.BRG_RD_TIMEOUT, Kind.BRG_HOST_ERR, Kind.TUN_CONFIG, Kind.BRG_LINK_DOWN]
  ++ [Kind.MAC_LINK_UP, Kind.MAC_FALLBACK, Kind.MAC_LINK_DOWN, Kind.MAC_HOLD_FLUSH,
      Kind.MAC_TXTS_OVF]
  ++ [Kind.RED_RETURN, Kind.RED_SWAP, Kind.KP_REPAIR, Kind.RED_TAKEOVER, Kind.RED_MIRROR_GAP,
      Kind.RED_VOTE_MINORITY, Kind.RED_VOTE_SHORT, Kind.RED_VOTE_FULL, Kind.RED_NO_TWIN,
      Kind.DIVERGE, Kind.RED_VOTE_CONFLICT, Kind.RED_VOTE_LOST, Kind.RED_MIRROR_BIND,
      Kind.KP_WEAK, Kind.RED_CONFIG, Kind.KEYSTONE]
  ++ [Kind.FEED_UP, Kind.DEMAND_PARTIAL, Kind.FEED_TRIP, Kind.FEED_SHORT, Kind.PRECHARGE_FAIL,
      Kind.GATE_FAIL, Kind.GATE_LOST, Kind.FEED_LOCKOUT, Kind.FEED_CONFIG]
  ++ [Kind.SUPPLY_OK, Kind.LASTGASP_DONE, Kind.BANK_WARN, Kind.SUPPLY_WARN, Kind.LASTGASP_FAIL,
      Kind.SUP_CONFIG]
  ++ [Kind.MODE_CHANGE, Kind.FW_CONFIRMED, Kind.RETAIN_NONE, Kind.BOOT_ALT, Kind.FW_FALLBACK,
      Kind.RNG_HEALTH, Kind.ENTROPY, Kind.COMMISSION_FAIL, Kind.MGT_BAD_CMD, Kind.FWVERIFY_FAIL,
      Kind.RCV_BAD]
  ++ [Kind.SRAM_REPAIRED, Kind.REF_SWITCH, Kind.SRAM_WEAR, Kind.REF_LOST, Kind.NV_SWITCH,
      Kind.NV_WEAR, Kind.NO_SPARE_ROW, Kind.DDR_WEAR, Kind.NV_FAIL, Kind.REF_NONE]

/-- The level kinds, marked with an asterisk in R473 and named in R498 (R459). -/
def Kind.levels : List Kind :=
  [Kind.LANE_DEGRADED, Kind.LANE_DOWN, Kind.SUBLINK_DOWN, Kind.RING_WRAP, Kind.SEAL_FAIL,
   Kind.TRAIN_FAIL, Kind.OVER_QUOTA, Kind.GUARD_TRIP, Kind.SYNC_LOST, Kind.TBL_HOME_LOST,
   Kind.PH_DEGRADED, Kind.SLIP, Kind.PH_STALE, Kind.SEQ_HOLD, Kind.TEN_BANK,
   Kind.CHN_HEAD_SAFE, Kind.CHN_HEAD_FAULT, Kind.CHN_NO_HEAD, Kind.MB_PASSIVE, Kind.MB_BUSOFF,
   Kind.BRG_LINK_DOWN, Kind.MAC_LINK_DOWN, Kind.RED_NO_TWIN, Kind.KEYSTONE, Kind.FEED_LOCKOUT,
   Kind.BANK_WARN, Kind.SUPPLY_WARN, Kind.REF_LOST, Kind.REF_NONE]

/-- Whether a kind is a level kind (R459). -/
def Kind.isLevel (k : Kind) : Bool := Kind.levels.contains k

/-- Whether some chapter defines the kind: the kinds of R473 and R498, and the kinds of source SEQ
that a program defines by SIGNAL (R174, R460). -/
def Kind.isDefined (k : Kind) : Bool :=
  Kind.defined.contains k || (k.src == 0x06 && decide (0x30 ≤ k.kind % 64) && decide (k.kind < 256))

end Sys2Proof.Machine
end

