-- ==== Sys2Proof/Machine/State.lean ====
section
/-! DEFINITION. The state of the hub as plain data: every register field in one sparse store, the
king-post registers in their three copies, the memories and stores, and for each chapter a record
of the internal state its rules give the hub; the state after reset; the reasons a step stops. -/

namespace Sys2Proof.Machine

/-- Why a command stops the model. -/
inductive Fault where
  /-- Raised by a meaning whose command carries an operand that no such command has: a word list
  that is not 1 to 20 words long, a cell whose payload is not 20 words, a frame whose data exceed
  its kind.  Safe: the model stops; the hub is never sent such a command. -/
  | illFormed (mnemonic : String)
  deriving DecidableEq, Repr

/-- Why a command is refused. -/
inductive Refusal where
  /-- Raised by `exec` for a command whose meaning is not written. Safe: the model stops. -/
  | notModelled (mnemonic : String)
  deriving DecidableEq, Repr

/-- A report on its way to the collector, with the ring time of the tick in which the block
detected the cause (R457). -/
structure Report where
  gen   : Nat
  ticks : Nat
  kind  : Kind
  addr  : Nat
  deriving DecidableEq, Repr

/-- A fault message: a report and the number of reports it stands for (R457). -/
structure Msg where
  report : Report
  rept   : Nat
  deriving DecidableEq, Repr

/-- The empty record: SOURCE 0x00 (R457). -/
def Msg.empty : Msg := .mk (.mk 0 0 (.mk 0 0) 0) 0

/-- A level cause that holds: its kind and the address that names the instance (R459). -/
structure Cause where
  kind : Kind
  addr : Nat
  deriving DecidableEq, Repr

/-- One copy of a king-post register: the data last written to it, and which of its 55 stored bits
(48 data, 7 check) have been flipped since (R427, R428). -/
structure KpCopy where
  data  : Word
  flips : BitVec 55
  deriving DecidableEq, Repr

/-- A king-post register: three copies, the last agreed value, and whether a use has found no agreeing
pair since the last write of all copies (R427). -/
structure KpReg where
  a    : KpCopy
  b    : KpCopy
  c    : KpCopy
  last : Word
  stuck : Bool
  deriving DecidableEq, Repr

/-- A king-post register all of whose copies hold `v`. -/
def KpReg.of (v : Word) : KpReg := .mk (.mk v 0) (.mk v 0) (.mk v 0) v false

/-- What the hub emits at its balls: kept in order, the newest first. -/
inductive Out where
  /-- A wire cell leaves on a ring sub-link's egress core port: the cell and its CRC-32, inverted where the hub
  stomps it (R293, R294). -/
  | ring (cp : Nat) (c : Cell) (crc : BitVec 32)
  /-- A LINK cell leaves a ring port on sub-link 0, with its CRC-32 (R293, R306, R355). -/
  | link (port : Nat) (c : Cell) (crc : BitVec 32)
  /-- The lane word that lane `l` of port `p` sends (R290). -/
  | laneWord (p l : Nat) (w : BitVec 20)
  /-- An MSI-X message of function `fn` (0 the PF), vector `vec` (R468). -/
  | msix (fn vec : Nat)
  /-- A PCIe memory write to the host. -/
  | hostWrite (addr : Nat) (bytes : List Byte)
  /-- A PCIe memory read of the host; `id` names its completion. -/
  | hostRead (id addr len : Nat)
  /-- A completion to the host with data. -/
  | cplData (bytes : List Byte)
  /-- A completion to the host with Unsupported Request. -/
  | cplUR
  /-- A completion to the host with Completer Abort. -/
  | cplCA
  /-- The word that a register read of the management processor returns. -/
  | read (v : Word)
  /-- A frame starts on message bus `c` (R275). -/
  | bus (c : Nat) (f : BusFrame)
  /-- Controller `c` acknowledges a valid frame, or sends an error frame (R263). -/
  | busAck (c : Nat)
  | busError (c : Nat)
  /-- A frame leaves Ethernet MAC `m`. -/
  | eth (m : Nat) (bytes : List Byte)
  /-- A frame starts on chain port `p`: its header word, point data and frame CRC (R239 to R241). -/
  | chainFrame (p : Nat) (header : Word) (points : Nat) (crc : BitVec 16)
  /-- A LAT pulse of chain port `p` (R243, R249). -/
  | chainLat (p : Nat)
  /-- What head `h` returned on RB of input A or B (`true`) in the frame that has ended (R239, R256): a bit
  a clock. -/
  | rb (h : Nat) (side : Bool) (bits : List Bool)
  /-- The step of a SHIFTO leaves the pins of tenon `t` of bay `b` (R179). -/
  | shift (b t : Nat) (value : Nat)
  deriving DecidableEq, Repr

/-- The feed part of a retention record (R489). -/
structure RetFeed where
  energy  : Nat
  tariffs : List Nat
  tsel    : Nat
  maxdem  : Nat
  interval : Nat
  elapsed : Nat
  snap    : Nat
  deriving DecidableEq, Repr

/-- A row repair in force: bank, spare row number and row (R489). -/
structure RowRepair where
  bank  : Nat
  spare : Nat
  row   : Nat
  deriving DecidableEq, Repr

/-- A retention record (R489): LGSEQ, KIND (0 checkpoint, 1 last gasp), the ring time of the
snapshot, 32 feeds, 32 bay words, `XBAR_SPARE`, row repairs, NVUSE and REFUSE. -/
structure Retention where
  lgseq   : Nat
  kind    : Nat
  gen     : Nat
  ticks   : Nat
  feeds   : List RetFeed
  bays    : List (Nat × Nat)
  xstate  : Nat
  xserves : Nat
  repairs : List RowRepair
  nvuse   : Nat
  refuse  : Nat
  deriving DecidableEq, Repr

/-- The fields of a channel-table entry that the hub uses (R43).  STATE VALID is `valid`. -/
structure Entry where
  valid   : Bool
  type    : Nat
  gen     : Nat
  tenant  : Nat
  dclass  : Nat
  claim   : Nat
  mirror  : Bool
  pin     : Bool
  vgroup  : Nat
  bay     : Nat
  tenon   : Nat
  port    : Nat
  index   : Nat
  points  : Nat
  dataPtr : Nat
  deriving DecidableEq, Repr

/-- An EMPTY entry, of generation `g`. -/
def Entry.empty (g : Nat) : Entry := .mk false 0 g 0 0 0 false false 0 0 0 0 0 0 0

/-- A line of the channel cache (R57 to R62): whether it is current, pinned, which generation it
expects (R66), when it was last used, and whether its bank holds a correctable error in it (R487). -/
structure Line where
  ch      : Nat
  entry   : Entry
  current : Bool
  pinned  : Bool
  expect  : Option Nat
  used    : Nat
  weak    : Bool
  deriving DecidableEq, Repr

/-- How far a queued doorbell has come (R66 to R69): its entry's write waits for the table port as operation
`op`; it is finished and waits for the operations and the actions opened against an earlier version. -/
inductive DoorPhase where
  | queued
  | refetch (due : Nat) (ue : Bool)
  | writing (op : Nat)
  | finished (ops acts : List Nat)
  | complete
  deriving DecidableEq, Repr

/-- A queued doorbell: `TBL_UPDATE` or `TBL_INVAL`, its channel and GEN, the staged entry (R65). -/
structure Doorbell where
  update : Bool
  ch     : Nat
  gen    : Nat
  staged : Nat
  phase  : DoorPhase
  deriving DecidableEq, Repr

/-- What an operation of the table port serves. -/
inductive Purpose where
  /-- The MOVE of a dispatched action, by the action's number (R125). -/
  | move (act : Nat)
  /-- A MOVC of lane `k` (R170). -/
  | movc (k : Nat)
  /-- A MOVC whose lane was stopped: it completes by itself (R176). -/
  | alone
  /-- Nothing waits for it: its last words wait for queue space, or its lane was stopped. -/
  | drain
  /-- A write, which nothing waits for. -/
  | store
  /-- A READ: its RESP to the return word leaves in class `cls` on core port `out` (R315). -/
  | read (ret : Word) (cls : BitVec 2) (out : Nat)
  /-- LDW of lane `k` into register `rd` (R170). -/
  | ldw (k rd : Nat)
  /-- A burst of the automatic stream of the entry's bay and tenon (R222). -/
  | auto
  /-- The write of a staged entry (R67). -/
  | entry (raw : Nat)
  /-- The command word of a DISCRETE action (R125). -/
  | discrete (act : Nat)
  /-- The copy of a VOTE at instant `iv` (R423). -/
  | vote (iv : Nat)
  /-- A pass of the mirror engine (R417). -/
  | mirror
  deriving DecidableEq, Repr

/-- An operation of the table port: requester, direction, the core port and the tenant it came from, the
captured entry, its words, the tick of its lookup, the first beat not granted and the first not
transferred (beats count from the data region's start), the words read so far or to be written, and
whether it has closed (R56) or was abandoned (R53).  A paced
operation is a tenon stream's: `taken` is the next word to exchange with the queue, `idleAt` since when it
waits for queue space or for items (R221, R223). -/
structure Op where
  id      : Nat
  req     : Nat
  cp      : Nat
  ten     : Nat
  write   : Bool
  ch      : Nat
  entry   : Entry
  first   : Nat
  count   : Nat
  start   : Nat
  granted : Nat
  moved   : Nat
  data    : Tab Word
  purpose : Purpose
  closed  : Bool
  failed  : Bool
  paced   : Bool
  taken   : Nat
  idleAt  : Option Nat
  deriving DecidableEq, Repr

/-- A granted burst: its operation, first beat, beats, direction, grant tick, whether it was urgent,
and the words a read burst brings (R71). -/
structure Burst where
  op     : Nat
  req    : Nat
  first  : Nat
  len    : Nat
  write  : Bool
  at_    : Nat
  urgent : Bool
  words  : List Word
  deriving DecidableEq, Repr

/-- What waits for a way of the channel cache (R59): an access of core port `cp`, of tenant `ten`, a
broadcast or not, that writes `words` or reads `count` words for a return word; the words of a frame received
for object `o` of controller `c`; the result of buffer `b` for channel `ch`; a mirror cell; a TUNNEL
cell. -/
inductive Blocked where
  | write (bcast : Bool) (cp ten ch w : Nat) (words : List Word)
  | read (cp ten ch w count : Nat) (ret : Word) (cls : BitVec 2) (out : Nat) (ue : Bool)
  | frame (c o : Nat) (words : List Word)
  | result (c b ch result gen ticks : Nat)
  | mirror (words : List Word)
  | tunnel (c : Cell)
  deriving DecidableEq, Repr

/-- Channel table, cache and table port beyond their registers (chapter 02). -/
structure Tbl where
  /-- The DDR5 memory and host memory, by byte address; the DDR5 capacity fitted (R52). -/
  ddr      : Tab Byte
  host     : Tab Byte
  ddrSize  : Nat
  /-- The 8-byte slots of the home that hold an uncorrectable error (R53), and those that hold a correctable
  one (R51), by home offset. -/
  badSlots : List Nat
  weakSlots : List Nat
  /-- DDR5 channels that have passed training, and when the next retraining of each is due (R55). -/
  ddr0     : Bool
  ddr1     : Bool
  retrain0 : Nat
  retrain1 : Nat
  /-- The channel cache: its lines, the tick in which they last changed and the lines before that tick (R58),
  the use counter (R56 to R62), and what waits for a way (R59). -/
  lines    : List Line
  past     : Option (Nat × List Line)
  uses     : Nat
  blocked  : List Blocked
  /-- The doorbell queue (R64). -/
  doors    : List Doorbell
  /-- Operations, the next operation number, the burst that owns the port, read bursts in flight in
  grant order, write bursts whose beats are staged (R71, R525). -/
  ops      : List Op
  nextOp   : Nat
  owner    : Option Burst
  flight   : List Burst
  staged   : List Burst
  /-- Round robin: deficits, pointer, and the operation whose revoked burst restarts first (R73,
  R74); the same among the tenants of requesters 3 and 7, by 16 × requester + tenant (R328); since when
  each requester waits (R76). -/
  deficit  : Tab Nat
  ptr      : Nat
  restart  : Option Nat
  tenDef   : Tab Nat
  tenPtr   : Tab Nat
  since    : Tab (Option Nat)
  /-- Channels whose entry fetch has met an uncorrectable error that the access which waits for it has
  yet to see (R53). -/
  broken   : List Nat
  deriving DecidableEq, Repr

def Tbl.reset : Tbl :=
  { ddr := [], host := [], ddrSize := 0x1000000000, badSlots := [], weakSlots := [], ddr0 := true, ddr1 := true,
    retrain0 := 0, retrain1 := 0, lines := [], past := none, uses := 0, blocked := [], doors := [], ops := [], nextOp := 0,
    owner := none, flight := [], staged := [], deficit := [], ptr := 7, restart := none, tenDef := [],
    tenPtr := [], since := [], broken := [] }

/-- A motion model, as a phase sample carries it (R101): the source and its sequence, quality and
home sequence, APPLY, T_s, and the phase word, rate and acceleration at T_s. -/
structure Model where
  kind    : Nat
  seqno   : Nat
  quality : Nat
  node    : Nat
  apply   : Nat
  gen     : Nat
  ts      : Nat
  phase   : Nat
  rate    : Int
  accel   : Int
  homeseq : Nat
  deriving DecidableEq, Repr

/-- A phase domain beyond its registers (chapter 03). -/
structure Ph where
  /-- Accepted levels of A and B, and the ticks since which the inputs A, B and Z may show another level
  that is accepted (R83). -/
  a        : Bool
  b        : Bool
  aFrom    : Nat
  bFrom    : Nat
  zFrom    : Nat
  /-- The counter in 48.16 fixed point, and the time of the last counted edge since the previous
  measurement event (R85, R97). -/
  counter  : Nat
  edgeAt   : Option Nat
  /-- A Z edge was seen since the role was set; HOMED and HOMESEQ of a source (R88, R99); an
  encoder error in this basic cycle (R99). -/
  zSeen    : Bool
  homed    : Bool
  homeseq  : Nat
  encErr   : Bool
  /-- The filter: measurements since it started, p, r, a, their time, the latest innovation, whether
  r or a went out of range, and the tick of the last measurement (R98, R99). -/
  nmeas    : Nat
  p        : Nat
  r        : Int
  acc      : Int
  tu       : Nat
  innov    : Int
  range    : Bool
  measAt   : Nat
  /-- SSI: the angle offset of R89, the measurement time of the read in progress, when it began,
  the tick TM expires, the basic cycle in which a read was last due, and the last read (R90, R91, R119). -/
  ssiOff   : Nat
  ssiRead  : Option (Nat × Nat)
  ssiTm    : Nat
  ssiDue   : Option Nat
  ssiRaw   : Nat
  /-- MAINS: time of the last accepted edge, and the number of edges (R93, R119). -/
  mainsAt  : Option Nat
  edges    : Nat
  /-- The tick of the last SETPH write with the counter before it (R89), and the ticks of the last slip and
  of the last acknowledgement (R116). -/
  setAt    : Option (Nat × Nat)
  slipAt   : Option Nat
  ackAt    : Option Nat
  /-- Sequence of the next published sample, and the sample that waits for the window (R100). -/
  seqno    : Nat
  sample   : Option Model
  /-- Pending samples in T_eff order, the effective model, the core-clock tick of its T_eff,
  and NODE, SEQ and TS_TICKS of the last accepted sample (R103, R104, R110). -/
  pend     : List Model
  eff      : Option Model
  effAt    : Nat
  lastKey  : Option (Nat × Nat × Nat)
  /-- Basic cycle in which a sample of the current source last became effective (R107). -/
  srcCycle : Nat
  /-- The extreme X and the tick it was last brought up to (R112); the last phase held (R115). -/
  x        : Nat
  xAt      : Nat
  /-- Ring-time tick up to which wraps have been looked for (R96). -/
  wrapAt   : Nat
  held     : Nat
  deriving DecidableEq, Repr

def Ph.reset : Ph :=
  { a := false, b := false, aFrom := 0, bFrom := 0, zFrom := 0, counter := 0, edgeAt := none, zSeen := false, homed := false,
    homeseq := 0, encErr := false, nmeas := 0, p := 0, r := 0, acc := 0, tu := 0, innov := 0,
    range := false, measAt := 0, ssiOff := 0, ssiRead := none, ssiTm := 0,
    ssiDue := none, ssiRaw := 0, mainsAt := none, edges := 0, setAt := none, slipAt := none, ackAt := none,
    seqno := 0, sample := none, pend := [], eff := none, effAt := 0, lastKey := none,
    srcCycle := 0, x := 0, xAt := 0, wrapAt := 0, held := 0 }

/-- An ephemeris entry (R123), with the hub's own note whether it has set NEXT of a REV entry since
the entry became ARMED (R131). -/
structure Eph where
  trig     : Nat
  dlval    : Nat
  arg      : Nat
  param    : Nat
  act      : Nat
  policy   : Nat
  dlkind   : Nat
  trigkind : Nat
  domain   : Nat
  dir      : Nat
  tenant   : Nat
  state    : Nat
  count    : Nat
  nextSet  : Bool
  deriving DecidableEq, Repr

/-- A FREE entry, with all its fields 0 (R121). -/
def Eph.free : Eph := .mk 0 0 0 0 0 0 0 0 0 0 0 0 0 false

/-- A firing in the queue: its entry and instant (R135), the chain port of a LATCH, which its lead needs
(R125), and whether its deadline has passed already (R144). -/
structure Firing where
  entry   : Nat
  instant : Nat
  port    : Option Nat
  missed  : Bool
  deriving DecidableEq, Repr

/-- A dispatched action that has not had its effect: the entry and its content as captured, the
instant, the target phase word and direction, the channel and its entry where it names one, whether
it still waits to be performed, and the tick of its dispatch (R137 to R146). -/
structure Act where
  id      : Nat
  entry   : Nat
  e       : Eph
  instant : Nat
  target  : Nat
  fwd     : Bool
  chan    : Option (Nat × Entry)
  waiting : Bool
  noDl    : Bool
  deriving DecidableEq, Repr

/-- A timed command of a DISCRETE action on its way to its output stage: the action it serves, the
entry it comes from, its instant, the bay, and the pins with their levels (R142, R143). -/
structure Timed where
  act     : Nat
  entry   : Nat
  instant : Nat
  bay     : Nat
  mask    : Nat
  value   : Nat
  deriving DecidableEq, Repr

/-- The ephemeris and the sequencer beyond their registers (chapter 04). -/
structure Seq where
  /-- The entries, and the record of the tenant (plus one) of each entry that is not FREE (R129). -/
  eph       : Tab Eph
  owner     : Tab Nat
  /-- The firing queue (R135) and whether its fullness was reported in this pass. -/
  wheel     : List Firing
  fullSaid  : Bool
  /-- The reference model of each domain (R136). -/
  ref       : Tab (Option Model)
  /-- Dispatched actions in dispatch order, and the next number (R137, R138). -/
  acts      : List Act
  nextAct   : Nat
  /-- Timed commands on their way, in dispatch order (R142). -/
  timed     : List Timed
  /-- Entries that hold an uncorrectable error, or a correctable one (R129, R487), and the entry that the
  sweep visits next (R133). -/
  bad       : List Nat
  weak      : List Nat
  sweepAt   : Nat
  deriving DecidableEq, Repr

def Seq.reset : Seq := .mk [] [] [] false [] [] 0 [] [] [] 0

/-- The steps of a SHIFTO or SHIFTI in progress: its word, the bay clock from which they count, the steps
done, whether the tenon's own clock ends the instruction with them, and the bay's pins at its sample edges, as
far as they are given (R179, R181). -/
structure Shift where
  word    : Nat
  at_     : Nat
  done    : Nat
  timed   : Bool
  samples : List (BitVec 16)
  deriving DecidableEq, Repr

/-- What an engine waits for inside an instruction. -/
inductive Wait where
  | none
  /-- A lane in MOVC: the operation whose last beat it awaits (R170). -/
  | movc (op : Nat)
  /-- A lane in WAIT_PHASE: domain, target, direction, result register (R171). -/
  | phase (d target : Nat) (fwd : Bool) (rd : Nat)
  /-- A lane whose WAIT_PHASE ends with this value of rd, by a slip or a loss of phase (R171). -/
  | phaseOut (val rd : Nat)
  /-- A lane in WAIT_TIME: tick and result register (R172). -/
  | time (tick rd : Nat)
  /-- A tenon in POP, in PUSH or in the pop or the push of a shift (R184, R179). -/
  | pop
  | push
  /-- A tenon in WCLK, of edges of a pin or of an external clock still to come, or of its own generator's
  until `ready`; in WPIN (R182). -/
  | edges (left : Nat)
  | wclk
  | pin
  /-- A tenon in the steps of a shift (R179 to R181, R204). -/
  | shift (x : Shift)
  /-- A tenon in a target-mode shift: SR at issue, its steps, and the clock edges of its frame, begun or awaited;
  none while a frame that was under way at issue goes on (R205). -/
  | select (sr : Word) (x : Shift) (edges : Option Nat)
  /-- A tenon in WAIT, until `ready`. -/
  | clocks
  deriving DecidableEq, Repr

/-- An engine: a sequencer lane or a tenon (R158).  Registers by number; of a tenon 0 to 3 are t0 to
t3, 4 SR, 5 CNT, 6 CV, 7 CM. -/
structure Eng where
  regs    : Tab Word
  z       : Bool
  n       : Bool
  c       : Bool
  v       : Bool
  stack   : List Nat
  pc      : Nat
  /-- The address of the instruction issued last, and when the next one may issue, in 1/64 tick (R186). -/
  issued  : Nat
  ready   : Nat
  wait    : Wait
  /-- Of a lane: entry, tenant, action and start tick of its program, and the RUNMAX that applies to
  it (R139, R140). -/
  entry   : Nat
  tenant  : Nat
  act     : Nat
  started : Nat
  runmax  : Nat
  /-- Of a tenon: the bay clock up to which CNT has counted (R207); generator mode (0 stop, 1
  free-run, 2 gated) and the bay clock it was set at (R203); the state a self-test returns to, and
  the bay clock it ends (R224); correctable errors in this matrix (R227);
  the instruction word whose side field is due when it ends (R177); the last bay clock on which CNT counted
  an edge of a pin, and how many (R185); the bay clock after that of the last stop (R212). -/
  cntAt   : Nat
  genMode : Nat
  genAt   : Nat
  testOf  : Option Nat
  testEnd : Nat
  ceCount : Nat
  side    : Option Nat
  edgeAt  : Nat
  edges   : Nat
  stopAt  : Nat
  deriving DecidableEq, Repr

def Eng.reset : Eng :=
  { regs := [], z := false, n := false, c := false, v := false, stack := [], pc := 0, issued := 0, ready := 0,
    wait := Wait.none, entry := 0, tenant := 0, act := 0, started := 0, runmax := 0, cntAt := 0,
    genMode := 0, genAt := 0, testOf := none, testEnd := 0, ceCount := 0, side := none,
    edgeAt := 0, edges := 0, stopAt := 0 }

/-- A queue item (R214): value, priority, arrival number; the bay clock of its arrival, and whether a
transfer brought it (R217); popped, hidden by a mark, popped after it. -/
structure Item where
  val    : Word
  pri    : Nat
  seqno  : Nat
  came   : Nat
  moved  : Bool
  popped : Bool
  hid    : Bool
  late   : Bool
  deriving DecidableEq, Repr

/-- The queues of a logical tenon (R214, R216); the bay clock of their last change, and the counts that
stood at its start (R217). -/
structure Queues where
  inq    : List Item
  outq   : List Item
  marked : Bool
  at_    : Nat
  before : Nat × Nat × Nat
  deriving DecidableEq, Repr

def Queues.empty : Queues := .mk [] [] false 0 (0, 0, 0)

/-- An accepted substitution (R229): logical tenon, P, S, COPY, RETIRE, whether the copy is complete
and when it ends, and the basic cycle in which it is armed (MSEQ * 64 + CYC). -/
structure Swap where
  log    : Nat
  old    : Nat
  new    : Nat
  copy   : Bool
  retire : Bool
  copied : Bool
  ends   : Nat
  cycle  : Nat
  deriving DecidableEq, Repr

/-- A bay beyond its registers (chapter 06): queues by logical tenon, the arrival counter, the
substitution under way, since when an automatic stream waits, and the basic cycle
of the spare's last periodic self-test (R225). -/
structure Bay where
  queues  : Tab Queues
  seqctr  : Nat
  swap    : Option Swap
  autoAt  : Tab (Option Nat)
  tested  : Option Nat
  deriving DecidableEq, Repr

def Bay.reset : Bay := .mk [] 0 none [] none

/-- The fault collector beyond its registers (chapter 15). -/
structure Flt where
  /-- Reports on their way to the collector, oldest first (R457). -/
  reports   : List Report
  /-- Level causes in effect (R459). -/
  causes    : List Cause
  /-- fold(s, k), last(s, k) and rec_cycle(s, k) of R463, by `Kind.key`; a cycle is held as its
  number plus one, 0 where the kind was never recorded. -/
  fold      : Tab Nat
  last      : Tab Report
  recCycle  : Tab Nat
  /-- The summaries queued, in the order in which they are recorded (R463). -/
  summaries : List Msg
  /-- The history: slot to message (R465). -/
  history   : Tab Msg
  /-- The tick of the last recording and the messages recorded in it (R464). -/
  slotTick  : Nat
  slotCount : Nat
  /-- Per vector (function * 32 + vector): number plus one of the cycle it last signalled in, and
  the vectors with their pending bit set (R469). -/
  msixLast  : Tab Nat
  msixPend  : List Nat
  /-- The forwarding queue of 32 messages and the remote queue of 64 (R470, R471). -/
  fwdQ      : List Msg
  remoteQ   : List (Nat × Msg)
  deriving DecidableEq, Repr

/-- The collector after a hub reset (R466). -/
def Flt.reset : Flt :=
  .mk [] [] [] [] [] [] [] 0 0 [] [] [] []

/-- A LATCH on its way to its frame (R237, R242): the action it serves, the instant, the CLAIM of its
channel's entry. -/
structure Latch where
  act     : Nat
  instant : Nat
  claim   : Nat
  deriving DecidableEq, Repr

/-- A frame in progress (R239): whether it is NEW, its SEQ and CLAIM, the bay clock of its first chain clock,
the tick its readback is complete and the tick of its LAT edge, the action its LAT edge serves, whether its readback has been
judged, whether it re-drives a mismatched image (R246), and whether it goes out at the pins (R252). -/
structure ChFrame where
  isNew   : Bool
  seqno   : Nat
  claim   : Nat
  startAt : Nat
  judgeAt : Nat
  latAt   : Nat
  act     : Option Nat
  judged  : Bool
  redrive : Bool
  sent    : Bool
  first   : Bool
  deriving DecidableEq, Repr

/-- A chain port beyond its registers (chapter 07).  An image holds point p at bit p. -/
structure Chp where
  /-- Whether a MOVE has completed since the last NEW frame; the three images (R236). -/
  fresh    : Bool
  pending  : Nat
  current  : Nat
  previous : Nat
  /-- CLAIM field of the channel of the LATCH that last set CURRENT (R238). -/
  claim    : Nat
  /-- LATCHes waiting for their frames; a REPEAT frame is due; a takeover goes on until a frame
  verifies (R248, R411). -/
  latches  : List Latch
  repDue   : Bool
  takeover : Bool
  /-- The frame in progress, and SEQ of the frame that completed before it (R245). -/
  frame    : Option ChFrame
  prev     : Option Nat
  /-- Ticks: of the last completed frame's LAT edge, before which no frame may start, and of the first
  LAT edge of the image in CURRENT (R243, R246, R248); the bay clock on which LAT falls (R243). -/
  lastLat  : Nat
  gapEnd   : Nat
  firstLat : Option Nat
  latFall  : Nat
  /-- Status parity failures in a row, and whether no frame has started since EN was set (R245). -/
  parity   : Nat
  unused   : Bool
  deriving DecidableEq, Repr

def Chp.reset : Chp :=
  { fresh := false, pending := 0, current := 0, previous := 0, claim := 0, latches := [],
    repDue := false, takeover := false, frame := none, prev := none, lastLat := 0, gapEnd := 0,
    firstLat := none, latFall := 0, parity := 0, unused := true }

/-- A head that is powered (R253 to R256): its size, held claim, safe state, LSEQ, the input that
latched, RESULT by input, HEALTH (R244), the latched image with its CRC, and which of its timers run. -/
structure Head where
  size    : Nat
  claim   : Nat
  safe    : Bool
  lseq    : Nat
  sideB   : Bool
  resultA : Nat
  resultB : Nat
  health  : Nat
  image   : Nat
  crc     : BitVec 16
  chtRuns : Bool
  tsRuns  : Bool
  deriving DecidableEq, Repr

/-- A receive object (R269 to R272): the committed filter words, NEW, LOST, the last data word L of
the frame it holds, since when it is locked, and whether a frame was dropped meanwhile. -/
structure MbObj where
  fid     : Nat
  fmask   : Nat
  isNew   : Bool
  lost    : Bool
  last    : Nat
  locked  : Option Nat
  dropped : Bool
  deriving DecidableEq, Repr

def MbObj.reset : MbObj := .mk 0 0 false false 2 none false

/-- A transmit buffer (R274): the channel that loaded it, its words 0 to 13, whether its pending
request has been cancelled, and whether a newer request waits behind a frame on the bus. -/
structure MbBuf where
  chan   : Option Nat
  words  : List Word
  cancel : Bool
  again  : Bool
  deriving DecidableEq, Repr

def MbBuf.reset : MbBuf := .mk none [] false false

/-- What a controller sends on its bus: a buffer or the head of its tunnel queue (R275). -/
inductive MbSrc where
  | buf (b : Nat)
  | tunnel
  deriving DecidableEq, Repr

/-- The frame that a controller has on its bus: its source and words, the channel that its result goes to, and
the ring time of the sample point of its SOF (R268, R275). -/
structure MbSend where
  src   : MbSrc
  words : List Word
  chan  : Option Nat
  gen   : Nat
  ticks : Nat
  deriving DecidableEq, Repr

/-- A message-bus controller beyond its registers (chapter 08): objects, buffers, its frame on the bus, a
written MODE that waits for bus idle (R264), whether another's frame has the bus (R275), whether it waits for
bus integration after an error (R265), the tick of its bus-off (R277), the tunnel queue (R281) and the stored
frames that wait to be tunnelled. -/
structure Mb where
  objs    : Tab MbObj
  bufs    : Tab MbBuf
  onBus   : Option MbSend
  newMode : Option Nat
  busy    : Bool
  integ   : Bool
  offAt   : Nat
  tunQ    : List (List Word)
  toTun   : List (List Word)
  deriving DecidableEq, Repr

def Mb.reset : Mb := .mk [] [] none none false false 0 [] []

/-- A feed beyond its registers (chapter 14). -/
structure Feed where
  /-- Tick at which the present phase began: precharge, gating, ON, or the end of a backoff. -/
  phaseAt  : Nat
  /-- The trip accumulator, in units of 2^-32 of a trip (R438). -/
  acc      : Nat
  /-- Latest voltage code, and the period sum of I × V × 1 µs, exact in units of 10^-18 J, with the
  remainder below 1 mJ of the periods before (R443). -/
  vcode    : Nat
  sum      : Nat
  carry    : Nat
  /-- A tariff registered in this period, and a requested close of the interval (R444, R445). -/
  tarReq   : Option Nat
  dsync    : Bool
  /-- Energy of the running demand interval, mJ, and its length in minutes (R445). -/
  interval : Nat
  mins     : Nat
  deriving DecidableEq, Repr

def Feed.reset : Feed := .mk 0 0 0 0 0 none false 0 15

/-- The supply supervisor and what all feeds share (chapter 14): the governor's queue in order of
entry, the tick the period began, the tick of the last checkpoint, the start and the record of a
last-gasp write in progress, and whether SUPPLY_OK is due. -/
structure Sup where
  govQ     : List Nat
  periodAt : Nat
  ckptAt   : Nat
  writing  : Option (Nat × Retention)
  okDue    : Bool
  deriving DecidableEq, Repr

def Sup.reset : Sup := .mk [] 0 0 none false

/-- A ring lane (R290 to R292, R295, R296, R298): the last CSEQ received and how many continuous lane words in
a row, uncorrectable codewords in a row, the other fields of its last codewords (up to four), the fields acted
on, and corrected symbols in this matrix; one more than the tick of the last codeword of each CSEQ, the CSEQs whose last
codeword was uncorrectable, and the CSEQ that the lane sends next. -/
structure RLane where
  cseq   : Option Nat
  good   : Nat
  badRun : Nat
  hist   : List Nat
  acted  : Option Nat
  fec    : Nat
  ats    : Tab Nat
  bad    : List Nat
  tx     : Nat
  deriving DecidableEq, Repr

def RLane.reset : RLane := .mk none 0 0 [] none 0 [] [] 0

/-- A ring port beyond its registers (chapter 09). -/
structure RPort where
  lanes   : Tab RLane
  /-- Lanes reported by TRAIN_FAIL; the basic cycle from which each lane trains (R295). -/
  failed  : List Nat
  trainAt : Tab Nat
  /-- The position of the swap under way, the basic cycle of its request, and a BACK that waits for
  the boundary (R299, R300). -/
  swapPos : Nat
  swapAt  : Nat
  backDue : Bool
  /-- The position this hub copies onto its spare for the partner (R299). -/
  dup     : Option Nat
  /-- A valid TT cell arrived in this basic cycle; basic cycles in a row without one although some
  were expected; whether this matrix has shown all of R305 so far, from its start. -/
  ttSeen  : Bool
  ttMiss  : Nat
  clean   : Bool
  /-- Sealing (R306 to R308): own and the partner's nonce and node, the epoch and its matrices so far,
  and the basic cycle since which the port is to be sealed; whether SEAL_FAIL was reported. -/
  nonce   : Option (BitVec 96)
  peer    : Option (Nat × Nat)
  epoch   : Nat
  matrices : Nat
  keyDue  : Bool
  readyAt : Option Nat
  sealSaid : Bool
  deriving DecidableEq, Repr

def RPort.reset : RPort :=
  { lanes := [], failed := [], trainAt := [], swapPos := 0, swapAt := 0, backDue := false, dup := none,
    ttSeen := false, ttMiss := 0, clean := false, nonce := none, peer := none, epoch := 0,
    matrices := 0, keyDue := false, readyAt := none, sealSaid := false }

/-- A boot-control record (R483).  Banks and settings areas: false A / 0, true B / 1. -/
structure Bcr where
  seqno  : Nat
  active : Bool
  trial  : Bool
  prev   : Bool
  seta   : Bool
  setp   : Bool
  deriving DecidableEq, Repr

/-- Management beyond its registers (chapter 16). -/
structure Mgt where
  /-- A reset has been taken and the ROM has not booted yet; the cause of it asked for Recovery. -/
  booting    : Bool
  toRecovery : Bool
  /-- When RESET_N rose (R481, R482). -/
  resetAt    : Nat
  /-- The tick in which the king-post lock was set: writes of that clock still reach RWL fields
  (R522). -/
  lockAt     : Option Nat
  /-- Hold was entered through KEYSTONE (R476). -/
  keystoneHold : Bool
  /-- The nonvolatile ports: boot-control copies (port * 2 + copy), retention slots
  (port * 2 + slot), and header VERSION of the image by port * 2 + bank (R484). -/
  bcr        : Tab (Option Bcr)
  slots      : Tab (Option Retention)
  images     : Tab Nat
  /-- LGSEQ of the last record written or restored, from which the next one's follows (R489). -/
  lgseq      : Nat
  /-- Firmware: the bank that runs, the words written through `MGT_IMGDATA`, newest first, the tick at
  which TRIAL began, and a fall-back due at the next boundary: 1 + the tick where CONFTO expired, else 0
  (R492 to R494). -/
  runs       : Bool
  upload     : List Word
  trialStart : Nat
  fallback   : Option Nat
  /-- Time of the last restart in place of the firmware (R494). -/
  restarted  : Option Nat
  /-- Recovery: a verified download is kept, and the hub resets at this tick (R495). -/
  rcvReset   : Option Nat
  /-- Nonces waiting for the pool: the ring ports that wait (R306, R482). -/
  nonceWait  : List Nat
  /-- The PLL holds over, and a commanded reference switch (R490). -/
  holdover   : Bool
  refSwitch  : Bool
  /-- Correctable errors, the last row and the errors in this matrix, by SRAM bank (56 stands for the DDR5 home),
  and the banks whose wear this matrix has shown; the row repairs in
  force, the end of the copy, and the repair armed or copying (R487, R488). -/
  bankCe     : Tab Nat
  bankRow    : Tab Nat
  bankMatrix : Tab Nat
  bankWorn   : List Nat
  repairs    : List RowRepair
  repairEnd  : Nat
  repairing  : Option RowRepair
  deriving DecidableEq, Repr

def Mgt.reset : Mgt :=
  { booting := true, toRecovery := false, resetAt := 0, lockAt := none, keystoneHold := false, bcr := [], slots := [], images := [], lgseq := 0,
    runs := false, upload := [], trialStart := 0, fallback := none, restarted := none, rcvReset := none,
    nonceWait := [], holdover := false, refSwitch := false, bankCe := [], bankRow := [], bankMatrix := [], bankWorn := [],
    repairs := [], repairEnd := 0, repairing := none }

/-- A steering announcement: sequence, offset, matrix at which it applies (R363). -/
structure Steer where
  stseq : Nat
  off   : Int
  apply : Nat
  deriving DecidableEq, Repr

/-- An entry of the TT duplicate store: CRC-32, path (true B), cycle it was stored in (R347). -/
structure DupEntry where
  crc   : Nat
  pathB : Bool
  cycle : Nat
  deriving DecidableEq, Repr

/-- A link-delay exchange of a ring port (R355): its number, T1 of the open request, the last
results, newest first, in 1/256 tick. -/
structure LinkDelay where
  exch    : Nat
  t1      : Option Nat
  results : List Int
  deriving DecidableEq, Repr

def LinkDelay.none : LinkDelay := .mk 0 Option.none []

/-- The cycle matrix beyond its registers (chapter 11). -/
structure Cyc where
  /-- Ticks since the start of the basic cycle (R335). -/
  offset    : Nat
  /-- Basic cycles begun since reset, and when the last one began on the core clock. -/
  ncyc      : Nat
  startedAt : Option Nat
  /-- MSEQ * 64 + CYC of the last cycle whose predecessor was ended and of the last one begun, and MSEQ
  of the last boundary applied: what of the running position is still due. -/
  ended     : Option Nat
  started   : Option Nat
  bnd       : Option Nat
  /-- The offset of this basic cycle has been corrected (R358). -/
  corrected : Bool
  /-- The ACTIVE and PENDING banks: word w of row r at 3r + w (R339, R340). -/
  active    : Tab Nat
  pend      : Tab Nat
  /-- The activation word and whether an activation is pending (R342). -/
  am        : Nat
  amPend    : Bool
  /-- The duplicate store, oldest first (R347). -/
  dups      : List DupEntry
  /-- Deviations of this basic cycle: (slot, 1/256 tick); slots that delivered a copy, by path. -/
  devs      : List (Nat × Int)
  seenA     : List Nat
  seenB     : List Nat
  /-- Sum of the matrix's corrections (R358), and the cycles in a row with |avg| over SYNCLIM and
  without a sync cell (R361). -/
  csum      : Int
  overLim   : Nat
  noSync    : Nat
  /-- Slew of the cycle position still to spread (1/256 tick), the ticks left to spread it over,
  and the fraction of a tick carried (R358). -/
  slew      : Int
  slewWin   : Nat
  frac      : Int
  /-- Ring-time slew still to spread in this basic cycle (ticks) (R364). -/
  rtSlew    : Int
  rtWin     : Nat
  /-- Insertion of TT and sync cells is stopped (R361, R370). -/
  stopped   : Bool
  /-- The steering hub's own announcement, and the recorded one (R363). -/
  mySteer   : Option Steer
  steer     : Option Steer
  /-- The sync slot from which an announcement was recorded in this basic cycle (R363). -/
  steerSlot : Option Nat
  /-- A label disagreement was seen in this matrix; the label of the lowest sync slot received in
  it: slot, GEN, and its distance in ticks from this hub's own TICKS (R366). -/
  labelDue  : Bool
  label     : Option (Nat × Nat × Int)
  /-- Observation of a matrix in INTEGRATE: begun at a boundary, and valid so far; sync slots and
  the CS = 0 flag of this cycle (R368). -/
  observing : Bool
  valid     : Bool
  rxSlots   : List Nat
  anyNoCs   : Bool
  /-- COLDSTART: every basic cycle of the matrix so far brought another slot's sync cell (R369). -/
  csMatrix  : Bool
  csOther   : Bool
  /-- Whole matrices counted in LISTEN; the count has begun at a boundary (R369). -/
  listenCnt : Nat
  listening : Bool
  /-- Guardians: node, sync slot (if a sync hub) locked at the last activation; consecutive good
  starts by port (R351, R352). -/
  grdNode   : Nat
  grdSlot   : Option Nat
  grdGood   : Tab Nat
  /-- The generation before the last re-epoch or adoption, and the offset TICKS moved by (R106). -/
  prevGen   : Option Nat
  epochOff  : Int
  /-- Link delays by ring port (R355), and the heartbeat sequence (R349). -/
  links     : Tab LinkDelay
  hseq      : Nat
  deriving DecidableEq, Repr

def Cyc.reset : Cyc :=
  { offset := 0, ncyc := 0, startedAt := none, ended := some 0, started := none,
    bnd := none, corrected := false, active := [], pend := [], am := 0, amPend := false,
    dups := [], devs := [], seenA := [], seenB := [], csum := 0,
    overLim := 0, noSync := 0, slew := 0, slewWin := 0, frac := 0, rtSlew := 0, rtWin := 0,
    stopped := false, mySteer := none, steer := none, steerSlot := none, labelDue := false, label := none,
    observing := false, valid := false, rxSlots := [], anyNoCs := false, csMatrix := false,
    csOther := false, listenCnt := 0, listening := false, grdNode := 0, grdSlot := none,
    grdGood := [], prevGen := none, epochOff := 0, links := [], hseq := 0 }

/-- A cell in the switch core: its egress core port, the tick it entered, the tenant it counts for
where this hub originated it (R326, R327), whether it is a broadcast's second copy, which takes no
place of its own in the input queue, and whether it is still in a bank that is being drained (R332). -/
structure QCell where
  cell : Cell
  out  : Nat
  born : Nat
  own  : Option Nat
  copy : Bool
  old  : Bool
  deriving DecidableEq, Repr

/-- A cell that waits in its block to be admitted, and the tenant it counts for (R326). -/
structure WCell where
  cell : Cell
  ten  : Nat
  deriving DecidableEq, Repr

/-- What a quota write has replaced: the tick of the write, the class, the quota and OVER before it (R327). -/
structure OldQuota where
  at_   : Nat
  cls   : Nat
  cells : Nat
  wasOver : Bool
  deriving DecidableEq, Repr

/-- The switch core beyond its registers (chapter 10). -/
structure Xbar where
  /-- Cells waiting in the block on a local core port, by core port, oldest first (R320, R326). -/
  waiting  : Tab (List WCell)
  /-- Input queues by core port, in arrival order (R320). -/
  inq      : Tab (List QCell)
  /-- Crosspoint buffers, input * 32 + output, in arrival order (R321). -/
  xp       : Tab (List QCell)
  /-- Round-robin pointers of R322, and of R323 by output * 4 + class; PRIO cells sent in a row. -/
  gptr     : Tab Nat
  aptr     : Tab Nat
  rr       : Tab Nat
  prioRun  : Tab Nat
  /-- CTRL and LINK cells admitted in this basic cycle against `XBAR_CTLCAP` (R326). -/
  ctlUsed  : Nat
  /-- PORT_HOLD of a ring port: the tick it ends (R330). -/
  hold     : Tab (Option Nat)
  /-- Nodes whose TT cell reached or passed the hub in this and in the previous cycle (R316). -/
  seenNow  : List Nat
  seenPrev : List Nat
  /-- Correctable errors counted in this matrix, by bank, and the banks reported in it (R332). -/
  ceMatrix : Tab Nat
  worn     : List Nat
  /-- The inputs and outputs of the TT cells, and of the other cut-through cells, that have passed in this cell
  time (R323 to R325). -/
  tt       : List (Nat × Nat)
  cut      : List (Nat × Nat)
  /-- What the last quota write of each tenant has replaced (R327). -/
  oldQuota : Tab (Option OldQuota)
  deriving DecidableEq, Repr

def Xbar.reset : Xbar := .mk [] [] [] [] [] [] [] 0 [] [] [] [] [] [] [] []

/-- A frame on its way through a tunnel (R388, R389): the fields of its header, its timestamp and its
bytes. -/
structure TunFrame where
  stun  : Nat
  mbus  : Bool
  ip    : Nat
  l4    : Nat
  gen   : Nat
  ticks : Nat
  bytes : List Byte
  deriving DecidableEq, Repr

/-- A frame in reassembly (R391): the tunnel of its TUNNEL channel, its FSEQ, its header, its length,
the next cell index, the tick its first cell arrived, and whether it waits for its sink's ring slot. -/
structure Reasm where
  tun    : Nat
  fseq   : Nat
  frame  : TunFrame
  len    : Nat
  next   : Nat
  born   : Nat
  asking : Bool
  deriving DecidableEq, Repr

/-- A host read in progress (R379): its number, the issuing function, the packing and rule of its
window, the first window word, the byte offset in it of the first byte asked for and the length, the
words gathered by their number in the request, the READ cells that have no RESP yet, and whether a
RESP carried a refusal. -/
structure OutRead where
  id    : Nat
  fn    : Nat
  packd : Bool
  di    : Bool
  skip  : Nat
  len   : Nat
  words : Tab Word
  left  : Nat
  bad   : Bool
  deriving DecidableEq, Repr

/-- A cell of a function's requests that has not gone to CP16 yet: the function, of a READ its request
and the number of its first word in it, and the cell, a READ without its tag (R379, R381). -/
structure OutCell where
  fn   : Nat
  req  : Option Nat
  at_  : Nat
  cell : Cell
  deriving DecidableEq, Repr

/-- A tag in use: by a READ cell of a request until a tick, or in quarantine until a tick (R380). -/
inductive TagUse where
  | free
  | busy (req at_ n due : Nat)
  | quarantine (until_ : Nat)
  deriving DecidableEq, Repr

/-- What a read of host memory serves: a READ of an inbound window, or word 0 of a receive ring's slot
for a frame of tunnel `t`, with the slots of its ring (R384, R393). -/
inductive HostUse where
  | window (cell : Cell)
  | ring (t slots : Nat)
  deriving DecidableEq, Repr

/-- A read of host memory: its number, its window, its packing and rule, its use, and the tick its
time is over. -/
structure HostRead where
  id    : Nat
  win   : Nat
  use   : HostUse
  due   : Nat
  deriving DecidableEq, Repr

/-- A frame in a MAC's transmit queue: its bytes, its class, and the tick in which it was queued
(R398). -/
structure TxFrame where
  bytes : List Byte
  cls   : BitVec 2
  since : Nat
  deriving DecidableEq, Repr

/-- A transmit timestamp (R400). -/
structure TxStamp where
  gen   : Nat
  ticks : Nat
  seqid : Nat
  mtype : Nat
  deriving DecidableEq, Repr

/-- An Ethernet MAC beyond its registers (R396 to R401): received frames that wait for their tunnel,
the transmit queue, the timestamps, the tick PORT_HOLD ends, whether the lower rate is being tried and
since when, and the tick of the last frame sent. -/
structure Mac where
  rxq    : List TunFrame
  txq    : List TxFrame
  stamps : List TxStamp
  hold   : Option Nat
  lower  : Bool
  tryAt  : Nat
  sentAt : Nat
  deriving DecidableEq, Repr

def Mac.reset : Mac := .mk [] [] [] none false 0 0

/-- The bridge, the tunnels and the MACs beyond their registers (chapter 12). -/
structure Brg where
  /-- Functions that are enabled with Bus Master Enable set: bit 0 the PF, bit n VF n. -/
  enabled : Nat
  /-- MSI-X vectors that the host has masked (function * 32 + vector, R469). -/
  masked  : List Nat
  /-- Outbound reads, the cells that have not gone to CP16, the tags, and the next request number. -/
  reads   : List OutRead
  outQ    : List OutCell
  tags    : Tab TagUse
  nextReq : Nat
  /-- Reads of host memory in progress, READ cells that wait for one with their windows, and the next
  number. -/
  host    : List HostRead
  inNp    : List (Nat × Cell)
  nextId  : Nat
  /-- Frames of MOVEs that wait to be sent; FSEQ of the next frame by tunnel (R388, R389). -/
  moveQ   : List TunFrame
  fseq    : Tab Nat
  /-- Reassembly buffers in use, in order of arrival, complete ones included (R391). -/
  reasm   : List Reasm
  /-- The next slot of each tunnel's receive ring (R393). -/
  slot    : Tab Nat
  macs    : Tab Mac
  deriving DecidableEq, Repr

def Brg.reset : Brg := .mk 0xFFFF [] [] [] [] 0 [] [] 0 [] [] [] [] []

/-- A vote group's definition (R422). -/
structure VoteGroup where
  src0 : Nat
  src1 : Nat
  src2 : Nat
  cfg  : Nat
  deriving DecidableEq, Repr

/-- A copy held in a vote slot: its VSEQ, CLAIM, INSTANT and the data words by position (R424). -/
structure VoteCopy where
  vseq    : Nat
  claim   : Nat
  instant : Nat
  words   : Tab Word
  cells   : List Nat
  deriving DecidableEq, Repr

/-- A vote slot: its group and the latest copy of each source (R424). -/
structure VoteSlot where
  group : Nat
  c0    : Option VoteCopy
  c1    : Option VoteCopy
  c2    : Option VoteCopy
  deriving DecidableEq, Repr

/-- A mirror pass being received (R419). -/
structure MirrorRx where
  op    : Nat
  ch    : Nat
  entry : Entry
  next  : Nat
  words : List Word
  wide  : Bool
  deriving DecidableEq, Repr

/-- Redundancy beyond its registers (chapter 13). -/
structure Red where
  /-- A twin heartbeat counted as Run reached the hub in this / the previous basic cycle; basic
  cycles spent in LISTEN (R406, R407). -/
  runNow    : Bool
  runPrev   : Bool
  listen    : Nat
  /-- Transitions due at the next boundary (R407): step back, swap. -/
  stepBack  : Bool
  swap      : Bool
  /-- RETURNING: boundaries since its entry, that of the entry counted, boundaries since the first
  reverse-mirror cell, a round complete (R415), the round of the last mirror cell, and whether all of it
  arrived after the entry and without a gap. -/
  matrices  : Nat
  revSeen   : Option Nat
  roundOk   : Bool
  rxRound   : Option Nat
  rxWhole   : Bool
  /-- The transmit walk: next channel, round number, and the cells ready to go, oldest first. -/
  walk      : Option Nat
  round     : Nat
  txCells   : List Cell
  /-- Receive pass in progress, and the channel of a discarded pass whose cells still come (R419). -/
  rx        : Option MirrorRx
  skip      : Option Nat
  /-- The shadow raises no CHN_OUTCLAIMED during this matrix (R416). -/
  quiet     : Bool
  /-- Vote groups by number, the voter's slots, the copy last dropped for want of one by group, source
  and VSEQ, copies ready to go and the copy number (R422-4). -/
  groups    : Tab VoteGroup
  slots     : List VoteSlot
  dropped   : Option (Nat × Nat × Nat)
  voteCells : List Cell
  vseq      : Nat
  deriving DecidableEq, Repr

def VoteGroup.none : VoteGroup := .mk 0 0 0 0x40
def Red.reset : Red :=
  { runNow := false, runPrev := false, listen := 0, stepBack := false, swap := false,
    matrices := 0, revSeen := none, roundOk := false, rxRound := none, rxWhole := false,
    walk := none, round := 0, txCells := [], rx := none, skip := none, quiet := false, groups := [],
    slots := [], dropped := none, voteCells := [], vseq := 0 }

/-- A word of a program store that a write has replaced: its address, the tick of the write, and what a fetch
met there before: the word, an uncorrectable error, a correctable one (R187, R190). -/
structure OldWord where
  addr : Nat
  at_  : Nat
  word : Word
  ue   : Bool
  weak : Bool
  deriving DecidableEq, Repr

/-- The state of the hub. -/
structure State where
  /-- The commands that wait, first in, first out. -/
  pending : List Instr
  /-- Ticks of the core clock since power-on (R7). -/
  now : Nat
  /-- How many free values the run has drawn: the model's own counter, not the spec's. -/
  free : Nat
  /-- Every register field, by `Field.key`; an unlisted field holds its reset value (R13). -/
  regs : Tab Nat
  /-- `MGT_MODE` (R425, R474). -/
  kpMode : KpReg
  /-- `MGT_NODE` (R425). -/
  kpNode : KpReg
  /-- `MGT_CLAIM` (R425). -/
  kpClaim : KpReg
  /-- `MGT_GSLOT` (R425). -/
  kpGslot : KpReg
  /-- `TBL_HOME` (R425, R49). -/
  kpHome : KpReg
  /-- What the hub has emitted, newest first. -/
  out : List Out
  /-- Channel table, cache and table port (chapter 02). -/
  tbl : Tbl
  /-- The phase domains (chapter 03). -/
  ph : Tab Ph
  /-- The ephemeris and the sequencer (chapter 04). -/
  seq : Seq
  /-- Lanes 0 to 7 and tenon t of bay b at 8 + 5b + t (chapter 05). -/
  eng : Tab Eng
  /-- The sequencer program store (R139). -/
  seqStore : Tab Word
  /-- Words of it that hold an uncorrectable error. -/
  seqUe : List Nat
  /-- Words of it that hold a correctable error (R190). -/
  seqWeak : List Nat
  /-- The words that the writes of the last tick with one have replaced (R187). -/
  seqPast : List OldWord
  /-- The tenon program stores by window word (R25). -/
  tenStore : Tab Word
  /-- Words of them that hold an uncorrectable error. -/
  tenUe : List Nat
  /-- Words of them that hold a correctable error (R190). -/
  tenWeak : List Nat
  /-- The words that the writes of the last tick with one have replaced (R187). -/
  tenPast : List OldWord
  /-- The bays (chapter 06). -/
  bay : Tab Bay
  /-- The chain ports (chapter 07). -/
  chp : Tab Chp
  /-- The heads that are powered (R253 to R256). -/
  heads : Tab (Option Head)
  /-- The message-bus controllers (chapter 08). -/
  mb : Tab Mb
  /-- The feeds (chapter 14). -/
  feeds : Tab Feed
  /-- The governor, the accumulation period and the supply supervisor (chapter 14). -/
  sup : Sup
  /-- Fault collection (chapter 15). -/
  flt : Flt
  /-- Modes, start-up, spares, firmware (chapter 16). -/
  mgt : Mgt
  /-- Cycle matrix, ring time, synchronisation (chapter 11). -/
  cyc : Cyc
  /-- Switch core (chapter 10). -/
  xbar : Xbar
  /-- Twin hubs, votes (chapter 13). -/
  red : Red
  /-- The ring ports (chapter 09). -/
  ring : Tab RPort
  /-- Host bridge, tunnels and Ethernet MACs (chapter 12). -/
  brg : Brg
  deriving DecidableEq, Repr

/-- The hub right after a reset, before the ROM boots an image: every register at its Reset column
(R13, R523), nothing queued, nothing stored.  Values the spec leaves open are in the log. -/
def State.reset : State :=
  { pending := [],
    now := 0,
    free := 0,
    regs := [],
    kpMode := KpReg.of 1,
    kpNode := KpReg.of 0,
    kpClaim := KpReg.of 0,
    kpGslot := KpReg.of 0,
    kpHome := KpReg.of 0,
    out := [],
    tbl := Tbl.reset,
    ph := [],
    seq := Seq.reset,
    eng := [],
    seqStore := [],
    seqUe := [],
    seqWeak := [],
    seqPast := [],
    tenStore := [],
    tenUe := [],
    tenWeak := [],
    tenPast := [],
    bay := [],
    chp := [],
    heads := [],
    mb := [],
    feeds := [],
    sup := Sup.reset,
    flt := Flt.reset,
    mgt := Mgt.reset,
    cyc := Cyc.reset,
    xbar := Xbar.reset,
    red := Red.reset,
    ring := [],
    brg := Brg.reset }

end Sys2Proof.Machine
end

