-- ==== Sys2Proof/Machine/Ops.lean ====
section
/-! DEFINITION. The operations every chapter shares: register fields, the king-post registers, the
clock and ring time, reports and level causes, cells sent by a block, the two CRCs. -/

namespace Sys2Proof.Machine

/-- What a meaning answers. -/
abbrev Result := Host.Outcome State Fault Refusal

/-! ### Register fields -/

/-- The value of a register field. -/
def State.get (s : State) (f : Field) : Nat := Tab.get f.rst s.regs f.key

/-- Write a register field, cut to its width. -/
def State.set (s : State) (f : Field) (v : Nat) : State :=
  { s with regs := Tab.put f.rst s.regs f.key (v % 2 ^ f.width) }

/-- Whether a field is not zero. -/
def State.on (s : State) (f : Field) : Bool := s.get f != 0

/-- Write a one-bit field. -/
def State.setB (s : State) (f : Field) (b : Bool) : State := s.set f b.toNat

/-- Bit `i` of a field. -/
def State.bit (s : State) (f : Field) (i : Nat) : Bool := (s.get f).testBit i

/-- Write bit `i` of a field. -/
def State.setBit (s : State) (f : Field) (i : Nat) (b : Bool) : State :=
  let v := s.get f
  s.set f (if v.testBit i = b then v else if b then v + 2 ^ i else v - 2 ^ i)

/-- Count `n` more events in a saturating counter. -/
def State.addSat (s : State) (f : Field) (n : Nat) : State :=
  s.set f (min (s.get f + n) (2 ^ f.width - 1))

/-- Count one event in a saturating counter. -/
def State.inc (s : State) (f : Field) : State := s.addSat f 1

/-- The value of a field read as a signed number. -/
def State.getInt (s : State) (f : Field) : Int := (BitVec.ofNat f.width (s.get f)).toInt

/-- Write a signed number to a field, modulo its width. -/
def State.setInt (s : State) (f : Field) (v : Int) : State :=
  s.set f (v.emod (2 ^ f.width : Nat)).toNat

/-- Return every one of the fields to its reset value (R13). -/
def State.resetFields (s : State) (fs : List Field) : State :=
  fs.foldl (fun s f => s.set f f.rst) s

/-- Apply `f` for each number below `n`, in ascending order. -/
def State.each (s : State) (n : Nat) (f : Nat → State → State) : State :=
  (List.range n).foldl (fun s i => f i s) s

/-! ### Words and bytes -/

/-- Bits [hi:lo] of a number. -/
def bits (v hi lo : Nat) : Nat := v / 2 ^ lo % 2 ^ (hi + 1 - lo)

/-- Bits [hi:lo] of a word. -/
def wbits (v : Word) (hi lo : Nat) : Nat := bits v.toNat hi lo

/-- The word of a number. -/
def word (n : Nat) : Word := BitVec.ofNat 48 n

/-- Word `i` of a payload; 0 beyond its end (R40). -/
def wordAt (ws : List Word) (i : Nat) : Nat := (ws.getD i 0).toNat

/-- A payload of twenty words (R40). -/
def pad20 (ws : List Word) : List Word := (ws ++ List.replicate 20 0).take 20

/-- Lay fields out in a word: (value, width) from the highest field down. -/
def pack (fs : List (Nat × Nat)) : Nat :=
  fs.foldl (fun acc f => acc * 2 ^ f.2 + f.1 % 2 ^ f.2) 0

/-- The big-endian bytes of a number, `n` of them (R6). -/
def toBytes (n v : Nat) : List Byte :=
  (List.range n).map (fun i => BitVec.ofNat 8 (v / 2 ^ (8 * (n - 1 - i))))

/-- The number that big-endian bytes spell (R6). -/
def ofBytes (bs : List Byte) : Nat := bs.foldl (fun a b => a * 256 + b.toNat) 0

/-- Six bytes a word, most significant first (R38). -/
def wordBytes (ws : List Word) : List Byte := ws.flatMap (fun w => toBytes 6 w.toNat)

/-- Whether `x` lies in [a, b). -/
def inSpan (x a b : Nat) : Bool := decide (a ≤ x) && decide (x < b)

/-- The ceiling of a / b. -/
def ceilDiv (a b : Nat) : Nat := (a + b - 1) / b

/-- The distance x − y of two values of an n-bit counter under half-range comparison. -/
def halfRange (n x y : Nat) : Int := (BitVec.ofNat n x - BitVec.ofNat n y).toInt

/-- The least element of a list by a key, the first of equals. -/
def minBy {α : Type} (key : α → Nat) : List α → Option α
  | [] => none
  | a :: rest =>
    match minBy key rest with
    | none => some a
    | some b => if key b < key a then some b else some a

/-- One step of the CRC-32 of R293: the next message bit, most significant first. -/
def crc32Bit (crc : BitVec 32) (bit : Bool) : BitVec 32 :=
  let x := crc <<< 1
  if crc.getLsbD 31 != bit then x ^^^ 0x04C11DB7#32 else x

/-- The CRC-32 of R293. -/
def crc32 (bs : List Byte) : BitVec 32 :=
  bs.foldl (fun crc b => (List.range 8).foldl (fun c i => crc32Bit c (b.getLsbD (7 - i))) crc)
    0xFFFFFFFF#32 ^^^ 0xFFFFFFFF#32

/-- One step of the CRC-16 of R241. -/
def crc16Bit (crc : BitVec 16) (bit : Bool) : BitVec 16 :=
  let x := crc <<< 1
  if crc.getLsbD 15 != bit then x ^^^ 0x1021#16 else x

/-- The CRC-16 of R241 over a bit stream. -/
def crc16 (bs : List Bool) : BitVec 16 := bs.foldl crc16Bit 0xFFFF#16

/-! ### King-post registers -/

/-- How many of a copy's stored bits are flipped. -/
def KpCopy.errors (c : KpCopy) : Nat :=
  (List.range 55).foldl (fun n i => n + (c.flips.getLsbD i).toNat) 0

/-- What a copy reads as: its value where the code holds or corrects it, `none` where it is
uncorrectable (R427). -/
def KpCopy.read (c : KpCopy) : Option Word :=
  match c.errors with
  | 0 | 1 => some c.data
  | 2 => none
  | _ => Config.kpCopyRead c.data c.flips

/-- The value on which two intact copies agree (R427). -/
def KpReg.agreed (r : KpReg) : Option Word :=
  match r.a.read, r.b.read, r.c.read with
  | some x, some y, z => if x = y then some x else
      match z with
      | some w => if w = x ∨ w = y then some w else none
      | none => none
  | some x, none, some z => if x = z then some x else none
  | none, some y, some z => if y = z then some y else none
  | _, _, _ => none

/-- What a use of a king-post register takes (R427). -/
def KpReg.value (r : KpReg) : Nat := (if r.stuck then r.last else r.agreed.getD r.last).toNat

/-- The king-post registers by index (R425). -/
def State.kp (s : State) (i : Nat) : KpReg :=
  match i with
  | 0 => s.kpMode
  | 1 => s.kpNode
  | 2 => s.kpClaim
  | 3 => s.kpGslot
  | _ => s.kpHome

/-- Replace the copies of a king-post register. -/
def State.setKp (s : State) (i : Nat) (r : KpReg) : State :=
  match i with
  | 0 => { s with kpMode := r }
  | 1 => { s with kpNode := r }
  | 2 => { s with kpClaim := r }
  | 3 => { s with kpGslot := r }
  | _ => { s with kpHome := r }

/-- The mode the hub is in (R474). -/
def State.mode (s : State) : Nat := s.kpMode.value % 8

/-- The hub's node number (R19). -/
def State.node (s : State) : Nat := s.kpNode.value % 2 ^ 16

/-- `MGT_CLAIM.CLAIM`. -/
def State.claim (s : State) : Nat := s.kpClaim.value % 2 ^ 8

/-- The guardian slot base (R426). -/
def State.gslot (s : State) : Nat :=
  if s.kpGslot.value % 2 ^ 16 = 0 then s.node else s.kpGslot.value % 2 ^ 16

/-- Whether RWL fields are closed to a write now: the lock is set, and not in this very clock
(R522). -/
def State.kpLocked (s : State) : Bool := s.on MGT_STAT.KPLOCK && s.mgt.lockAt != some s.now

/-- The modes of R474. -/
def mRecovery : Nat := 0
def mCommission : Nat := 1
def mJoin : Nat := 2
def mRun : Nat := 4
def mShadow : Nat := 5
def mHold : Nat := 6

/-- The effective claim (R409): `MGT_CLAIM`, or the default of the role. -/
def State.eclaim (s : State) : Nat :=
  if s.claim = 0 then (if s.get RED_CFG.ROLE = 2 then 100 else 200) else s.claim

/-! ### The clock, the cycle position and ring time -/

/-- The basic cycle BC, ticks (R336). -/
def State.bc (s : State) : Nat := s.get CYC_CFG.BC

/-- The matrix length M, basic cycles (R336). -/
def State.matrixLen (s : State) : Nat := 2 ^ s.get CYC_CFG.MEXP

/-- MSEQ, and the number of the running basic cycle counted from MSEQ 0. -/
def State.mseq (s : State) : Nat := s.get CYC_STAT.MSEQ
def State.cycKey (s : State) : Nat := s.mseq * 64 + s.get CYC_STAT.CYC

/-- GEN and TICKS of ring time (R362). -/
def State.gen (s : State) : Nat := s.get CYC_GEN.GEN
def State.ticks (s : State) : Nat := s.get CYC_TICKS.TICKS

/-- dt(x, y): the signed distance x − y of two values of TICKS (R134). -/
def dt (x y : Nat) : Int := halfRange 48 x y

/-- Move the cycle position `n` ticks on: whole basic cycles carry into CYC, and whole matrices
into MSEQ (R335). -/
def State.movePosition (s : State) (n : Nat) : State :=
  let off := s.cyc.offset + n
  let k := s.get CYC_STAT.CYC + off / s.bc
  let s := { s with cyc := { s.cyc with offset := off % s.bc } }
  let s := s.set CYC_STAT.MSEQ (s.get CYC_STAT.MSEQ + k / s.matrixLen)
  s.set CYC_STAT.CYC (k % s.matrixLen)

/-- The part of a slew of `total` that `n` of the `win` ticks left to spread it take (R358, R364). -/
def slewPart (total : Int) (win n : Nat) : Int :=
  if win ≤ n then total else (total * (n : Int)).tdiv (win : Int)

/-- Let `n` ticks of the core clock pass: the slew of R358 moves the cycle position and ring time
together, the slew of R364 moves ring time alone, both spread evenly over their window. -/
def State.advance (s : State) (n : Nat) : State :=
  if n = 0 then s else
  let a := slewPart s.cyc.slew s.cyc.slewWin n
  let whole := (s.cyc.frac + a).tdiv 256
  let r := slewPart s.cyc.rtSlew s.cyc.rtWin n
  let step := ((n : Int) + whole).toNat
  let s := { s with
    now := s.now + n
    cyc := { s.cyc with
      slew := s.cyc.slew - a, slewWin := s.cyc.slewWin - n, frac := s.cyc.frac + a - 256 * whole
      rtSlew := s.cyc.rtSlew - r, rtWin := s.cyc.rtWin - n } }
  let s := s.setInt CYC_STEERST.REMAIN (s.getInt CYC_STEERST.REMAIN - r)
  let s := s.movePosition step
  s.setInt CYC_TICKS.TICKS ((s.ticks : Int) + (n : Int) + whole + r)

/-- Let the clock run to tick `t`; nothing where it is past already. -/
def State.waitUntil (s : State) (t : Nat) : State := s.advance (t - s.now)

/-- Let the clock run until TICKS reaches `t`; nothing where it is past already. -/
def State.waitTicks (s : State) (t : Nat) : State := s.advance (dt t s.ticks).toNat

/-! ### Reports and level causes -/

/-- Report an occurrence: the report goes to the collector with the ring time of this tick (R457). -/
def State.raise (s : State) (k : Kind) (addr : Nat) : State :=
  { s with flt := { s.flt with reports := s.flt.reports ++ [.mk s.gen s.ticks k addr] } }

/-- Whether an instance of a level kind is in cause (R459). -/
def State.inCause (s : State) (k : Kind) (addr : Nat) : Bool := s.flt.causes.contains (Cause.mk k addr)

/-- An instance comes into cause: a new occurrence is reported, one that holds is not (R459). -/
def State.raiseLevel (s : State) (k : Kind) (addr : Nat) : State :=
  if s.inCause k addr then s
  else ({ s with flt := { s.flt with causes := s.flt.causes ++ [Cause.mk k addr] } }).raise k addr

/-- An instance leaves its cause (R459). -/
def State.endLevel (s : State) (k : Kind) (addr : Nat) : State :=
  { s with flt := { s.flt with
    causes := s.flt.causes.filter (fun c => !(c.kind = k && c.addr = addr)) } }

/-- Bring an instance of a level kind into cause or out of it. -/
def State.level (s : State) (k : Kind) (addr : Nat) (holds : Bool) : State :=
  if holds then s.raiseLevel k addr else s.endLevel k addr

/-- A write sets all three copies of a king-post register; copies that now agree end a KEYSTONE
cause of that register, whose address holds 0b11 in [5:4] (R427, R430, R477). -/
def State.kpWrite (s : State) (i : Nat) (v : Word) : State :=
  (s.setKp i (KpReg.of v)).endLevel Kind.KEYSTONE (0x30 + i)

/-! ### What leaves the hub or a block -/

/-- The hub emits something at its balls. -/
def State.emit (s : State) (o : Out) : State := { s with out := o :: s.out }

/-- A block sends a cell on its core port for tenant `ten`: the cell waits there to be admitted
(R320, R326). -/
def State.sendFor (s : State) (cp ten : Nat) (c : Cell) : State :=
  { s with xbar := { s.xbar with waiting := Tab.modify [] s.xbar.waiting cp (· ++ [.mk c ten]) } }

/-- A block sends a cell of the tenant its header names. -/
def State.send (s : State) (cp : Nat) (c : Cell) : State := s.sendFor cp c.ten.toNat c

/-- The kinds of R313. -/
def kWRITE : BitVec 3 := 0
def kREAD : BitVec 3 := 1
def kRESP : BitVec 3 := 2
def kBWRITE : BitVec 3 := 3
def kCTRL : BitVec 3 := 4
def kTUNNEL : BitVec 3 := 5
def kORPHAN : BitVec 3 := 6
def kLINK : BitVec 3 := 7

/-- The classes of R314. -/
def cTT : BitVec 2 := 0
def cCTL : BitVec 2 := 1
def cPRIO : BitVec 2 := 2
def cBULK : BitVec 2 := 3

/-- A CTRL cell of this hub: class `cls`, all twenty payload words (R313). -/
def State.ctrl (s : State) (cls : BitVec 2) (dest : Nat) (ws : List Word) : Cell :=
  { node := BitVec.ofNat 16 dest, f1 := BitVec.ofNat 16 s.node, f2 := 0, kind := kCTRL, cls := cls,
    wrap := 0, ten := 0, nm1 := 19, words := pad20 ws }

/-- What a quota write of this very tick has replaced: it applies from the next one (R327). -/
def State.oldQuota (s : State) (n : Nat) : Option OldQuota :=
  (Tab.get none s.xbar.oldQuota n).filter (fun q => q.at_ == s.now)

/-- The class of a tenant's cells, `XBAR_TQUOTAn.CLASS` (R314). -/
def State.tenClass (s : State) (n : Nat) : BitVec 2 :=
  BitVec.ofNat 2 (match s.oldQuota n with | some q => q.cls | none => s.get (XBAR_TQUOTA.CLASS n))

/-- Whether a tenant's quota lets one more cell in (R326, R327). -/
def State.inQuota (s : State) (n : Nat) : Bool :=
  let a := s.get (XBAR_TSTAT.ADMITTED n)
  match s.oldQuota n with
  | some q => decide (a < q.cells) && !q.wasOver
  | none => decide (a < s.get (XBAR_TQUOTA.CELLS n)) && !s.on (XBAR_TSTAT.OVER n)

/-- Draw a free value's number: the model's own counter steps, so that each draw is a new one. -/
def State.draw (s : State) : State := { s with free := s.free + 1 }

/-- The tick a count of microseconds or milliseconds lasts, rounded up (R7). -/
def usTicks (us : Nat) : Nat := ceilDiv (us * 3125) 2
def msTicks (ms : Nat) : Nat := ms * 1562500

end Sys2Proof.Machine
end

