-- ==== Sys2Proof/Machine/Spares.lean ====
section
/-! DEFINITION. Chapter 16, the spare rows of the SRAM banks: repair requests and wear (R487). -/

namespace Sys2Proof.Machine

/-- Spare rows of a bank in use. -/
def State.rowsUsed (s : State) (b : Nat) : List Nat :=
  (s.mgt.repairs.filter (fun x => x.bank == b)).map (fun x => x.spare)

/-- Spare rows free in bank `b`: of four (R487). -/
def State.rowsFree (s : State) (b : Nat) : Nat := 4 - (s.rowsUsed b).length

/-- A request to repair a row. -/
def State.requestRow (s : State) (b row : Nat) : State :=
  if s.get SPR_ROWREP.STATE ≠ 0 || 55 < b || s.rowsFree b = 0 then
    s.raise Kind.NO_SPARE_ROW (b * 2 ^ 22 + row)
  else
    let spare := ((List.range 4).find? (fun i => !(s.rowsUsed b).contains i)).getD 0
    ({ s with mgt := { s.mgt with repairing := some (.mk b spare row) } }).set SPR_ROWREP.STATE 1

/-- Whether `total` errors of bank `b` in this matrix are wear that it has not shown yet (R487). -/
def State.newWear (s : State) (b total : Nat) : Bool :=
  decide (max 1 (s.get SPR_CTL.CELIM) ≤ total) && !s.mgt.bankWorn.contains b
def State.noteWear (s : State) (b : Nat) : State := { s with mgt := { s.mgt with bankWorn := b :: s.mgt.bankWorn } }

/-- `n` correctable errors in SRAM bank `b`: `SPR_CTL.CELIM` of them within one matrix are wear, and under
AUTO ask for the repair of the last one's row (R487). -/
def State.sramErrors (s : State) (b n : Nat) : State :=
  if n = 0 then s
  else
    let row := (Config.errorRow s.free).toNat
    let before := Tab.get 0 s.mgt.bankMatrix b
    let s := { s with mgt := { s.mgt with
      bankCe := Tab.put 0 s.mgt.bankCe b (min 0xFFFF (Tab.get 0 s.mgt.bankCe b + n))
      bankRow := Tab.put 0 s.mgt.bankRow b row
      bankMatrix := Tab.put 0 s.mgt.bankMatrix b (before + n) } }.draw
    if s.newWear b (before + n) then
      let s := (s.noteWear b).raise Kind.SRAM_WEAR (b * 2 ^ 22 + row)
      if s.on SPR_CTL.AUTO then s.requestRow b row else s
    else s

/-- `n` correctable errors of the DDR5 home: counted, and wear where `SPR_CTL.CELIM` of them fall within one
matrix (R51, R487).  The matrix's count stands beside those of the 56 SRAM banks. -/
def State.ddrErrors (s : State) (n : Nat) : State :=
  if n = 0 then s
  else
    let before := Tab.get 0 s.mgt.bankMatrix 56
    let s := { s with mgt := { s.mgt with bankMatrix := Tab.put 0 s.mgt.bankMatrix 56 (before + n) } }
    let s := s.addSat SPR_DDRCE.CE n
    if s.newWear 56 (before + n) then (s.noteWear 56).raise Kind.DDR_WEAR 0 else s

end Sys2Proof.Machine
end

