-- ==== Sys2Proof/Machine/ChainPins.lean ====
section
/-! DEFINITION. Chapter 07, what the pins of a chain port show: the parts of a frame, their CRCs, and the
levels of CLK, LAT and D0 to D3 at each bay clock (R239 to R243). -/

namespace Sys2Proof.Machine

/-- The record of chain port `p`. -/
def State.port (s : State) (p : Nat) : Chp := Tab.get Chp.reset s.chp p

/-- Replace the record of chain port `p`. -/
def State.setPort (s : State) (p : Nat) (r : Chp) : State :=
  { s with chp := Tab.put Chp.reset s.chp p r }

/-- The port states of `CHPk_STAT.STATE`. -/
def cpDISABLED : Nat := 0
def cpIDLE : Nat := 1
def cpFRAME : Nat := 2
def cpABORTING : Nat := 3

/-- The port is enabled and passed the check of R194. -/
def State.chOn (s : State) (p : Nat) : Bool := s.get (CHP_STAT.STATE p) != cpDISABLED

/-- P, D and the bay clocks of a chain clock (R234, R239). -/
def State.chPoints (s : State) (p : Nat) : Nat := s.get (CHP_CFG.PM1 p) + 1
def State.chD (s : State) (p : Nat) : Nat := ceilDiv (s.chPoints p) 4
def State.chDiv (s : State) (p : Nat) : Nat := s.get (CHP_CFG.DIV p)

/-- FTIME of R242, ticks. -/
def State.ftime (s : State) (p : Nat) : Nat :=
  ceilDiv ((40 + s.chD p + s.get (CHP_TIMING.LSU p)) * s.chDiv p * 125) 32

/-- The preamble word (R239). -/
def preamble : Word := 0xA5C35A3C96F0

/-- The header word of a frame (R240). -/
def frameHeader (isNew : Bool) (seqno claim pm1 : Nat) : Word :=
  word (claim % 256 * 2 ^ 40 + seqno % 256 * 2 ^ 32 + (if isNew then 1 else 2) * 2 ^ 28 + pm1 % 2 ^ 14)

/-- The CRC-16 bits of an image: its nibbles in the order they stream, bit 3 first (R241). -/
def imageBits (image d : Nat) : List Bool :=
  (List.range d).flatMap (fun c => (List.range 4).map (fun j => image.testBit (4 * c + 3 - j)))

/-- The image CRC (R241). -/
def imageCrc (image d : Nat) : BitVec 16 := crc16 (imageBits image d)

/-- The frame CRC: the header word, then the point data (R241). -/
def frameCrc (header : Word) (image d : Nat) : BitVec 16 :=
  crc16 ((List.range 48).map (fun i => header.getLsbD (47 - i)) ++ imageBits image d)

/-- Nibble `c` of a value of `n` nibbles, most significant first (R239). -/
def nibble (v n c : Nat) : Nat := v / 16 ^ (n - 1 - c) % 16

/-- What D0 to D3 carry in clock `c` of a frame (R239). -/
def frameNibble (header : Word) (image d c : Nat) : Nat :=
  if c < 12 then nibble preamble.toNat 12 c
  else if c < 24 then nibble header.toNat 12 (c - 12)
  else if c < 24 + d then image / 16 ^ (c - 24) % 16
  else if c < 28 + d then nibble (frameCrc header image d).toNat 4 (c - 24 - d)
  else 0

/-- The image that frames of port `p` carry: points at or above P are sent as 0 (R239). -/
def State.sentImage (s : State) (p : Nat) : Nat := (s.port p).current % 2 ^ s.chPoints p

/-- The header word of a frame of port `p`. -/
def State.headerOf (s : State) (p : Nat) (f : ChFrame) : Word :=
  frameHeader f.isNew f.seqno f.claim (s.get (CHP_CFG.PM1 p))

/-- CLK and D0 to D3 of a frame `x` bay clocks after its start: CLK is high in the first half of a chain clock,
and D changes on its falling edge (R239). -/
def State.frameLevels (s : State) (p : Nat) (f : ChFrame) (x : Nat) : Bool × Nat :=
  let div := s.chDiv p
  (decide (x / div < 40 + s.chD p) && decide (x % div < div / 2),
    frameNibble (s.headerOf p f) (s.sentImage p) (s.chD p) ((x + div / 2) / div))

/-- The levels of CLK, LAT and D0 to D3 of port `p` at bay clock `c`, as bits 0 to 5 (R194): at rest where no
frame goes out; LAT stays high for LATW bay clocks (R243). -/
def State.chainLevels (s : State) (p c : Nat) : Nat :=
  let r := s.port p
  let lat := decide (c < r.latFall)
  let v := match r.frame with
    | none => (false, 0)
    | some f => if f.sent && decide (f.startAt ≤ c) then s.frameLevels p f (c - f.startAt) else (false, 0)
  v.1.toNat + 2 * lat.toNat + 4 * v.2

end Sys2Proof.Machine
end

