-- ==== Sys2Proof/Machine/InsnWord.lean ====
section
/-! DEFINITION. The fields of a Detaica instruction word (R160, R161), and what one step of a shift does to
SR (R179). -/

namespace Sys2Proof.Machine

/-- The fields of an instruction word (R160, R161). -/
def opcode (w : Nat) : Nat := bits w 47 40
def sideField (w : Nat) : Nat := bits w 39 32
def fRD (w : Nat) : Nat := bits w 31 28
def fRA (w : Nat) : Nat := bits w 27 24
def fRB (w : Nat) : Nat := bits w 23 20
def fIMM (w : Nat) : Nat := bits w 23 0
def fLSB (w : Nat) : Nat := bits w 11 6
def fWM1 (w : Nat) : Nat := bits w 5 0
def fTARGET (w : Nat) : Nat := bits w 13 0

/-- The group width of a shift, pins (R161). -/
def shWidth (w : Nat) : Nat := 2 ^ bits w 31 30

/-- The steps of a shift. -/
def shSteps (w : Nat) : Nat := bits w 29 24 + 1

/-- A shift is a SHIFTI. -/
def shIn (w : Nat) : Bool := opcode w == 0x81

/-- A SHIFTI that pushes SR at its end (R179). -/
def shPushes (w : Nat) : Bool := shIn w && w.testBit 17

/-- The value that the next step of a SHIFTO of width `wd` drives (R179): SR has moved on with the steps before
it. -/
def shiftStep (lsbf : Bool) (wd : Nat) (sr : Word) : Nat :=
  if lsbf then sr.toNat % 2 ^ wd else sr.toNat / 2 ^ (48 - wd)

/-- SR after one step of SHIFTO (R179). -/
def shiftOut (lsbf : Bool) (wd : Nat) (sr : Word) : Word := if lsbf then sr >>> wd else sr <<< wd

/-- SR after one step of SHIFTI that has sampled `v` (R179). -/
def shiftIn (lsbf : Bool) (wd v : Nat) (sr : Word) : Word :=
  if lsbf then (sr >>> wd) ||| (word v <<< (48 - wd)) else (sr <<< wd) ||| word v

end Sys2Proof.Machine
end

