-- ==== Sys2Proof/Machine/Table.lean ====
section
/-! DEFINITION. Chapter 02: the channel table and its home, the channel cache, the doorbells that
edit entries, and the table port with its eight requesters. -/

namespace Sys2Proof.Machine

/-- Something waits for a way of the channel cache (R59). -/
def State.block (s : State) (x : Blocked) : State := { s with tbl := { s.tbl with blocked := s.tbl.blocked ++ [x] } }

/-! ### The table home (R49 to R55) -/

/-- `TBL_HOME` SEL, SIZE in bytes, and HBASE's host address (R49). -/
def State.homeSel (s : State) : Nat := bits s.kpHome.value 1 0
def State.homeSize (s : State) : Nat := 0x400000 * 2 ^ bits s.kpHome.value 5 2
def State.homeBase (s : State) : Nat := bits s.kpHome.value 47 6 * 2 ^ 22

/-- The selected home is reachable (R55). -/
def State.homeReachable (s : State) : Bool :=
  match s.homeSel with
  | 1 => s.tbl.ddr0 && s.tbl.ddr1
  | 2 => s.on BRG_STAT.LINKUP && s.brg.enabled.testBit 0
  | _ => false

/-- `TBL_STAT.HOME_UP`. -/
def State.homeUp (s : State) : Bool := s.on TBL_STAT.HOME_UP

/-- A byte of the home (R49, R52). -/
def State.homeByte (s : State) (o : Nat) : Byte :=
  if s.homeSel = 2 then Tab.get 0 s.tbl.host (s.homeBase + o)
  else Tab.get 0 s.tbl.ddr (o % s.tbl.ddrSize)

/-- Write one byte of the home. -/
def State.putHomeByte (s : State) (o : Nat) (b : Byte) : State :=
  if s.homeSel = 2 then
    { s with tbl := { s.tbl with host := Tab.put 0 s.tbl.host (s.homeBase + o) b } }
  else { s with tbl := { s.tbl with ddr := Tab.put 0 s.tbl.ddr (o % s.tbl.ddrSize) b } }

/-- The 8-byte slots of the DDR5 home that the `n` bytes from `o` touch. -/
def State.slotIn (s : State) (o n slot : Nat) : Bool :=
  s.homeSel == 1 && inSpan slot (o % s.tbl.ddrSize / 8) (ceilDiv (o % s.tbl.ddrSize + n) 8)

/-- A read of `n` bytes from `o` meets an uncorrectable error (R53). -/
def State.homeBad (s : State) (o n : Nat) : Bool := s.tbl.badSlots.any (s.slotIn o n)

/-- Count the errors that the hub corrects in a read of `n` bytes from `o` (R51). -/
def State.corrected (s : State) (o n : Nat) : State := s.ddrErrors (s.tbl.weakSlots.filter (s.slotIn o n)).length

/-- A write of `n` bytes from `o` leaves no error in their slots. -/
def State.freshSlots (s : State) (o n : Nat) : State :=
  { s with tbl := { s.tbl with
    badSlots := s.tbl.badSlots.filter (fun x => !s.slotIn o n x)
    weakSlots := s.tbl.weakSlots.filter (fun x => !s.slotIn o n x) } }

/-- `n` bytes of the home from `o`. -/
def State.homeBytes (s : State) (o n : Nat) : List Byte :=
  (List.range n).map (fun i => s.homeByte (o + i))

/-- Write bytes of the home from `o`. -/
def State.putHomeBytes (s : State) (o : Nat) (bs : List Byte) : State :=
  match bs with
  | [] => s
  | b :: rest => (s.putHomeByte o b).putHomeBytes (o + 1) rest

/-- Word `w` of the data at `dp`: slot bytes 2 to 7 (R45). -/
def State.dataWord (s : State) (dp w : Nat) : Word :=
  word (ofBytes (s.homeBytes (64 * dp + 8 * w + 2) 6))

/-- Write word `w` of the data at `dp`; slot bytes 0 and 1 are written as zero (R45). -/
def State.putDataWord (s : State) (dp w : Nat) (v : Word) : State :=
  (s.freshSlots (64 * dp + 8 * w) 8).putHomeBytes (64 * dp + 8 * w) (toBytes 8 v.toNat)

/-- `n` words of the data at `dp` from word `w`. -/
def State.dataWords (s : State) (dp w n : Nat) : List Word :=
  (List.range n).map (fun i => s.dataWord dp (w + i))

/-- Write words of the data at `dp` from word `w`. -/
def State.putDataWords (s : State) (dp w : Nat) (ws : List Word) : State :=
  match ws with
  | [] => s
  | v :: rest => (s.putDataWord dp w v).putDataWords dp (w + 1) rest

/-! ### Entries (R42 to R46) -/

/-- The fields of a 512-bit entry (R43). -/
def Entry.ofRaw (r : Nat) : Entry :=
  { valid := bits r 507 504 == 1, type := bits r 511 508, gen := bits r 503 496
    tenant := bits r 495 492, dclass := bits r 491 488, claim := bits r 487 480
    mirror := r.testBit 479, pin := r.testBit 478, vgroup := bits r 471 464, bay := bits r 463 459
    tenon := bits r 458 456, port := bits r 455 448, index := bits r 447 432
    points := bits r 431 408, dataPtr := bits r 399 366 }

/-- The inbound window that a channel's entry binds. -/
def Entry.iwin (e : Entry) : Option Nat :=
  if e.type = 5 ∧ 0x8000 ≤ e.index ∧ e.index < 0x8040 then some (e.index - 0x8000) else none

/-- The set bits of a 16-bit mask. -/
def popcount (m : Nat) : Nat := (List.range 16).foldl (fun n i => n + (m.testBit i).toNat) 0

/-- The types of R44. -/
def tCHAIN : Nat := 1
def tDISCRETE : Nat := 2
def tSTREAM : Nat := 3
def tMBUS : Nat := 4
def tTUNNEL : Nat := 5
def tFEED : Nat := 6
def tPHASE : Nat := 7
def tCOUNTER : Nat := 8

/-- The channel's extent in words (R24, R44). -/
def Entry.extent (e : Entry) : Nat :=
  match e.type with
  | 1 => ceilDiv e.points 48
  | 2 => 1
  | 3 => e.points
  | 4 => 16
  | 5 => e.points
  | 6 => 16
  | 7 => 8
  | 8 => 1
  | _ => 0

/-- The binding and POINTS of an entry are valid under R44: the named fields hold a value of their
range, the others 0.  A tunnel number is a frame tunnel 0 to 255 or an inbound window 0x8000 to 0x803F
(R387). -/
def Entry.bound (e : Entry) : Bool :=
  match e.type with
  | 1 => e.tenon == 0 && e.index == 0 && decide (e.port < 64) && e.port / 2 == e.bay
      && decide (1 ≤ e.points) && decide (e.points ≤ 16384)
  | 2 => e.tenon == 0 && e.port == 0 && e.index != 0 && e.points == popcount e.index
  | 3 => e.port == 0 && e.index == 0 && decide (e.tenon < 4)
      && decide (1 ≤ e.points) && decide (e.points ≤ 65536)
  | 4 => e.bay == 0 && e.tenon == 0 && decide (e.port < 16) && decide (e.index < 544)
  | 5 => e.bay == 0 && e.tenon == 0 && e.port == 0
      && (decide (e.index < 256) || inSpan e.index 0x8000 0x8040)
      && decide (1 ≤ e.points) && decide (e.points ≤ 65536)
  | 6 => e.tenon == 0 && e.index == 0 && e.port == e.bay
  | 7 => e.bay == 0 && e.tenon == 0 && e.index == 0 && decide (e.port < 4)
  | 8 => e.port == 0 && e.index == 0 && decide (e.tenon < 4)
  | _ => false

/-- An entry is well-formed in a home of `size` bytes (R46). -/
def rawWellFormed (r size : Nat) : Bool :=
  let e := Entry.ofRaw r
  bits r 507 504 == 0 ||
    (bits r 507 504 == 1 && e.bound && decide (65536 ≤ e.dataPtr)
      && decide (64 * e.dataPtr + 8 * e.extent ≤ size)
      && bits r 477 472 == 0 && bits r 407 400 == 0 && bits r 319 0 == 0)

/-- The 512 bits of channel `ch`'s entry in the home (R42). -/
def State.rawEntry (s : State) (ch : Nat) : Nat := ofBytes (s.homeBytes (64 * ch) 64)

/-- What a fetch of channel `ch` brings: the entry, or EMPTY where it fails R46; EMPTY for a window
channel, whose slot is never read (R42), and with no home (R49). -/
def State.fetched (s : State) (ch : Nat) : Entry :=
  let r := s.rawEntry ch
  if 0xFFF0 ≤ ch || s.homeSel = 0 then Entry.empty 0
  else if rawWellFormed r s.homeSize && bits r 507 504 == 1 then Entry.ofRaw r
  else Entry.empty (bits r 503 496)

/-- The report of a fetched entry that fails R46. -/
def State.noteFetched (s : State) (ch : Nat) : State :=
  if 0xFFF0 ≤ ch || s.homeSel = 0 || rawWellFormed (s.rawEntry ch) s.homeSize then s
  else s.raise Kind.TBL_BAD_ENTRY ch

/-- A read of channel `ch`'s entry: the checked entry, or none with a report after an uncorrectable error
(R46, R51, R53); `ue` says that the read returns one. -/
def State.readEntry (s : State) (ch : Nat) (ue : Bool) : State × Option Entry :=
  if ue || s.homeBad (64 * ch) 64 then (s.raise Kind.TBL_ECC_UE ch, none)
  else ((s.corrected (64 * ch) 64).noteFetched ch, some (s.fetched ch))

/-! ### The channel cache (R56 to R62) -/

/-- The SRAM bank that holds a channel's line (R487). -/
def cacheBank (ch : Nat) : Nat := 16 + ch % 256 / 64

/-- The line of a channel. -/
def State.line (s : State) (ch : Nat) : Option Line := s.tbl.lines.find? (fun l => l.ch == ch)

/-- The line that a lookup of a channel sees: lines that have changed in this tick show their previous
contents (R58). -/
def State.seenLine (s : State) (ch : Nat) : Option Line :=
  match s.tbl.past with
  | some (t, ls) => if t = s.now then ls.find? (fun l => l.ch == ch) else s.line ch
  | none => s.line ch

/-- The entry that a lookup of a channel would find, looked at without one. -/
def State.peek (s : State) (ch : Nat) : Entry :=
  match s.seenLine ch with
  | some l => if l.current then l.entry else s.fetched ch
  | none => s.fetched ch

/-- The cache's lines before the present tick, kept when they first change in it (R58). -/
def State.linesBefore (s : State) : Option (Nat × List Line) :=
  match s.tbl.past with
  | some (t, ls) => if t = s.now then some (t, ls) else some (s.now, s.tbl.lines)
  | none => some (s.now, s.tbl.lines)

/-- Replace the cache's lines; `TBL_STAT.PINNED` counts the pinned ones. -/
def State.setLines (s : State) (ls : List Line) : State :=
  ({ s with tbl := { s.tbl with lines := ls, past := s.linesBefore } }).set TBL_STAT.PINNED
    (ls.filter (fun (l : Line) => l.pinned)).length

/-- Invalidate every line, pinned lines included (R50, R55). -/
def State.flushLines (s : State) : State := s.setLines []

/-- Remove the line of a channel. -/
def State.dropLine (s : State) (ch : Nat) : State :=
  s.setLines (s.tbl.lines.filter (fun l => l.ch != ch))

/-- Put a line in the place of its channel's line, or add it. -/
def State.putLine (s : State) (l : Line) : State :=
  s.setLines ((s.tbl.lines.filter (fun x => x.ch != l.ch)) ++ [l])

/-- Whether an operation of the table port is an open operation on a channel: the write of an entry is none
(R56). -/
def Op.onChannel (o : Op) (ch : Nat) : Bool :=
  !o.closed && o.ch == ch && (match o.purpose with | .entry _ => false | _ => true)

/-- The operations open on a channel by number, a mirror transfer being received among them (R56). -/
def State.openOps (s : State) (ch : Nat) : List Nat :=
  (s.tbl.ops.filter (fun o => o.onChannel ch)).map (fun o => o.id)
    ++ (match s.red.rx with | some x => if x.ch = ch then [x.op] else [] | none => [])

/-- The votes that have captured a channel's entry and await their instant (R56). -/
def State.openVotes (s : State) (ch : Nat) : List Nat :=
  (s.seq.acts.filter (fun (a : Act) => !a.waiting && a.e.act == 5
    && (match a.chan with | some c => c.1 == ch | none => false))).map (fun a => a.id)

/-- A line held by an open operation on its channel (R59). -/
def State.lineHeld (s : State) (ch : Nat) : Bool := !(s.openOps ch).isEmpty || !(s.openVotes ch).isEmpty

/-- Make room for channel `ch` in its set of 16 ways: nothing to do where it has a line or a way is
free, else the least recently used line that is neither pinned nor held goes; `none` where every
way is taken (R59). -/
def State.makeRoom (s : State) (ch : Nat) : Option State :=
  let set_ := s.tbl.lines.filter (fun l => l.ch % 256 == ch % 256)
  if (s.line ch).isSome || decide (set_.length < 16) then some s
  else
    match minBy (fun l => l.used) (set_.filter (fun l => !l.pinned && !s.lineHeld l.ch)) with
    | none => none
    | some l => some (s.dropLine l.ch)

/-- Whether the limits of R60 leave room to pin channel `ch`. -/
def State.mayPin (s : State) (ch : Nat) : Bool :=
  let pinned := s.tbl.lines.filter (fun (l : Line) => l.pinned && l.ch != ch)
  decide (pinned.length < 1024) && decide ((pinned.filter (fun l => l.ch % 256 == ch % 256)).length < 12)

/-- Install an entry as the current line of its channel, pinned where it is VALID with PIN = 1 and
a limit allows it (R60, R62). -/
def State.install (s : State) (ch : Nat) (e : Entry) : Option State :=
  match s.makeRoom ch with
  | none => none
  | some s =>
    let wants := e.valid && e.pin
    let pin := wants && s.mayPin ch
    let s := { s with tbl := { s.tbl with uses := s.tbl.uses + 1 } }
    let s := s.putLine (.mk ch e true pin none s.tbl.uses false)
    some (if wants && !pin then s.raise Kind.TBL_PIN_FULL ch else s)

/-- Install as `install` does, once room has been made. -/
def State.installed (s : State) (ch : Nat) (e : Entry) : State := (s.install ch e).getD s

/-- Mark a channel's line stale, so that lookups miss (R66). -/
def State.markStale (s : State) (ch : Nat) : State :=
  s.setLines (s.tbl.lines.map (fun l =>
    if l.ch == ch then { l with current := false, pinned := false, expect := none } else l))

/-- Leave a stale line that becomes current at the first fetch of generation `g` (R66). -/
def State.installExpecting (s : State) (ch g : Nat) : State :=
  match s.makeRoom ch with
  | none => s
  | some s => s.putLine (.mk ch (Entry.empty g) false false (some g) s.tbl.uses false)

/-- The fetch of a miss: EMPTY with nothing installed after an uncorrectable error (R53), EMPTY
while the home is lost (R54), else the checked entry, installed unless the line expects another
generation (R66).  `none` where no way is free (R59). -/
def State.fetchEntry (s : State) (ch : Nat) (ue : Bool) : Option (State × Entry) :=
  if s.homeSel = 0 then some (s, Entry.empty 0)
  else if (s.makeRoom ch).isNone then none
  else if !s.homeUp then some (s.installed ch (Entry.empty 0), Entry.empty 0)
  else
    match s.readEntry ch ue with
    | (s, none) => some (s, Entry.empty 0)
    | (s, some e) =>
      match (s.line ch).bind (fun l => l.expect) with
      | some g => if e.gen = g then some (s.installed ch e, e) else some (s, Entry.empty 0)
      | none => some (s.installed ch e, e)

/-- A lookup that finds no current line: the entry is fetched.  A fetch that has met an uncorrectable
error shows the entry as EMPTY (R53). -/
def State.missLookup (s : State) (ch : Nat) : Option (State × Entry) :=
  let s := s.inc TBL_MISS.COUNT
  if s.tbl.broken.contains ch then
    some ({ s with tbl := { s.tbl with broken := s.tbl.broken.filter (fun c => c != ch) } }, Entry.empty 0)
  else s.fetchEntry ch false

/-- Look a channel up (R56 to R58): a current line hits, anything else is fetched; a window channel has no
entry (R42).  `none` where the lookup has to wait for a way (R59). -/
def State.lookup (s : State) (ch : Nat) : Option (State × Entry) :=
  if 0xFFF0 ≤ ch then some (s, Entry.empty 0)
  else match s.seenLine ch with
  | some l =>
    if l.current then
      let s := if l.weak then s.sramErrors (cacheBank ch) 1 else s
      let s := { s with tbl := { s.tbl with
        uses := s.tbl.uses + 1
        lines := s.tbl.lines.map (fun (x : Line) => if x.ch == ch then { x with used := s.tbl.uses + 1 } else x) } }
      some (s.inc TBL_HIT.COUNT, l.entry)
    else s.missLookup ch
  | none => s.missLookup ch

/-- The pinned current line of a type bound to a given port, bay and tenon: the channel that the
hub writes live values to, and its entry (R526).  The lowest channel where several are bound. -/
def State.liveChannels (s : State) (p : Entry → Bool) : List (Nat × Entry) :=
  (s.tbl.lines.filter (fun (l : Line) => l.pinned && l.current && p l.entry)).map (fun l => (l.ch, l.entry))

/-! ### Channel data (R35, R36, R45, R525) -/

/-- Whether the word ranges [a, a + n) and [b, b + m) overlap. -/
def overlaps (a n b m : Nat) : Bool := decide (a < b + m) && decide (b < a + n)

/-- The table-port requester of what core port `cp` carries (R14, R70): what comes from a ring sub-link is
served through CP28. -/
def accessReq (cp : Nat) : Nat :=
  if cp < 16 then 7
  else if cp < 18 then 3
  else if 19 ≤ cp ∧ cp < 23 then 1
  else if 23 ≤ cp ∧ cp < 27 then 2
  else match cp with
    | 18 | 31 => 5
    | 27 => 0
    | 29 => 4
    | 30 => 6
    | _ => 7

/-- The core port of bay `b` (R14). -/
def bayPort (b : Nat) : Nat := 19 + b / 4

/-- The beat after an operation's last one. -/
def Op.endBeat (o : Op) : Nat := (o.first + o.count - 1) / 8 + 1

/-- An open operation on words [w, w + n) of a channel. -/
def Op.hits (o : Op) (ch w n : Nat) : Bool := !o.closed && o.ch == ch && overlaps o.first o.count w n

/-- An open read operation that has words of [w, w + n) of a channel still to be granted (R525). -/
def Op.stillReads (o : Op) (ch w n : Nat) : Bool :=
  !o.write && o.hits ch w n && decide (o.granted < o.endBeat)
    && overlaps (max o.first (8 * o.granted)) (o.first + o.count - max o.first (8 * o.granted)) w n

/-- A write operation that has committed some of its bursts (R525). -/
def Op.begun (o : Op) : Bool := o.write && decide (o.first / 8 < o.moved)

/-- Operation `a` goes before `b`: it arrived in the same clock on a lower core port (R36), or before it on
the same one (R37). -/
def Op.ahead (a b : Op) : Bool :=
  (a.start == b.start && decide (a.cp < b.cp)) || (a.cp == b.cp && decide (a.id < b.id))

/-- A read operation waits with its first grant for write operation `w` of its words: one that has
committed in part, or that goes before it (R525). -/
def Op.readWaits (o w : Op) : Bool :=
  !o.write && w.write && w.hits o.ch o.first o.count && (w.begun || w.ahead o)

/-- A write of words [w, w + n) by operation `o` waits with its commit for operation `x`: a read that has
them still to read and does not wait for `o` itself, or a write that has committed in part or goes before
it (R35, R36, R525). -/
def Op.writeWaits (o x : Op) (w n : Nat) : Bool :=
  x.id != o.id && (if x.write then x.hits o.ch w n && (x.begun || x.ahead o)
    else x.stillReads o.ch w n && !(decide (x.granted = x.first / 8) && x.readWaits o))

/-! ### The table port (R70 to R76) -/

/-- Whether a requester's alive sideband is up. -/
def State.alive (s : State) (n : Nat) : Bool := s.bit TBL_ARB_STAT.ALIVE n

/-- The deadline of an operation of requesters 0 to 2; class 0 has none (R43, R72). -/
def State.deadline (s : State) (o : Op) : Option Nat :=
  let b := s.get (TBL_DCLASS.BUDGET o.entry.dclass)
  if b = 0 || o.entry.dclass = 0 || decide (2 < o.req) then none else some (o.start + b)

/-- Whether an operation is urgent now (R72). -/
def State.urgent (s : State) (o : Op) : Bool :=
  match s.deadline o with
  | none => false
  | some d => decide (d < s.now + s.get TBL_CFG.URGENT)

/-- The MOVE of a frame tunnel that does not know its frame's length yet: it has not read word 0 (R388). -/
def Op.measures (o : Op) : Bool :=
  o.entry.type == tTUNNEL && o.moved == 0 && (match o.purpose with | .move _ => true | .movc _ => true | _ => false)

/-- An operation whose next burst may be granted: it is open and has bursts left, its requester's staging
buffer is free for a write burst (R71), and no write of its words holds back its first grant (R525).  A
paced read runs no further ahead than 8 words, a paced write has taken the words of its next beat (R221). -/
def State.ready (s : State) (o : Op) : Bool :=
  !o.closed && decide (o.granted < o.endBeat) && !(o.measures && o.granted != 0) &&
    (!o.paced || (if o.write then decide (8 * (o.granted + 1) ≤ o.taken) || decide (o.first + o.count ≤ o.taken)
      else decide (8 * o.granted ≤ o.taken))) &&
    (if o.write then !s.tbl.staged.any (fun b => b.req == o.req)
      else decide (o.granted ≠ o.first / 8) || !s.tbl.ops.any (fun w => o.readWaits w))

/-- The order in which a requester presents its operations (R72): deadlines first, the earliest
deadline, then the earliest start. -/
def State.presentKey (s : State) (o : Op) : Nat :=
  match s.deadline o with
  | some d => d * 2 ^ 128 + o.start * 2 ^ 64 + o.id
  | none => 2 ^ 192 * (s.now + 2 ^ 32) + o.start * 2 ^ 64 + o.id

/-- The length in beats of an operation's next burst (R71). -/
def Op.nextLen (o : Op) : Nat := min (if o.paced || o.measures then 1 else 8) (o.endBeat - o.granted)

/-- The operation that requester `n` would present among those for which `p` holds (R72). -/
def State.firstReady (s : State) (n : Nat) (p : Op → Bool) : Option Op :=
  minBy s.presentKey (s.tbl.ops.filter (fun o => o.req == n && s.ready o && p o))

/-- The deficit round robin among the tenants of requester `n`, from the one after `t` on, over deficits
`d` (R328): a tenant that has no request loses its deficit, one of weight 0 is passed over. -/
def State.tenantScan (s : State) (n t : Nat) (d : Tab Nat) (fuel : Nat) : Option (Op × Tab Nat) :=
  match fuel with
  | 0 => none
  | fuel + 1 =>
    let t := (t + 1) % 16
    let key := 16 * n + t
    match s.firstReady n (fun o => o.ten == t) with
    | none => s.tenantScan n t (Tab.put 0 d key 0) fuel
    | some o =>
      let w := s.get (XBAR_TQUOTA.TBLW t)
      if w = 0 then s.tenantScan n t d fuel
      else
        let c := Tab.get 0 d key
        let c := if c < o.nextLen then c + w else c
        if o.nextLen ≤ c then some (o, Tab.put 0 d key (c - o.nextLen))
        else s.tenantScan n t (Tab.put 0 d key c) fuel

/-- The operation that requester 3 or 7 presents, with its tenants' deficits after the grant (R328); a
tenant of weight 0 only where no other waits.  A burst has at most 8 beats, so that nine rounds find one. -/
def State.tenantPick (s : State) (n : Nat) : Option (Op × Tab Nat) :=
  let p := Tab.get 15 s.tbl.tenPtr n
  match s.tenantScan n p s.tbl.tenDef (if (s.firstReady n (fun _ => true)).isSome then 144 else 0) with
  | some r => some r
  | none => ((List.range 16).findSome? (fun i => s.firstReady n (fun o => o.ten == (p + 1 + i) % 16))).map
      (fun o => (o, s.tbl.tenDef))

/-- Whether a requester serves its tenants by deficit round robin (R328). -/
def byTenant (n : Nat) : Bool := n == 3 || n == 7

/-- The operation a requester presents (R72, R328). -/
def State.presented (s : State) (n : Nat) : Option Op :=
  if byTenant n then (s.tenantPick n).map (fun r => r.1) else s.firstReady n (fun _ => true)

/-- Replace an operation by its number. -/
def State.putOp (s : State) (o : Op) : State :=
  { s with tbl := { s.tbl with ops := s.tbl.ops.map (fun x => if x.id == o.id then o else x) } }

/-- The operation of a number. -/
def State.op (s : State) (id : Nat) : Option Op := s.tbl.ops.find? (fun o => o.id == id)

/-- The end of a burst's issue slot: 3 ticks a beat (R71). -/
def Burst.slotEnd (b : Burst) : Nat := b.at_ + 3 * b.len

/-- Requester `n` waits no longer: what it has waited is added to `TBL_WAITn` (R76). -/
def State.settleWait (s : State) (n : Nat) : State :=
  match Tab.get none s.tbl.since n with
  | none => s
  | some t => ({ s with tbl := { s.tbl with since := Tab.put none s.tbl.since n none } }).addSat
      (TBL_WAIT.WAIT n) (s.now - t)

/-- Requester `n` waits while it has a request and does not transfer (R76): from now on, or from the end of
the issue slot that it owns. -/
def State.judgeWait (s : State) (n : Nat) : State :=
  if s.alive n && (s.presented n).isSome then
    if Tab.get none s.tbl.since n == none then
      let from_ := match s.tbl.owner with
        | some b => if b.req = n then max s.now b.slotEnd else s.now
        | none => s.now
      { s with tbl := { s.tbl with since := Tab.put none s.tbl.since n (some from_) } }
    else s
  else s.settleWait n

/-- Judge the wait of every requester. -/
def State.judgeWaits (s : State) : State := s.each 8 (fun n s => s.judgeWait n)

/-- Open an operation of the table port (R56) for what core port `cp` carries for tenant `ten`: its
requester starts to wait for a grant. -/
def State.openOp (s : State) (cp ten : Nat) (write : Bool) (ch : Nat) (e : Entry) (first count : Nat)
    (data : List Word) (p : Purpose) (paced : Bool) : State :=
  let o : Op := { id := s.tbl.nextOp, req := accessReq cp, cp := cp, ten := ten % 16, write := write, ch := ch, entry := e, first := first, count := count, start := s.now, granted := first / 8, moved := first / 8, data := Tab.putList 0 [] first data, purpose := p, closed := false, failed := false, paced := paced, taken := first, idleAt := none }
  ({ s with tbl := { s.tbl with ops := s.tbl.ops ++ [o], nextOp := s.tbl.nextOp + 1 } }).judgeWait (accessReq cp)

/-- The words of an operation that lie in beats [b, b + n). -/
def Op.beatWords (o : Op) (b n : Nat) : List Nat :=
  (List.range (8 * n)).filterMap (fun i =>
    let w := 8 * b + i
    if inSpan w o.first (o.first + o.count) then some w else none)

/-- The tenant of a granted operation pays for its burst (R328). -/
def State.chargeTenant (s : State) (o : Op) : State :=
  if !byTenant o.req then s
  else
    let key := 16 * o.req + o.ten
    let d := match s.tenantPick o.req with
      | some r => if r.1.id = o.id then r.2 else Tab.put 0 s.tbl.tenDef key (Tab.get 0 s.tbl.tenDef key - o.nextLen)
      | none => Tab.put 0 s.tbl.tenDef key (Tab.get 0 s.tbl.tenDef key - o.nextLen)
    { s with tbl := { s.tbl with tenDef := d, tenPtr := Tab.put 15 s.tbl.tenPtr o.req o.ten } }

/-- Grant an operation its next burst (R71): a read burst takes its words now, a write burst is
staged; the burst owns the port. -/
def State.grantOp (s : State) (o : Op) : State :=
  let len := o.nextLen
  let ws := (o.beatWords o.granted len).map (fun w =>
    if o.write then Tab.get 0 o.data w else s.dataWord o.entry.dataPtr w)
  let b : Burst := .mk o.id o.req o.granted len o.write s.now (s.urgent o) ws
  let s := ((s.chargeTenant o).settleWait o.req).putOp { o with granted := o.granted + len }
  let s := { s with tbl := { s.tbl with
    owner := some b
    flight := if o.write then s.tbl.flight else s.tbl.flight ++ [b]
    staged := if o.write then s.tbl.staged ++ [b] else s.tbl.staged } }
  s.judgeWait o.req

/-- The lowest-numbered urgent requester's operation (R73). -/
def State.urgentOp (s : State) : Option Op :=
  (List.range 8).findSome? (fun n =>
    if s.alive n then (s.presented n).bind (fun o => if s.urgent o then some o else none) else none)

/-- The deficit round robin of R73, visiting `n` more requesters after `r`. -/
def State.roundRobin (s : State) (r n : Nat) : State :=
  match n with
  | 0 => s
  | n + 1 =>
    let r := (r + 1) % 8
    let w := s.get (TBL_WEIGHT.WEIGHT r)
    match (if s.alive r && w != 0 then s.presented r else none) with
    | none => s.roundRobin r n
    | some o =>
      let len := o.nextLen
      let d := Tab.get 0 s.tbl.deficit r
      let d := if d < len then d + w else d
      if len ≤ d then
        ({ s with tbl := { s.tbl with deficit := Tab.put 0 s.tbl.deficit r (d - len), ptr := r } }).grantOp o
      else
        ({ s with tbl := { s.tbl with deficit := Tab.put 0 s.tbl.deficit r d } }).roundRobin r n

/-- One arbitration round (R73), once the owner's issue slot is over.  A revoked burst restarts as
the first non-urgent grant (R74). -/
def State.arbitrate (s : State) : State :=
  let s := match s.tbl.owner with | some b => s.waitUntil b.slotEnd | none => s
  let s := { s with tbl := { s.tbl with
    owner := none
    deficit := (List.range 8).foldl (fun d n =>
      if (s.presented n).isSome then d else Tab.put 0 d n 0) s.tbl.deficit } }
  match s.urgentOp with
  | some o => s.grantOp o
  | none =>
    match (s.tbl.restart.bind (fun id => s.op id)).filter (fun o => s.ready o && s.alive o.req) with
    | some o =>
      let d := Tab.get 0 s.tbl.deficit o.req
      ({ s with tbl := { s.tbl with
          restart := none, deficit := Tab.put 0 s.tbl.deficit o.req (d - o.nextLen) } }).grantOp o
    | none => s.roundRobin s.tbl.ptr 8

/-- Drop a burst: its beats are discarded and its operation takes it up again (R74, R75). -/
def State.dropBurst (s : State) (b : Burst) : State :=
  let s := match s.op b.op with | some o => s.putOp { o with granted := b.first } | none => s
  let keep := fun (x : Burst) => !(x.op == b.op && x.first == b.first)
  { s with tbl := { s.tbl with
    owner := none, flight := s.tbl.flight.filter keep, staged := s.tbl.staged.filter keep } }

/-- Give a requester, and its tenant, a revoked burst's beats back (R74, R328). -/
def State.refund (s : State) (b : Burst) : State :=
  let ten := match s.op b.op with | some o => o.ten | none => 0
  let key := 16 * b.req + ten
  { s with tbl := { s.tbl with
    deficit := Tab.put 0 s.tbl.deficit b.req (Tab.get 0 s.tbl.deficit b.req + b.len)
    tenDef := if byTenant b.req then Tab.put 0 s.tbl.tenDef key (Tab.get 0 s.tbl.tenDef key + b.len) else s.tbl.tenDef } }

/-- Revoke a non-urgent owner for an urgent request at the next beat boundary (R74). -/
def State.revoke (s : State) : State :=
  match s.tbl.owner with
  | none => s
  | some b =>
    if b.slotEnd ≤ s.now || b.urgent || (s.urgentOp).isNone then s
    else
      let s := s.waitUntil (b.at_ + 3 * ceilDiv (s.now - b.at_) 3)
      let ownUrgent := match s.op b.op with | some o => s.urgent o | none => false
      match s.urgentOp with
      | none => s
      | some o =>
        if ownUrgent || b.slotEnd ≤ s.now || o.req == b.req then s
        else
          let s := ((s.dropBurst b).inc (TBL_REVOKE.COUNT b.req)).refund b
          let s := { s with tbl := { s.tbl with restart := some b.op } }
          (s.judgeWait b.req).grantOp o

/-- A burst of requester `n` has completed: its wait counter returns to 0 (R76). -/
def State.burstDone (s : State) (n : Nat) : State :=
  ((s.settleWait n).set (TBL_WAIT.WAIT n) 0).judgeWaits

/-- The operation of a tunnel's MOVE has read word 0: it goes on over the words of its frame, and ends
there where the length is not one (R388). -/
def Op.measured (o : Op) : Op :=
  let len := wbits (Tab.get 0 o.data 0) 14 0
  { o with count := if len = 0 || 16384 < len || o.entry.extent < 1 + ceilDiv len 6 then 1 else 1 + ceilDiv len 6 }

/-- An operation's transfer moves on by a burst; it closes with its last beat (R56). -/
def State.moveOn (s : State) (o : Op) (len : Nat) (data : Tab Word) : State :=
  let o' := if o.measures then ({ o with data := data } : Op).measured else { o with data := data }
  s.putOp { o' with moved := o.moved + len, closed := decide (o'.endBeat ≤ o.moved + len) }

/-! ### Serving an access to channel data (R35, R54, R70, R75) -/

/-- The issue slot is free and no live requester has a request. -/
def State.portIdle (s : State) : Bool :=
  (match s.tbl.owner with | none => true | some b => decide (b.slotEnd ≤ s.now))
    && (List.range 8).all (fun n => !s.alive n || (s.presented n).isNone)

/-- Requester `req` reaches words [w, w + n) of a channel at once: the port is idle, the requester is not
parked (R73), and no operation on the words is open. -/
def State.servesNow (s : State) (req : Nat) (write : Bool) (ch w n : Nat) : Bool :=
  s.portIdle && s.get (TBL_WEIGHT.WEIGHT req) != 0
    && !s.tbl.ops.any (fun o => if o.write then o.hits ch w n else write && o.stillReads ch w n)

/-- How a read of channel data goes: it is abandoned (R53, R54), its words are there, or it waits for the
table port as an operation. -/
inductive Fetch where
  | gone
  | words (ws : List Word)
  | waits (op : Nat)
  deriving DecidableEq, Repr

/-- Read `n` words of a channel from word `w` for what core port `cp` carries for tenant `ten`: at once
where the table port is idle, else through an operation of purpose `p`.  A masked requester reads nothing
(R75), nor does anyone while the home is lost (R54); `ue` says that the read returns an uncorrectable error
(R53). -/
def State.readChan (s : State) (cp ten ch : Nat) (e : Entry) (w n : Nat) (p : Purpose) (ue : Bool) : State × Fetch :=
  if !s.homeUp || !s.alive (accessReq cp) then (s, .gone)
  else if s.servesNow (accessReq cp) false ch w n then
    let o := 64 * e.dataPtr + 8 * w
    if ue || s.homeBad o (8 * n) then (s.raise Kind.TBL_ECC_UE ch, .gone)
    else (s.corrected o (8 * n), .words (s.dataWords e.dataPtr w n))
  else (s.openOp cp ten false ch e w n [] p false, .waits s.tbl.nextOp)

/-- Write channel words for what core port `cp` carries for tenant `ten`, as one unit (R35): at once where
the table port is idle, else through an operation; abandoned while the home is lost (R54) or the requester
masked (R75). -/
def State.putChan (s : State) (cp ten ch : Nat) (e : Entry) (w : Nat) (ws : List Word) : State :=
  if !s.homeUp || !s.alive (accessReq cp) then s
  else if s.servesNow (accessReq cp) true ch w ws.length then s.putDataWords e.dataPtr w ws
  else s.openOp cp ten true ch e w ws.length ws .store false

/-- The hub writes live values to every pinned current channel that `p` selects (R526). -/
def State.writeLive (s : State) (cp : Nat) (p : Entry → Bool) (ws : List Word) : State :=
  if s.homeSel = 0 || !s.homeUp then s
  else (s.liveChannels p).foldl (fun s c => s.putChan cp 0 c.1 c.2 0 ws) s

/-! ### Doorbells (R63 to R69, R527) -/

/-- `TBL_STAT.DEPTH` counts the doorbells not yet complete (R64). -/
def State.setDoors (s : State) (ds : List Doorbell) : State :=
  ({ s with tbl := { s.tbl with doors := ds } }).set TBL_STAT.DEPTH
    (ds.filter (fun (d : Doorbell) => d.phase != DoorPhase.complete)).length

/-- The staged entry of `TBL_STAGE0` to `TBL_STAGE10` (R65). -/
def State.stagedEntry (s : State) : Nat :=
  pack ((List.range 11).map (fun k => (s.get (TBL_STAGE.WORD k), if k = 10 then 32 else 48)))

/-- Write a doorbell (R64). -/
def State.ringDoor (s : State) (update : Bool) (v : Word) : State :=
  let ch := wbits v 15 0
  if 0xFFF0 ≤ ch then s.raise Kind.TBL_BAD_ENTRY ch
  else if 32 ≤ (s.tbl.doors.filter (fun (d : Doorbell) => d.phase != DoorPhase.complete)).length then
    s.raise Kind.TBL_DOOR_OVF ch
  else s.setDoors (s.tbl.doors ++
    [.mk update ch (wbits v 23 16) (if update then s.stagedEntry else 0) .queued])

/-- DONE counts completed doorbells in doorbell order (R68). -/
def State.countDone (s : State) : State :=
  let n := (s.tbl.doors.takeWhile (fun (d : Doorbell) => d.phase == DoorPhase.complete)).length
  (s.setDoors (s.tbl.doors.drop n)).set TBL_STAT.DONE (s.get TBL_STAT.DONE + n)

/-- Whether a doorbell is in service: its refetch or its entry's write is due (R69). -/
def Doorbell.inService (d : Doorbell) : Bool :=
  match d.phase with | .refetch _ _ => true | .writing _ => true | _ => false

/-- The place in the queue of the doorbell served next: the first queued one whose channel has no
earlier doorbell that is not complete; none while one is in service (R69). -/
def nextDoorAt (ds : List Doorbell) (busy : List Nat) (i : Nat) : Option Nat :=
  match ds with
  | [] => none
  | d :: rest =>
    match d.phase with
    | .queued => if busy.contains d.ch then nextDoorAt rest busy (i + 1) else some i
    | .finished _ _ => nextDoorAt rest (d.ch :: busy) (i + 1)
    | .complete => nextDoorAt rest busy (i + 1)
    | _ => none

/-- The doorbell to serve, with its place: none while the home is lost (R527), nor while requester 5 is
masked (R66, R75). -/
def State.nextDoor (s : State) : Option (Nat × Doorbell) :=
  if s.homeSel != 0 && (!s.homeUp || !s.alive 5) then none
  else if s.tbl.doors.any Doorbell.inService then none
  else (nextDoorAt s.tbl.doors [] 0).bind (fun i => (s.tbl.doors[i]?).map (fun d => (i, d)))

/-- Set the phase of the doorbell at place `i`; a complete doorbell stays complete. -/
def State.setPhase (s : State) (i : Nat) (p : DoorPhase) : State :=
  s.setDoors (s.tbl.doors.modify i (fun d => if d.phase = .complete then d else { d with phase := p }))

/-- A doorbell that changed nothing completes at once (R68). -/
def State.completeAt (s : State) (i : Nat) : State := (s.setPhase i .complete).countDone

/-- A doorbell's fetch or write has finished; it waits for the older operations (R68). -/
def State.finishAt (s : State) (i : Nat) (ch : Nat) : State := s.setPhase i (.finished (s.openOps ch) (s.openVotes ch))

/-- Serve a `TBL_INVAL` doorbell up to its first fetch (R66, R527); where every way of its set is taken it
waits for one (R59). -/
def State.serveInval (s : State) (i : Nat) (d : Doorbell) (ue : Bool) : State :=
  if s.homeSel = 0 then (s.dropLine d.ch).completeAt i
  else if (s.makeRoom d.ch).isNone then s
  else
    match (s.markStale d.ch).readEntry d.ch ue with
    | (s, none) => s.setPhase i (.refetch (s.now + 1600) true)
    | (s, some e) =>
      if e.gen = d.gen then (s.installed d.ch e).finishAt i d.ch
      else s.setPhase i (.refetch (s.now + 1600) false)

/-- The second fetch of a `TBL_INVAL` doorbell (R66); there is none where the home has been deselected
meanwhile (R527). -/
def State.refetchInval (s : State) (i : Nat) (d : Doorbell) (firstUe ue : Bool) : State :=
  let mismatch := fun (s : State) =>
    ((s.installExpecting d.ch d.gen).raise Kind.TBL_GEN_MISMATCH d.ch).finishAt i d.ch
  if s.homeSel = 0 then (s.dropLine d.ch).completeAt i
  else if (s.makeRoom d.ch).isNone then s
  else
    match s.readEntry d.ch ue with
    | (s, none) => if firstUe then (s.dropLine d.ch).completeAt i else mismatch s
    | (s, some e) => if e.gen = d.gen then (s.installed d.ch e).finishAt i d.ch else mismatch s

/-- Whether a staged entry is held in the cache once it is written: its line is replaced, or installed where
its PIN is 1 (R67). -/
def State.cachesStaged (s : State) (d : Doorbell) : Bool := (s.line d.ch).isSome || d.staged.testBit 478

/-- The write of a staged entry commits (R67). -/
def State.commitEntry (s : State) (i : Nat) (d : Doorbell) : State :=
  let s := (s.freshSlots (64 * d.ch) 64).putHomeBytes (64 * d.ch) (toBytes 64 d.staged)
  (if s.cachesStaged d then s.installed d.ch (s.fetched d.ch) else s).finishAt i d.ch

/-- Serve a `TBL_UPDATE` doorbell (R67, R527): its entry is written at once where the table port is idle,
else as a burst of requester 5.  The burst's words lie outside every channel's. -/
def State.serveUpdate (s : State) (i : Nat) (d : Doorbell) : State :=
  if !rawWellFormed d.staged s.homeSize then (s.raise Kind.TBL_BAD_ENTRY d.ch).completeAt i
  else if s.homeSel = 0 then s.completeAt i
  else if s.cachesStaged d && (s.makeRoom d.ch).isNone then s
  else if s.servesNow 5 true d.ch 131072 8 then s.commitEntry i d
  else (s.openOp 31 0 true d.ch (Entry.empty 0) 131072 8 [] (.entry d.staged) false).setPhase i (.writing s.tbl.nextOp)

/-- Complete every finished doorbell whose operations and votes have all closed (R68). -/
def State.completeDoors (s : State) : State :=
  (s.setDoors (s.tbl.doors.map (fun d =>
    match d.phase with
    | .finished ops acts =>
      if (s.openOps d.ch).any (fun i => ops.contains i) || (s.openVotes d.ch).any (fun i => acts.contains i) then d
      else { d with phase := .complete }
    | _ => d))).countDone

/-! ### The home's selection, loss and return -/

/-- HOME_UP follows the selected home: a home that cannot be reached is a TBL_HOME_LOST cause, no
home is none (R54, R459). -/
def State.judgeHome (s : State) : State :=
  let up := s.homeReachable
  (s.setB TBL_STAT.HOME_UP up).level Kind.TBL_HOME_LOST 0 (!up && s.homeSel != 0)

/-- A write of `TBL_HOME` (R49, R50, R522): ignored under the lock and with a reserved SEL or SIZE;
one that changes a field invalidates every line. -/
def State.writeHome (s : State) (v : Word) : State :=
  if s.kpLocked || wbits v 1 0 = 3 || wbits v 5 2 = 15 then s
  else
    let changed := decide (s.kpHome.value ≠ v.toNat)
    let s := s.kpWrite 4 v
    if changed then s.flushLines.judgeHome else s

/-- Whether a lane waits for an operation. -/
def Op.laneWaits (o : Op) : Bool := match o.purpose with | .movc _ => true | .ldw _ _ => true | _ => false

/-- The dispatched action that an operation serves. -/
def Op.act (o : Op) : Option Nat := match o.purpose with | .move a => some a | .discrete a => some a | _ => none

/-- Abandon the open operations for which `p` holds: they are gone, but the operation a lane waits
for stays as failed until the lane has seen it (R53, R170); the action of one is kept for its deadline
alone, and a doorbell whose write is dropped is served again (R144, R527). -/
def State.dropOps (s : State) (p : Op → Bool) : State :=
  let gone := s.tbl.ops.filter (fun o => !o.closed && p o)
  let s := { s with
    tbl := { s.tbl with
      ops := s.tbl.ops.filterMap (fun (o : Op) =>
        if o.closed || !p o then some o
        else if o.laneWaits then some { o with closed := true, failed := true } else none)
      flight := s.tbl.flight.filter (fun b => !gone.any (fun (o : Op) => o.id == b.op))
      staged := s.tbl.staged.filter (fun b => !gone.any (fun (o : Op) => o.id == b.op)) }
    seq := { s.seq with acts := s.seq.acts.filter (fun (a : Act) =>
      !(gone.any (fun (o : Op) => o.act == some a.id) && (a.e.dlkind == 0 || a.noDl))) } }
  let back := fun (d : Doorbell) => match d.phase with | .writing id => gone.any (fun (o : Op) => o.id == id) | _ => false
  (if s.tbl.doors.any back then
    s.setDoors (s.tbl.doors.map (fun d => if back d then { d with phase := .queued } else d)) else s).judgeWaits

/-- Abandon every open operation (R54). -/
def State.abandonOps (s : State) : State :=
  let s := s.dropOps (fun _ => true)
  { s with tbl := { s.tbl with owner := none, flight := [], staged := [], restart := none } }

/-- The selected home becomes unreachable (R54): HOME_UP clears, data accesses are abandoned, a
doorbell in service goes back to the start of its service (R527). -/
def State.loseHome (s : State) : State :=
  if !s.homeUp then s
  else
    let s := (s.setB TBL_STAT.HOME_UP false).raiseLevel Kind.TBL_HOME_LOST 0
    let s := s.abandonOps
    s.setDoors (s.tbl.doors.map (fun d => if d.inService then { d with phase := .queued } else d))

/-- The home returns (R55). -/
def State.returnHome (s : State) : State :=
  if s.homeUp || s.homeSel = 0 || !s.homeReachable then s
  else ((s.setB TBL_STAT.HOME_UP true).flushLines).endLevel Kind.TBL_HOME_LOST 0

/-! ### Bursts (R53, R71, R525) -/

/-- The oldest read burst arrives; one that brings an uncorrectable word abandons its operation
(R53, R71). -/
def State.readArrives (s : State) (ue : Bool) : State :=
  match s.tbl.flight with
  | [] => s
  | b :: rest =>
    let s := s.waitUntil b.slotEnd
    let s := { s with tbl := { s.tbl with flight := rest } }
    match s.op b.op with
    | none => s.burstDone b.req
    | some o =>
      let at_ := 64 * (o.entry.dataPtr + b.first)
      if ue || s.homeBad at_ (64 * b.len) then
        let s := s.dropOps (fun x => x.id == o.id)
        (s.raise Kind.TBL_ECC_UE o.ch).burstDone b.req
      else
        let data := ((o.beatWords b.first b.len).zip b.words).foldl
          (fun d p => Tab.put 0 d p.1 p.2) o.data
        (((s.corrected at_ (64 * b.len)).moveOn o b.len data)).burstDone b.req

/-- What a committed burst writes: the words of its beats, or the whole staged entry, whose doorbell then
waits for the older operations (R67). -/
def State.writeBurst (s : State) (o : Op) (b : Burst) : State :=
  match o.purpose with
  | .entry _ =>
    match s.tbl.doors.findIdx? (fun d => d.phase == .writing o.id) with
    | none => s
    | some i => match s.tbl.doors[i]? with
      | none => s
      | some d => s.commitEntry i d
  | _ => ((o.beatWords b.first b.len).zip b.words).foldl (fun s p => s.putDataWord o.entry.dataPtr p.1 p.2) s

/-- Writes that nothing waits for are gone once they have closed. -/
def State.dropStores (s : State) : State :=
  { s with tbl := { s.tbl with ops := s.tbl.ops.filter (fun (o : Op) =>
    !(o.closed && (match o.purpose with | .store => true | .entry _ => true | _ => false))) } }

/-- Commit the staged write burst of requester `n`, unless R525 holds it (R71). -/
def State.commitBurst (s : State) (n : Nat) : State :=
  match s.tbl.staged.find? (fun b => b.req == n) with
  | none => s
  | some b =>
    match s.op b.op with
    | none => { s with tbl := { s.tbl with staged := s.tbl.staged.filter (fun x => x.op != b.op) } }
    | some o =>
      let ws := o.beatWords b.first b.len
      if s.tbl.ops.any (fun r => o.writeWaits r (ws.headD 0) ws.length) then s
      else
        let s := s.waitUntil b.slotEnd
        let s := { s with tbl := { s.tbl with
          staged := s.tbl.staged.filter (fun x => !(x.op == b.op && x.first == b.first)) } }
        (((s.writeBurst o b).moveOn o b.len o.data).dropStores).burstDone n

/-! ### The commands of the chapter -/

/-- TBL_INVAL (R64). -/
def execTblInval (v : Word) (s : State) : Result := .next (s.ringDoor false v)

/-- TBL_UPDATE (R64, R65). -/
def execTblUpdate (v : Word) (s : State) : Result := .next (s.ringDoor true v)

/-- INVAL_SERVICE (R66, R69): the next doorbell, where it is a `TBL_INVAL`; `ue` says that its fetch
returns an uncorrectable error. -/
def execInvalService (ue : Bool) (s : State) : Result :=
  match s.nextDoor with
  | some (i, d) => .next (if d.update then s else s.serveInval i d ue)
  | none => .next s

/-- INVAL_REFETCH (R66): the doorbell whose 1,600 ticks run. -/
def execInvalRefetch (ue : Bool) (s : State) : Result :=
  if s.homeSel != 0 && (!s.homeUp || !s.alive 5) then .next s
  else
    match s.tbl.doors.findIdx? (fun d => match d.phase with | .refetch _ _ => true | _ => false) with
    | none => .next s
    | some i =>
      match s.tbl.doors[i]? with
      | some d =>
        match d.phase with
        | .refetch due first => .next ((s.waitUntil due).refetchInval i d first ue)
        | _ => .next s
      | none => .next s

/-- UPDATE_SERVICE (R67, R69): the next doorbell, where it is a `TBL_UPDATE`. -/
def execUpdateService (s : State) : Result :=
  match s.nextDoor with
  | some (i, d) => .next (if d.update then s.serveUpdate i d else s)
  | none => .next s

/-- DOORBELL_COMPLETE (R68). -/
def execDoorbellComplete (s : State) : Result := .next s.completeDoors

/-- ENTRY_FETCH (R46, R53): the fetch of a channel that has no current line; `ue` says that the read
returns an uncorrectable error, which the access that waits for the entry sees as an EMPTY entry.
A window channel has no entry (R42). -/
def execEntryFetch (ch : BitVec 16) (ue : Bool) (s : State) : Result :=
  let c := ch.toNat
  if 0xFFF0 ≤ c || ((s.line c).map (fun l => l.current)).getD false then .next s
  else
    let bad := ue || s.homeBad (64 * c) 64
    let s := ((s.fetchEntry c ue).map (fun p => p.1)).getD s
    .next (if bad && s.homeSel != 0 && s.homeUp then
        { s with tbl := { s.tbl with broken := c :: s.tbl.broken.filter (fun x => x != c) } }
      else s)

/-- TBL_HOME_WRITE (R49, R50). -/
def execTblHomeWrite (v : Word) (s : State) : Result := .next (s.writeHome v)

/-- HOME_LOST (R54): the PCIe link goes down, or a DDR5 channel reports a fatal error. -/
def execHomeLost (cause : HomeLoss) (s : State) : Result :=
  match cause with
  | .pcieDown =>
    .next (if s.homeSel = 2 then (s.setB BRG_STAT.LINKUP false).loseHome else s)
  | .ddrFatal ch =>
    let s := { s with tbl := (if ch.val = 0 then { s.tbl with ddr0 := false, retrain0 := s.now }
      else { s.tbl with ddr1 := false, retrain1 := s.now }) }
    .next (if s.homeSel = 1 then s.loseHome else s)

/-- HOME_RETURN (R55). -/
def execHomeReturn (s : State) : Result := .next s.returnHome

/-- DDR_RETRAIN (R55): each failed channel is retrained at once after its error and then every 10 ms; the
command is the retraining that is due first, of channel 0 where both are due together. -/
def execDdrRetrain (pass : Bool) (s : State) : Result :=
  let t := s.tbl
  if t.ddr0 && t.ddr1 then .next s
  else if !t.ddr0 && (t.ddr1 || decide (t.retrain0 ≤ t.retrain1)) then
    let s := s.waitUntil t.retrain0
    .next { s with tbl := { s.tbl with ddr0 := pass, retrain0 := s.now + msTicks 10 } }
  else
    let s := s.waitUntil t.retrain1
    .next { s with tbl := { s.tbl with ddr1 := pass, retrain1 := s.now + msTicks 10 } }

/-- REVOCATION (R74). -/
def execRevocation (s : State) : Result := .next s.revoke

/-- ALIVE_FALL (R75): the requester is masked, its requests are dropped, a burst it owns is
abandoned without a refund. -/
def execAliveFall (n : Fin 8) (s : State) : Result :=
  let k := n.val
  let own := match s.tbl.owner with | some b => b.req == k | none => false
  let s := s.setBit TBL_ARB_STAT.ALIVE k false
  let s := s.dropOps (fun o => o.req == k)
  let s := s.set (TBL_WAIT.WAIT k) 0
  .next { s with tbl := { s.tbl with
    owner := if own then none else s.tbl.owner
    flight := s.tbl.flight.filter (fun b => b.req != k)
    staged := s.tbl.staged.filter (fun b => b.req != k)
    since := Tab.put none s.tbl.since k none } }

/-- ALIVE_RISE (R75): the requester has left reset. -/
def execAliveRise (n : Fin 8) (s : State) : Result := .next (s.setBit TBL_ARB_STAT.ALIVE n.val true)

/-- TBL_STARVE (R76): requester `n` goes on waiting until its counter passes the limit. -/
def execTblStarve (n : Fin 8) (s : State) : Result :=
  match Tab.get none s.tbl.since n.val with
  | none => .next s
  | some t =>
    let base := s.get (TBL_WAIT.WAIT n.val)
    let s := s.waitUntil (t + (s.get TBL_CFG.STARVE_LIMIT + 1 - base))
    .next ((s.setBit TBL_ARB_STAT.STARVE n.val true).raise Kind.TBL_STARVE n.val)

end Sys2Proof.Machine
end

