-- ==== Sys2Proof/Machine/BayOps.lean ====
section
/-! DEFINITION. Chapter 06, the shared part: the pins of a bay, its map, the tenons' states and
counters, the two queues of a logical tenon, streams, stopping and substitution. -/

namespace Sys2Proof.Machine

/-! ### Bays, tenons and engines -/

/-- The record of bay `b`. -/
def State.bayRec (s : State) (b : Nat) : Bay := Tab.get Bay.reset s.bay b

/-- Replace the record of bay `b`. -/
def State.setBay (s : State) (b : Nat) (r : Bay) : State :=
  { s with bay := Tab.put Bay.reset s.bay b r }

/-- The key of physical tenon `t` of bay `b` among the engines. -/
def tenKey (b t : Nat) : Nat := 8 + 5 * b + t

/-- The engine of a key. -/
def State.engine (s : State) (k : Nat) : Eng := Tab.get Eng.reset s.eng k

/-- Replace the engine of a key. -/
def State.setEngine (s : State) (k : Nat) (e : Eng) : State :=
  { s with eng := Tab.put Eng.reset s.eng k e }

/-- Word `i` of the tenons' program stores: tenon `t` of bay `b` holds words 1280b + 256t on, as
window 0xFFFB numbers them (R25). -/
def storeWord (b t i : Nat) : Nat := 1280 * b + 256 * t + i

/-- The physical tenon that `BAY_MAP` names for logical tenon `l`. -/
def State.physical (s : State) (b l : Nat) : Nat :=
  match l with
  | 0 => s.get (BAY_MAP.L0 b)
  | 1 => s.get (BAY_MAP.L1 b)
  | 2 => s.get (BAY_MAP.L2 b)
  | _ => s.get (BAY_MAP.L3 b)

/-- Let `BAY_MAP` name tenon `t` for logical tenon `l`. -/
def State.setPhysical (s : State) (b l t : Nat) : State :=
  match l with
  | 0 => s.set (BAY_MAP.L0 b) t
  | 1 => s.set (BAY_MAP.L1 b) t
  | 2 => s.set (BAY_MAP.L2 b) t
  | _ => s.set (BAY_MAP.L3 b) t

/-- The logical tenon that physical tenon `t` serves. -/
def State.logical (s : State) (b t : Nat) : Option Nat :=
  (List.range 4).find? (fun l => s.physical b l == t)

/-- The tenon states of R209. -/
def tnSTOPPED : Nat := 0
def tnRUNNING : Nat := 1
def tnSTANDBY : Nat := 2
def tnSELFTEST : Nat := 3
def tnFAILED : Nat := 4

/-- `TENt_STAT.STATE`. -/
def State.tenState (s : State) (b t : Nat) : Nat := s.get (TEN_STAT.STATE b t)

/-- The address of a TEN fault (R233): bay, physical and logical tenon. -/
def State.tenAddr (s : State) (b t : Nat) : Nat := b * 256 + t * 16 + (s.logical b t).getD 0

/-- Raise TEN_CONFIG for tenon `t`: [23:16] hold the register offset (R233). -/
def State.tenConfig (s : State) (b t off : Nat) : State :=
  s.raise Kind.TEN_CONFIG (off * 65536 + s.tenAddr b t)

/-! ### The bay clock (R186, R203): 32 bay clocks are 125 ticks -/

/-- The bay clock of the present tick. -/
def State.bayClock (s : State) : Nat := s.now * 32 / 125

/-- The first tick of a bay clock. -/
def bayTick (c : Nat) : Nat := ceilDiv (c * 125) 32

/-! ### Pins (R193 to R200) -/

/-- The function of pin `p`, `BAY_MUX`. -/
def State.pinFn (s : State) (b p : Nat) : Nat := s.get (BAY_MUX.FN b) / 4 ^ p % 4

/-- Whether the bay's output drivers are on: BANKOK, and not in Shadow mode (R196, R198). -/
def State.driversOn (s : State) (b : Nat) : Bool := s.on (BAY_CTL.BANKOK b) && s.mode != mShadow

/-- Drive one pin: its output register takes the level, and so does the pin while the driver is on. -/
def State.drivePin (s : State) (b p : Nat) (v : Bool) : State :=
  let s := s.setBit (BAY_PIN.OUT b) p v
  if s.driversOn b then s.setBit (BAY_PIN.IN b) p v else s

/-- Drive the pins of a mask to the bits of a value. -/
def State.drivePins (s : State) (b mask value : Nat) : State :=
  s.each 16 (fun p s => if mask.testBit p then s.drivePin b p (value.testBit p) else s)

/-- The pins of a DISCRETE mask that the action drives: DISCRETE with DOE = 1 (R195). -/
def State.discretePins (s : State) (b mask : Nat) : Nat :=
  (List.range 16).foldl (fun m p =>
    if mask.testBit p && s.pinFn b p == 0 && s.bit (BAY_PADS.DOE b) p then m + 2 ^ p else m) 0

/-- Pin `p` is in the effective mortise of tenon `t` (R199): a tenon in self-test owns no pins (R209). -/
def State.inMortise (s : State) (b t p : Nat) : Bool :=
  s.bit (TEN_PINS.MORT b t) p && s.pinFn b p == 1 && (s.logical b t).isSome && s.tenState b t != tnSELFTEST

/-- A source of tenon `t` drives pin `p` (R199, R200): nothing where the pin is outside the mortise
or its OE bit is 0. -/
def State.tenDrive (s : State) (b t p : Nat) (v : Bool) : State :=
  if decide (p < 16) && s.inMortise b t p && s.bit (TEN_PINS.OE b t) p then s.drivePin b p v else s

/-- Hold, and Join, which sets bays and chain ports as Hold does (R479). -/
def State.holdLike (s : State) : Bool := s.mode == mHold || s.mode == mJoin

/-- A chain port that is on drives pin `p`: CLK, LAT and D0 to D3 (R193, R194, R239). -/
def State.chainDrives (s : State) (b p : Nat) : Bool :=
  s.pinFn b p == 2 && decide (p % 8 < 6) && s.chOn (2 * b + p / 8)

/-- A source of the bay drives pin `p`: DISCRETE with DOE = 1, a chain port, the mortise of an in-service
tenon with OE = 1, or its safe level in Hold (R193, R195, R198, R199). -/
def State.pinDriven (s : State) (b p : Nat) : Bool :=
  s.driversOn b && ((s.pinFn b p == 0 && s.bit (BAY_PADS.DOE b) p) || s.chainDrives b p
    || (s.holdLike && s.bit (BAY_SAFE.EN b) p)
    || (List.range 4).any (fun l => s.inMortise b (s.physical b l) p && s.bit (TEN_PINS.OE b (s.physical b l)) p))

/-- What decides the levels of the pins of bay `b` besides the output registers: the pins that are driven, and
the pulls. -/
def State.padsOf (s : State) (b : Nat) : Nat × Nat :=
  ((List.range 16).foldl (fun m p => if s.pinDriven b p then m + 2 ^ p else m) 0, s.get (BAY_PADS.PULL b))

/-- After a change of what decides the levels of bay `b`, `was` being that before it: a pin that is driven
stands at its output register (R197), one that is let go takes the level of its pull (R196). -/
def State.settlePads (s : State) (b : Nat) (was : Nat × Nat) : State :=
  s.each 16 (fun p s =>
    let pull := s.get (BAY_PADS.PULL b) / 4 ^ p % 4
    if s.pinDriven b p then s.setBit (BAY_PIN.IN b) p (s.bit (BAY_PIN.OUT b) p)
    else if (was.1.testBit p || was.2 / 4 ^ p % 4 != pull) && pull != 0 then s.setBit (BAY_PIN.IN b) p (pull == 2)
    else s)

/-- The pin of side-set `i` (R200). -/
def State.sidePin (s : State) (b t i : Nat) : Nat :=
  match i with
  | 0 => s.get (TEN_PINS.S0 b t)
  | 1 => s.get (TEN_PINS.S1 b t)
  | 2 => s.get (TEN_PINS.S2 b t)
  | _ => s.get (TEN_PINS.S3 b t)

/-- Side-set or SHIFTO data of tenon `t` drives pin `p`: the generator's output stands above both
(R178, R180). -/
def State.dataDrive (s : State) (b t p : Nat) (v : Bool) : State :=
  if s.get (TEN_CLK.SRC b t) == 1 && s.get (TEN_CLK.CKPIN b t) == p then s else s.tenDrive b t p v

/-- Apply the side field of an instruction word (R177). -/
def State.sideSet (s : State) (b t w : Nat) : State :=
  s.each 4 (fun i s =>
    if w.testBit (36 + i) then s.dataDrive b t (s.sidePin b t i) (w.testBit (32 + i)) else s)

/-! ### The clock generator and the counter (R202 to R207) -/

/-- Whether the shift clock is the tenon's own generator (R201). -/
def State.ownClock (s : State) (b t : Nat) : Bool := decide (s.get (TEN_CLK.SRC b t) < 2)

/-- H of R203. -/
def State.sampleOffset (s : State) (b t : Nat) : Nat :=
  if s.get (TEN_CLK.SAMP b t) = 0 then s.get (TEN_CLK.INT b t) / 2 else s.get (TEN_CLK.SAMP b t)

/-- The bay clock of free-run drive edge `k`, counted from 0 (R203). -/
def State.driveEdge (s : State) (b t k : Nat) : Nat :=
  (s.engine (tenKey b t)).genAt + 1 + k * s.get (TEN_CLK.INT b t)
    + (k * s.get (TEN_CLK.FRAC b t) + 32768) / 65536

/-- How many free-run drive edges fall at or before bay clock `c`, with their sample edges `h`
clocks later. -/
def State.edgesBy (s : State) (b t h c : Nat) : Nat :=
  let base := (s.engine (tenKey b t)).genAt + 1 + h
  if c < base then 0
  else
    let d := s.get (TEN_CLK.INT b t) * 65536 + s.get (TEN_CLK.FRAC b t)
    if d = 0 then 0 else ((c - base + 1) * 65536 - 32768 - 1) / d + 1

/-- How many edges `h` bay clocks after the drive edges of gated steps fall at or before bay clock `c` in the
shift under way (R181). -/
def State.gatedBy (s : State) (b t h c : Nat) : Nat :=
  match (s.engine (tenKey b t)).wait with
  | .shift x =>
    if x.at_ + 1 + h ≤ c then min (shSteps x.word) ((c - x.at_ - 1 - h) / s.get (TEN_CLK.INT b t) + 1) else 0
  | _ => 0

/-- How many edges of the own generator, `h` clocks after its drive edges, fall at or before bay clock `c`
(R180, R207). -/
def State.ownEdgesBy (s : State) (b t h c : Nat) : Nat :=
  if !s.ownClock b t then 0
  else match (s.engine (tenKey b t)).genMode with
    | 1 => s.edgesBy b t h c
    | 2 => s.gatedBy b t h c
    | _ => 0

/-- CNT at bay clock `c`: the clock-driven sources count without an event of their own (R207). -/
def State.cntAt (s : State) (b t c : Nat) : Word :=
  let e := s.engine (tenKey b t)
  let v := Tab.get 0 e.regs 5
  let since := fun h => word (s.ownEdgesBy b t h c - s.ownEdgesBy b t h e.cntAt)
  match s.get (TEN_CFG.CSRC b t) with
  | 1 => v + word (c - e.cntAt)
  | 5 => v + since 0
  | 6 => v + since (s.sampleOffset b t)
  | _ => v

/-- CNT now. -/
def State.cntNow (s : State) (b t : Nat) : Word := s.cntAt b t s.bayClock

/-- Bring the stored CNT up to the present bay clock. -/
def State.settleCnt (s : State) (b t : Nat) : State :=
  let e := s.engine (tenKey b t)
  s.setEngine (tenKey b t)
    { e with regs := Tab.put 0 e.regs 5 (s.cntNow b t), cntAt := s.bayClock }

/-- The generator's output rests at IDLE where it is brought to a pin (R202, R203). -/
def State.restClock (s : State) (b t : Nat) : State :=
  if s.get (TEN_CLK.SRC b t) = 1 then s.tenDrive b t (s.get (TEN_CLK.CKPIN b t)) (s.on (TEN_CLK.IDLE b t)) else s

/-- The clocks of the bay's tenons that do not run rest at IDLE; in Hold their pins keep their levels (R198,
R203). -/
def State.restClocks (s : State) (b : Nat) : State :=
  if s.holdLike then s
  else s.each 5 (fun t s => if s.tenState b t = tnRUNNING then s else s.restClock b t)

/-- Set the generator's mode at bay clock `c` (R180, R203); its output is at IDLE. -/
def State.setGen (s : State) (b t m c : Nat) : State :=
  let s := s.settleCnt b t
  (s.setEngine (tenKey b t) { s.engine (tenKey b t) with genMode := m, genAt := c }).restClock b t

/-! ### Shift steps and clock levels as time passes (R179 to R181, R201 to R203) -/

/-- The group's pins as sampled: a pin outside the mortise contributes 0 (R179). -/
def State.sampled (s : State) (b t w pins : Nat) : Nat :=
  (List.range (shWidth w)).foldl (fun v i =>
    if s.inMortise b t (bits w 23 20 + i) && pins.testBit (bits w 23 20 + i) then v + 2 ^ i else v) 0

/-- One step of the shift `w` (R179): SHIFTO drives the next group of SR, SHIFTI samples the bay's pins
`pins`. -/
def State.shiftOne (s : State) (b t w pins : Nat) : State :=
  let sr := Tab.get 0 (s.engine (tenKey b t)).regs 4
  let put := fun (s : State) (v : Word) =>
    s.setEngine (tenKey b t) { s.engine (tenKey b t) with regs := Tab.put 0 (s.engine (tenKey b t)).regs 4 v }
  if shIn w then put s (shiftIn (w.testBit 19) (shWidth w) (s.sampled b t w pins) sr)
  else
    let v := shiftStep (w.testBit 19) (shWidth w) sr
    let s := s.each (shWidth w) (fun i s => s.dataDrive b t (bits w 23 20 + i) (v.testBit i))
    (put s (shiftOut (w.testBit 19) (shWidth w) sr)).emit (.shift b t v)

/-- What SHIFTI samples in its next step: the pins given with the command, else as they stand. -/
def State.stepPins (s : State) (b : Nat) (x : Shift) : Nat :=
  (x.samples.getD x.done (BitVec.ofNat 16 (s.get (BAY_PIN.IN b)))).toNat

/-- The bay clock of step `x.done` on the tenon's own clock: its drive edge for SHIFTO, its sample edge for
SHIFTI (R180, R181). -/
def State.stepAt (s : State) (b t : Nat) (x : Shift) : Nat :=
  (if (s.engine (tenKey b t)).genMode = 2 then x.at_ + 1 + x.done * s.get (TEN_CLK.INT b t)
    else s.driveEdge b t (s.edgesBy b t 0 x.at_ + x.done))
  + (if shIn x.word then s.sampleOffset b t else 0)

/-- Take the next step of a shift that waits. -/
def State.stepShift (s : State) (b t : Nat) (x : Shift) : State :=
  let s := s.shiftOne b t x.word (s.stepPins b x)
  s.setEngine (tenKey b t) { s.engine (tenKey b t) with wait := Wait.shift { x with done := x.done + 1 } }

/-- Take the steps that the own clock has reached, up to `fuel` of them. -/
def State.settleSteps (s : State) (b t : Nat) : Nat → State
  | 0 => s
  | fuel + 1 =>
    match (s.engine (tenKey b t)).wait with
    | .shift x =>
      if s.ownClock b t && decide (x.done < shSteps x.word) && decide (s.stepAt b t x ≤ s.bayClock) then
        (s.stepShift b t x).settleSteps b t fuel
      else s
    | _ => s

/-- The edges that CNT has counted of a shift stay counted when the shift is over. -/
def State.settleShift (s : State) (b t : Nat) : State :=
  match (s.engine (tenKey b t)).wait with
  | .shift _ => s.settleCnt b t
  | _ => s

/-- Whether the generator's output is away from IDLE now: between a drive edge and its sample edge. -/
def State.genActive (s : State) (b t : Nat) : Bool :=
  let c := s.bayClock
  let h := s.sampleOffset b t
  decide (s.ownEdgesBy b t h c < s.ownEdgesBy b t 0 c)

/-- Bring a running tenon's shift and the level of its clock pin up to the present bay clock. -/
def State.settleTen (s : State) (b t : Nat) : State :=
  if s.tenState b t = tnRUNNING then
    let s := s.settleSteps b t 48
    if s.get (TEN_CLK.SRC b t) = 1 then
      s.tenDrive b t (s.get (TEN_CLK.CKPIN b t)) (s.on (TEN_CLK.IDLE b t) != s.genActive b t)
    else s
  else s

/-- Bring the pins of the bay's chain ports up to the present bay clock (R197, R239). -/
def State.settleChains (s : State) (b : Nat) : State :=
  s.each 2 (fun k s =>
    let v := s.chainLevels (2 * b + k) s.bayClock
    s.each 6 (fun i s => if s.chainDrives b (8 * k + i) then s.drivePin b (8 * k + i) (v.testBit i) else s))

/-- Bring bay `b` up to the present bay clock. -/
def State.settleBay (s : State) (b : Nat) : State := (s.each 5 (fun t s => s.settleTen b t)).settleChains b

/-! ### Queues (R214 to R220) -/

/-- The queues of logical tenon `l`. -/
def State.queues (s : State) (b l : Nat) : Queues := Tab.get Queues.empty (s.bayRec b).queues l

/-- Items of an input queue that are unread and visible. -/
def Queues.inVis (q : Queues) : Nat := (q.inq.filter (fun (x : Item) => !x.popped && !x.hid)).length

/-- What `BAY_QSTATl` counts: items present, visible ones, output items. -/
def Queues.counts (q : Queues) : Nat × Nat × Nat := (q.inq.length, q.inVis, q.outq.length)

/-- Replace the queues of logical tenon `l`; the counts at the start of the bay clock are kept (R217). -/
def State.setQueues (s : State) (b l : Nat) (q : Queues) : State :=
  let old := s.queues b l
  let q := { q with
    at_ := s.bayClock, before := if old.at_ = s.bayClock then old.before else old.counts }
  s.setBay b { s.bayRec b with queues := Tab.put Queues.empty (s.bayRec b).queues l q }

/-- The counts at the start of the present bay clock (R217). -/
def State.queueCounts (s : State) (b l : Nat) : Nat × Nat × Nat :=
  let q := s.queues b l
  if q.at_ = s.bayClock then q.before else q.counts

/-- Whether QLINK links logical tenon `l` to the one below it. -/
def State.linkedDown (s : State) (b l : Nat) : Bool := decide (0 < l) && s.bit (BAY_CTL.QLINK b) (l - 1)

/-- The members of the group that `l` leads: itself and the linked ones above. -/
def State.groupSize (s : State) (b l : Nat) : Nat :=
  ((List.range 4).filter (fun k => decide (l ≤ k)
    && (List.range 4).all (fun j => !(decide (l < j) && decide (j ≤ k)) || s.linkedDown b j))).length

/-- The capacity of `l`'s queues: 8 items a member for the lowest of a group, else 0 (R218). -/
def State.qcap (s : State) (b l : Nat) : Nat := if s.linkedDown b l then 0 else 8 * s.groupSize b l

/-- Whether an item is visible to POP at bay clock `c`: it is poppable from the clock after its arrival
(R214, R217). -/
def Item.visible (x : Item) (c : Nat) : Bool := !x.popped && !x.hid && decide (x.came < c)

/-- The item of the highest priority, the oldest among equals: of those of one bay clock, one that a transfer
brought is the younger (R214, R217). -/
def bestItem (xs : List Item) : Option Item :=
  minBy (fun (x : Item) => pack [(7 - x.pri, 3), (x.came, 64), (x.moved.toNat, 1), (x.seqno, 64)]) xs

/-- Take a number of the bay's arrival counter. -/
def State.countItem (s : State) (b : Nat) : State :=
  s.setBay b { s.bayRec b with seqctr := (s.bayRec b).seqctr + 1 }

/-- An item arrives in an input queue that has space (R214); `moved` says that a transfer brings it. -/
def State.arrive (s : State) (b l pri : Nat) (moved : Bool) (v : Word) : State :=
  let q := s.queues b l
  let x := Item.mk v pri (s.bayRec b).seqctr s.bayClock moved false q.marked false
  (s.setQueues b l { q with inq := q.inq ++ [x] }).countItem b

/-- Whether the input queue of `l` has space. -/
def State.inSpace (s : State) (b l : Nat) : Bool := decide ((s.queues b l).inq.length < s.qcap b l)

/-- Whether the output queue of `l` has space. -/
def State.outSpace (s : State) (b l : Nat) : Bool := decide ((s.queues b l).outq.length < s.qcap b l)

/-- POP at bay clock `c` (R214): the item and the queue without it unread; `none` where nothing is
visible. -/
def Queues.pop (q : Queues) (c : Nat) : Option (Word × Queues) :=
  (bestItem (q.inq.filter (fun (x : Item) => x.visible c))).map (fun x =>
    (x.val, { q with inq := q.inq.map (fun (y : Item) =>
      if y.seqno = x.seqno then { y with popped := true, late := q.marked } else y) }))

/-- MARK at bay clock `c` (R214): the arrivals of that clock come after it (R217). -/
def Queues.mark (q : Queues) (c : Nat) : Queues :=
  { q with marked := true, inq := q.inq.map (fun (y : Item) =>
    if y.popped then { y with late := false } else { y with hid := y.hid || y.came == c }) }

/-- REWIND (R214). -/
def Queues.rewind (q : Queues) : Queues :=
  if !q.marked then q
  else { q with inq := q.inq.map (fun (y : Item) => if y.popped && y.late then { y with popped := false } else y) }

/-- RELEASE (R214). -/
def Queues.release (q : Queues) : Queues :=
  { q with marked := false, inq := (q.inq.filter (fun (y : Item) => !y.popped)).map (fun (y : Item) => { y with hid := false }) }

/-- The consumer takes an item of the output queue (R216). -/
def Queues.take (q : Queues) : Option (Item × Queues) :=
  (bestItem q.outq).map (fun x =>
    (x, { q with outq := q.outq.filter (fun (y : Item) => y.seqno != x.seqno) }))

/-- The tenon pushes an item into an output queue that has space (R216). -/
def State.outPush (s : State) (b l pri : Nat) (v : Word) : State :=
  let q := s.queues b l
  let x := Item.mk v pri (s.bayRec b).seqctr s.bayClock false false false false
  (s.setQueues b l { q with outq := q.outq ++ [x] }).countItem b

/-! ### Streams (R221 to R223) -/

/-- A paced operation serves logical tenon `l` of bay `b`. -/
def Op.streams (o : Op) (b l : Nat) : Bool := o.paced && o.entry.bay == b && o.entry.tenon == l

/-- The word after the last one that a paced read has brought. -/
def Op.arrived (o : Op) : Nat := min (8 * o.moved) (o.first + o.count)

/-- Whether a paced operation has exchanged all its words with the queue. -/
def Op.drained (o : Op) : Bool := decide (o.first + o.count ≤ o.taken)

/-- A paced operation waits for its queue from now on, or since it began to (R223). -/
def Op.stalls (o : Op) (now : Nat) : Op := { o with idleAt := some (o.idleAt.getD now) }

/-- Let a paced operation exchange up to `fuel` words with its queue (R221); an outward one takes no more
items than its next beat holds. -/
def State.pumpOp (s : State) (id fuel : Nat) : State :=
  match fuel with
  | 0 => s
  | fuel + 1 =>
    match s.op id with
    | none => s
    | some o =>
      let b := o.entry.bay
      let l := o.entry.tenon
      if o.write then
        if o.drained || 8 * (o.granted + 1) ≤ o.taken then s.putOp { o with idleAt := none }
        else
          match (if s.qcap b l = 0 then none else (s.queues b l).take) with
          | none => s.putOp (o.stalls s.now)
          | some (x, q) =>
            let s := (s.setQueues b l q).putOp { o with
              data := Tab.put 0 o.data o.taken x.val, taken := o.taken + 1, idleAt := none }
            s.pumpOp id fuel
      else if o.arrived ≤ o.taken then s.putOp { o with idleAt := none }
      else if s.inSpace b l then
        let s := (s.arrive b l (s.get (BAY_STREAM.PRI b l)) true (Tab.get 0 o.data o.taken)).putOp
          { o with taken := o.taken + 1, idleAt := none }
        s.pumpOp id fuel
      else s.putOp (o.stalls s.now)

/-- Remove the closed operations that nothing waits for. -/
def State.reapOps (s : State) : State :=
  { s with tbl := { s.tbl with ops := s.tbl.ops.filter (fun (o : Op) =>
      !(o.closed && o.purpose == Purpose.drain && (o.write || !o.paced || o.drained))) } }

/-- Let every stream of logical tenon `l` go on as its queues allow. -/
def State.pump (s : State) (b l : Nat) : State :=
  ((s.tbl.ops.filter (fun (o : Op) => o.streams b l)).foldl
    (fun s o => (s.pumpOp o.id 64).judgeWait o.req) s).reapOps

/-- The report of a stream transfer that ends early (R223, R233). -/
def State.streamEnds (s : State) (b l reason : Nat) : State :=
  s.raise Kind.TEN_STREAM_ABORT (reason * 65536 + b * 256 + s.physical b l * 16 + l)

/-- The words that an outward transfer has taken from its queue and not written yet. -/
def Op.untold (o : Op) : List Word :=
  if o.write then Tab.getList 0 o.data (max o.first (8 * o.moved)) (o.taken - max o.first (8 * o.moved)) else []

/-- A MOVE's stream transfer ends early (R223): what it has taken is written, what it has not moved stays
unmoved. -/
def State.abortStream (s : State) (o : Op) (reason : Nat) : State :=
  let s := if s.homeUp then s.putDataWords o.entry.dataPtr (max o.first (8 * o.moved)) o.untold else s
  let s := s.dropOps (fun x => x.id == o.id)
  let s := { s with tbl := { s.tbl with ops := s.tbl.ops.map (fun (x : Op) =>
    if x.id == o.id then { x with failed := false, taken := x.first + x.count } else x) } }
  s.streamEnds o.entry.bay o.entry.tenon reason

/-- The open stream transfers of logical tenon `l` by MOVEs. -/
def State.streamOps (s : State) (b l : Nat) : List Op :=
  s.tbl.ops.filter (fun (o : Op) => o.streams b l && !o.closed)

/-- End every stream transfer of logical tenon `l` (R223): each MOVE's, and an automatic one. -/
def State.abortStreams (s : State) (b l reason : Nat) : State :=
  let s := (s.streamOps b l).foldl (fun s o => s.abortStream o reason) s
  if s.on (BAY_STREAM.AUTO b l) then
    (s.setBay b { s.bayRec b with autoAt := Tab.put none (s.bayRec b).autoAt l none }).streamEnds b l reason
  else s

/-- Whether a stream transfer of `l` is open: a MOVE, or an automatic stream. -/
def State.streaming (s : State) (b l : Nat) : Bool :=
  s.tbl.ops.any (fun (o : Op) => o.streams b l) || s.on (BAY_STREAM.AUTO b l)

/-! ### Running and stopping (R209 to R213) -/

/-- The side field of an instruction that has ended is applied (R177). -/
def State.endSide (s : State) (b t : Nat) : State :=
  let e := s.engine (tenKey b t)
  match e.side with
  | none => s
  | some w => (s.setEngine (tenKey b t) { e with side := none }).sideSet b t w

/-- The last instruction of an engine is over: it waits for nothing, and its clocks have passed. -/
def State.insnOver (s : State) (e : Eng) : Bool :=
  decide (e.ready ≤ s.now * 64) && (match e.wait with
    | .none | .clocks | .wclk => true
    | .shift x => x.timed
    | _ => false)

/-- The address of the instruction that an engine executes now: the last one issued until it is over, then the
one to issue next. -/
def State.atPc (s : State) (e : Eng) : Nat := if s.insnOver e then e.pc else e.issued

/-- Record a stop cause: of several on one bay clock the lowest-numbered other than 1 (R212). -/
def State.rankCause (s : State) (b t cause : Nat) : State :=
  let was := s.get (TEN_STAT.CAUSE b t)
  if (s.engine (tenKey b t)).stopAt = s.bayClock + 1 && (cause == 1 || (was != 1 && decide (was ≤ cause))) then s
  else s.set (TEN_STAT.CAUSE b t) cause

/-- Stop a RUNNING tenon (R211): the instruction in progress is abandoned, the generator stops.  Of a tenon
that has stopped on this bay clock only the cause may change (R212). -/
def State.stopTenon (s : State) (b t cause : Nat) : State :=
  if s.tenState b t = tnRUNNING then
    let s := s.settleTen b t
    let ended := s.insnOver (s.engine (tenKey b t))
    let s := if ended then s.endSide b t else s
    let s := (s.set (TEN_STAT.STATE b t) tnSTOPPED).set (TEN_STAT.CAUSE b t) cause
    let s := s.setGen b t 0 s.bayClock
    let e := s.engine (tenKey b t)
    s.setEngine (tenKey b t) { e with
      wait := Wait.none, side := none, stopAt := s.bayClock + 1
      pc := if ended then e.pc else e.issued, ready := if ended then e.ready else (s.bayClock + 1) * 250 }
  else if s.tenState b t = tnSTOPPED && (s.engine (tenKey b t)).stopAt == s.bayClock + 1 then s.rankCause b t cause
  else s

/-- The checks of R210. -/
def State.startOk (s : State) (b t : Nat) : Bool :=
  let mort := s.get (TEN_PINS.MORT b t)
  let oe := s.get (TEN_PINS.OE b t)
  let ck := s.get (TEN_CLK.CKPIN b t)
  let src := s.get (TEN_CLK.SRC b t)
  let sel := s.get (TEN_CFG.SELPIN b t)
  s.on (BAY_CTL.BANKOK b)
    && (List.range 16).all (fun p =>
      (!oe.testBit p || mort.testBit p)
        && (!mort.testBit p || (s.pinFn b p == 1
          && (List.range 4).all (fun l => s.physical b l == t
            || !(s.bit (TEN_PINS.MORT b (s.physical b l)) p)))))
    && (match src with
        | 1 => mort.testBit ck && oe.testBit ck
        | 2 => mort.testBit ck && !oe.testBit ck
        | _ => true)
    && (!s.on (TEN_CFG.TGT b t) || (src == 2 && mort.testBit sel && !oe.testBit sel))

/-- START of a tenon (R210): it begins on the next bay clock. -/
def State.startTenon (s : State) (b t : Nat) : State :=
  if s.tenState b t != tnSTOPPED then s
  else if !s.startOk b t then s.tenConfig b t (0x18 + 8 * t)
  else
    let s := s.set (TEN_STAT.STATE b t) tnRUNNING
    let s := s.setGen b t 0 s.bayClock
    let e := s.engine (tenKey b t)
    s.setEngine (tenKey b t) { e with
      z := false, n := false, c := false, v := false, stack := [], wait := Wait.none
      pc := s.get (TEN_CTL.ENTRY b t), issued := s.get (TEN_CTL.ENTRY b t), ready := (s.bayClock + 1) * 250 }

/-- A tenon begins its self-test, to return to state `back`, and lets its pins go (R209, R224). -/
def State.beginTest (s : State) (b t back : Nat) : State :=
  let was := s.padsOf b
  let s := (s.set (TEN_STAT.STATE b t) tnSELFTEST).settlePads b was
  s.setEngine (tenKey b t) { s.engine (tenKey b t) with
    testOf := some back, testEnd := s.bayClock + 2048 }

/-- A write of `TENt_CTL` (R210 to R212, R225). -/
def State.writeTenCtl (s : State) (b t : Nat) (v : Word) : State :=
  let st := s.tenState b t
  let s := s.set (TEN_CTL.ENTRY b t) (wbits v 7 0)
  if wbits v 9 9 = 1 && st == tnRUNNING then s.stopTenon b t 1
  else if wbits v 8 8 = 1 && wbits v 9 9 = 0 && st == tnSTOPPED then s.startTenon b t
  else if wbits v 10 10 = 1 && (st == tnSTOPPED || st == tnFAILED) then s.beginTest b t st
  else s

/-- The tenon may take a write of its configuration (R213). -/
def State.tenWritable (s : State) (b t : Nat) : Bool := s.tenState b t == tnSTOPPED

/-- A write of `TENt_CFG` (R213). -/
def State.writeTenCfg (s : State) (b t : Nat) (v : Word) : State :=
  if !s.tenWritable b t || wbits v 10 8 = 7 then s.tenConfig b t (0x19 + 8 * t)
  else
    let s := s.settleCnt b t
    let s := ((s.set (TEN_CFG.TGT b t) (wbits v 23 23)).set (TEN_CFG.SELPOL b t) (wbits v 22 22)).set
      (TEN_CFG.SELPIN b t) (wbits v 19 16)
    ((s.set (TEN_CFG.CPIN b t) (wbits v 15 12)).set (TEN_CFG.CSRC b t) (wbits v 10 8)).set
      (TEN_CFG.SSWHEN b t) (wbits v 0 0)

/-- A write of `TENt_CLK` (R203, R213). -/
def State.writeTenClk (s : State) (b t : Nat) (v : Word) : State :=
  if !s.tenWritable b t || wbits v 39 24 < 4 || wbits v 39 24 ≤ wbits v 47 40 || wbits v 7 6 = 3 then
    s.tenConfig b t (0x1A + 8 * t)
  else
    let s := s.settleCnt b t
    let s := ((s.set (TEN_CLK.SAMP b t) (wbits v 47 40)).set (TEN_CLK.INT b t) (wbits v 39 24)).set
      (TEN_CLK.FRAC b t) (wbits v 23 8)
    (((s.set (TEN_CLK.SRC b t) (wbits v 7 6)).set (TEN_CLK.IDLE b t) (wbits v 5 5)).set
      (TEN_CLK.CKPIN b t) (wbits v 3 0)).restClocks b

/-- A write of `TENt_PINS` (R213). -/
def State.writeTenPins (s : State) (b t : Nat) (v : Word) : State :=
  if !s.tenWritable b t then s.tenConfig b t (0x1B + 8 * t)
  else
    let was := s.padsOf b
    let s := (s.set (TEN_PINS.OE b t) (wbits v 47 32)).set (TEN_PINS.MORT b t) (wbits v 31 16)
    ((((s.set (TEN_PINS.S3 b t) (wbits v 15 12)).set (TEN_PINS.S2 b t) (wbits v 11 8)).set
      (TEN_PINS.S1 b t) (wbits v 7 4)).set (TEN_PINS.S0 b t) (wbits v 3 0)).settlePads b was |>.restClocks b

/-- BANKOK rises or falls (R196); its fall is a TEN_BANK cause (R459). -/
def State.setBankOk (s : State) (b : Nat) (ok : Bool) : State :=
  let s := s.settleBay b
  let was := s.on (BAY_CTL.BANKOK b)
  let pads := s.padsOf b
  let s := (s.setB (BAY_CTL.BANKOK b) ok).settlePads b pads
  if ok then s.endLevel Kind.TEN_BANK (b * 256)
  else if was then s.raiseLevel Kind.TEN_BANK (b * 256) else s

/-- A write of QLINK (R218): accepted while all four logical tenons are stopped and the bay's queues
are empty. -/
def State.writeQlink (s : State) (b q : Nat) : State :=
  if q = s.get (BAY_CTL.QLINK b) then s
  else if (List.range 4).all (fun l => s.tenState b (s.physical b l) != tnRUNNING
      && (s.queues b l).inq.isEmpty && (s.queues b l).outq.isEmpty) then s.set (BAY_CTL.QLINK b) q
  else s.raise Kind.TEN_CONFIG (b * 256)

/-- FLUSH (R220, R223). -/
def State.flushQueues (s : State) (b l : Nat) : State :=
  if s.tenState b (s.physical b l) != tnRUNNING && !(s.tbl.ops.any (fun (o : Op) => o.streams b l)) then
    let s := s.setQueues b l Queues.empty
    if s.on (BAY_STREAM.AUTO b l) then s.abortStreams b l 3 else s
  else s.tenConfig b (s.physical b l) (0x0B + 4 * l)

/-- A write of `BAY_QINl` (R219). -/
def State.queueIn (s : State) (b l : Nat) (v : Word) : State :=
  if s.inSpace b l then s.arrive b l (s.get (BAY_STREAM.PRI b l)) false v
  else s.inc (BAY_QSTAT.DROP b l)

/-- A read of `BAY_QOUTl` (R219): the value and the state after it. -/
def State.queueOut (s : State) (b l : Nat) : State × Word :=
  if s.on (BAY_STREAM.AUTO b l) && s.on (BAY_STREAM.DIR b l) then (s, 0)
  else
    match (if s.qcap b l = 0 then none else (s.queues b l).take) with
    | none => (s, 0)
    | some (x, q) => ((s.setQueues b l q).set (BAY_QSTAT.LASTPRI b l) x.pri, x.val)

/-! ### Substitution (R228 to R230) -/

/-- The record of the spare: 7 where the map names none. -/
def State.spare (s : State) (b : Nat) : Nat := s.get (BAY_MAP.SPARE b)

/-- Request a substitution of logical tenon `l` (R228); a refused command shows its reason in `BAY_SWAP`. -/
def State.requestSwap (s : State) (b l : Nat) (copy retire policy : Bool) : State :=
  let p := s.physical b l
  let sp := s.spare b
  if s.get (BAY_SWAP.STATE b) = 0 && decide (sp < 5) && s.tenState b sp == tnSTANDBY
      && s.on (TEN_TEST.LAST b sp) then
    let s := ((s.set (BAY_SWAP.STATE b) 1).set (BAY_SWAP.RESULT b) 0).set (BAY_SWAP.REASON b) 0
    s.setBay b { s.bayRec b with
      swap := some (.mk l p sp copy retire (!copy) (s.bayClock + 256) 0) }
  else if policy then s.raise Kind.TEN_NO_SPARE (b * 256 + p * 16 + l)
  else ((s.set (BAY_SWAP.RESULT b) 2).set (BAY_SWAP.REASON b) 1).raise Kind.TEN_SWAP_FAIL
    (1 * 65536 + b * 256 + p * 16 + l)

/-- A substitution ends without a swap (R229). -/
def State.failSwap (s : State) (b reason : Nat) : State :=
  match (s.bayRec b).swap with
  | none => s
  | some w =>
    let s := ((s.set (BAY_SWAP.STATE b) 0).set (BAY_SWAP.RESULT b) 2).set (BAY_SWAP.REASON b) reason
    let s := s.setBay b { s.bayRec b with swap := none }
    s.raise Kind.TEN_SWAP_FAIL (reason * 65536 + b * 256 + w.old * 16 + w.log)

/-- A write of `BAY_SWAP` (R228, R229). -/
def State.writeSwap (s : State) (b : Nat) (v : Word) : State :=
  let s := ((s.set (BAY_SWAP.RETIRE b) (wbits v 3 3)).set (BAY_SWAP.COPY b) (wbits v 2 2)).set
    (BAY_SWAP.LOG b) (wbits v 1 0)
  let s := if wbits v 5 5 = 1 then s.failSwap b 2 else s
  if wbits v 4 4 = 1 then s.requestSwap b (wbits v 1 0) (wbits v 2 2 = 1) (wbits v 3 3 = 1) false
  else s

/-- A pending substitution whose copy is complete is armed at a matrix boundary (R229); a self-test
of the spare in progress is abandoned. -/
def State.armSwap (s : State) (b : Nat) : State :=
  match (s.bayRec b).swap with
  | none => s
  | some w =>
    if w.copied && s.get (BAY_SWAP.STATE b) == 1 then
      let s := s.set (BAY_SWAP.STATE b) 2
      let s := if s.tenState b w.new = tnSELFTEST then s.set (TEN_STAT.STATE b w.new) tnSTANDBY else s
      s.setBay b { s.bayRec b with swap := some { w with cycle := s.cycKey } }
    else s

/-- The basic cycle in which the substitution was armed has ended without a swap point: pending again
(R229). -/
def State.disarmSwap (s : State) (b : Nat) : State :=
  match (s.bayRec b).swap with
  | none => s
  | some w =>
    if s.get (BAY_SWAP.STATE b) = 2 && w.cycle != s.cycKey then s.set (BAY_SWAP.STATE b) 1 else s

/-- A swap point of tenon `t` (R229): STOPPED or FAILED, at an instruction's issue, or in POP, PUSH,
WPIN or WAIT. -/
def State.swapPoint (s : State) (b t : Nat) : Bool :=
  s.tenState b t == tnSTOPPED || s.tenState b t == tnFAILED ||
    (s.tenState b t == tnRUNNING &&
      (match (s.engine (tenKey b t)).wait with
        | .none | .clocks | .pop | .push | .pin => true
        | .shift _ | .wclk => s.insnOver (s.engine (tenKey b t))
        | _ => false))

/-- The configuration registers of tenon `t`, which its substitute takes over. -/
def tenConfigFields (b t : Nat) : List Field :=
  [TEN_CTL.ENTRY b t, TEN_CFG.TGT b t, TEN_CFG.SELPOL b t, TEN_CFG.SELPIN b t, TEN_CFG.CPIN b t,
   TEN_CFG.CSRC b t, TEN_CFG.SSWHEN b t, TEN_CLK.SAMP b t, TEN_CLK.INT b t, TEN_CLK.FRAC b t,
   TEN_CLK.SRC b t, TEN_CLK.IDLE b t, TEN_CLK.CKPIN b t, TEN_PINS.OE b t, TEN_PINS.MORT b t,
   TEN_PINS.S3 b t, TEN_PINS.S2 b t, TEN_PINS.S1 b t, TEN_PINS.S0 b t]

/-- The swap of an armed substitution (R229, R230): S takes P's complete state, the map names S, P
stops with cause 6 and becomes the spare, or FAILED. -/
def State.swapTenons (s : State) (b : Nat) (w : Swap) : State :=
  let s := s.settleBay b
  let pads := s.padsOf b
  let was := s.tenState b w.old
  let s := s.settleCnt b w.old
  let s := ((tenConfigFields b w.new).zip (tenConfigFields b w.old)).foldl
    (fun s f => s.set f.1 (s.get f.2)) s
  let p := s.engine (tenKey b w.old)
  let n := s.engine (tenKey b w.new)
  let s := s.setEngine (tenKey b w.new) { p with testOf := none, testEnd := n.testEnd, ceCount := n.ceCount }
  let s := s.setPhysical b w.log w.new
  let s := s.set (TEN_STAT.STATE b w.new) (if was = tnRUNNING then tnRUNNING else tnSTOPPED)
  let s := s.set (TEN_STAT.CAUSE b w.new) (s.get (TEN_STAT.CAUSE b w.old))
  let s := s.setEngine (tenKey b w.old) { p with wait := Wait.none, side := none, genMode := 0 }
  let s := s.set (TEN_STAT.CAUSE b w.old) 6
  let s := (s.set (BAY_SWAP.STATE b) 0).set (BAY_SWAP.RESULT b) 1
  let s := s.setBay b { s.bayRec b with swap := none }
  let s := s.raise Kind.TEN_SPARE_IN (w.old * 65536 + b * 256 + w.new * 16 + w.log)
  let s := s.settlePads b pads
  if w.retire then (s.set (TEN_STAT.STATE b w.old) tnFAILED).set (BAY_MAP.SPARE b) 7
  else
    ((s.set (BAY_MAP.SPARE b) w.old).set (TEN_TEST.LAST b w.old) 0).beginTest b w.old tnSTANDBY

/-- A policy request of R227 for an in-service tenon. -/
def State.policySwap (s : State) (b t : Nat) : State :=
  match s.logical b t with
  | none => s
  | some l => if s.get (BAY_SPARE.POLICY b) = 1 then s.requestSwap b l true true true else s

/-- Count correctable store errors of a tenon (R190, R227), which are errors of its bay's SRAM bank too
(R487). -/
def State.countStoreCe (s : State) (b t ce : Nat) : State :=
  let s := s.sramErrors (21 + b) ce
  let e := s.engine (tenKey b t)
  let s := (s.addSat (TEN_TEST.CE b t) ce).setEngine (tenKey b t) { e with ceCount := e.ceCount + ce }
  let lim := s.get (BAY_SPARE.CELIM b)
  if (s.logical b t).isSome && decide (e.ceCount < lim) && decide (lim ≤ e.ceCount + ce) then
    (s.raise Kind.TEN_WEAR (s.tenAddr b t)).policySwap b t
  else s

/-- The bay at Hold entry (R198): running tenons stop with cause 5, streams end, safe levels are
driven. -/
def State.bayHold (s : State) (b : Nat) : State :=
  let s := (s.settleBay b).each 5 (fun t s => s.stopTenon b t 5)
  let s := s.each 4 (fun l s =>
    if s.streaming b l then s.abortStreams b l 3 else s)
  s.drivePins b (s.get (BAY_SAFE.EN b)) (s.get (BAY_SAFE.VAL b))

/-- The words of a list that lie in the store of tenon `t`. -/
def inStore (ws : List Nat) (b t : Nat) : List Nat :=
  ws.filter (fun x => inSpan x (storeWord b t 0) (storeWord b t 256))

end Sys2Proof.Machine
end

