-- ==== Sys2Proof/Machine/Operands.lean ====
section
/-! DEFINITION. The formats of a Detaica instruction word with the fields each opcode uses, and which words are reserved encodings (R160 to R166). -/

namespace Sys2Proof.Machine

/-- IMM sign-extended and zero-extended to 48 bits (R162). -/
def sext24 (n : Nat) : Word := (BitVec.ofNat 24 n).signExtend 48
def zext24 (n : Nat) : Word := word (n % 2 ^ 24)

/-- How an opcode lays out its operands: the format of R161 with the fields it uses. -/
inductive Format where
  /-- No operands. -/
  | n
  /-- R: which of RD, RA, RB it uses. -/
  | r (rd ra rb : Bool)
  /-- I: which of RD, RA it uses; `shift` where IMM is a shift amount. -/
  | i (rd ra shift : Bool)
  | x
  /-- B: whether COND, RA are used. -/
  | b (cond ra : Bool)
  /-- P: WAIT_PHASE (true) or RDPH. -/
  | p (wait : Bool)
  | f
  | g
  /-- SH: SHIFTI (true) or SHIFTO. -/
  | sh (inp : Bool)
  | wc
  | wp
  /-- Q: PUSH (true) or POP. -/
  | q (push : Bool)
  | ck
  deriving DecidableEq, Repr

/-- The format of an opcode in the common core (R162). -/
def coreFormat (op : Nat) : Option Format :=
  match op with
  | 0x00 | 0x01 | 0x19 => some .n
  | 0x02 => some (.r true true false)
  | 0x03 | 0x04 => some (.i true false false)
  | 0x05 | 0x06 | 0x07 | 0x08 | 0x09 | 0x0A | 0x0B | 0x0C => some (.r true true true)
  | 0x0D | 0x0E | 0x0F | 0x10 => some (.i true true false)
  | 0x11 | 0x12 | 0x13 => some (.i true true true)
  | 0x14 | 0x16 => some (.r false true true)
  | 0x15 => some (.i false true false)
  | 0x17 => some (.b true false)
  | 0x18 => some (.b false false)
  | 0x1A => some (.b false true)
  | 0x1B => some (.i false false false)
  | 0x1C | 0x1D => some .x
  | 0x1E => some (.r false true false)
  | _ => none

/-- The format of an opcode in a profile: S where `lane`, else T (R160, R162). -/
def formatOf (lane : Bool) (op : Nat) : Option Format :=
  match coreFormat op with
  | some fmt => some fmt
  | none =>
    if lane then
      match op with
      | 0x40 | 0x41 => some (.r true true true)
      | 0x42 | 0x43 | 0x44 | 0x45 | 0x48 => some (.r false true false)
      | 0x46 => some (.p true)
      | 0x47 => some (.r true true false)
      | 0x49 => some .f
      | 0x4A => some .g
      | 0x4B => some (.r true false false)
      | 0x4C => some (.p false)
      | _ => none
    else
      match op with
      | 0x80 => some (.sh false)
      | 0x81 => some (.sh true)
      | 0x82 => some .wc
      | 0x83 => some .wp
      | 0x84 => some (.r false true false)
      | 0x85 => some (.q false)
      | 0x86 => some (.q true)
      | 0x87 | 0x88 | 0x89 => some .n
      | 0x8A => some .ck
      | _ => none

/-- A register field: a number of the profile where it is used, 0 where it is not. -/
def regOk (lane used : Bool) (n : Nat) : Bool := if used then lane || decide (n < 8) else n == 0

/-- The operands of a word are no reserved encoding under its format (R161, R165, R166). -/
def operandsOk (lane : Bool) (fmt : Format) (w : Nat) : Bool :=
  match fmt with
  | .n => bits w 31 0 == 0
  | .r rd ra rb => regOk lane rd (fRD w) && regOk lane ra (fRA w) && regOk lane rb (fRB w) && bits w 19 0 == 0
  | .i rd ra shift => regOk lane rd (fRD w) && regOk lane ra (fRA w) && (!shift || decide (fIMM w < 48))
  | .x => regOk lane true (fRD w) && regOk lane true (fRA w) && bits w 23 12 == 0
      && decide (fLSB w + fWM1 w ≤ 47)
  | .b cond ra => (if cond then fRD w != 15 else fRD w == 0) && regOk lane ra (fRA w)
      && bits w 23 14 == 0 && (lane || bits w 13 8 == 0)
  | .p wait => (if wait then bits w 3 2 != 0 else fRA w == 0 && bits w 3 2 == 0) && bits w 23 4 == 0
  | .f => bits w 31 13 == 0 && bits w 7 2 == 0
  | .g => bits w 31 28 == 0 && bits w 23 8 == 0 && bits w 5 4 == 0
  | .sh inp => bits w 18 18 == 0 && bits w 13 0 == 0 && decide (shSteps w * shWidth w ≤ 48)
      && decide (bits w 23 20 + shWidth w ≤ 16)
      && ((inp && bits w 17 17 == 1) || bits w 16 14 == 0)
  | .wc => bits w 29 28 == 0 && bits w 23 16 == 0 && (decide (2 ≤ bits w 31 30) || fRA w == 0)
  | .wp => bits w 31 28 == 0 && bits w 23 1 == 0
  | .q push => (if push then fRD w == 0 && decide (fRA w < 8)
      else fRA w == 0 && decide (fRD w < 8) && bits w 2 0 == 0) && bits w 23 17 == 0 && bits w 15 3 == 0
  | .ck => bits w 31 2 == 0 && bits w 1 0 != 3

/-- A word that its profile executes; every other word is a reserved encoding (R161). -/
def legalWord (lane : Bool) (w : Nat) : Bool :=
  match formatOf lane (opcode w) with
  | none => false
  | some fmt => (!lane || sideField w == 0) && operandsOk lane fmt w

/-! ### Engines and their registers (R158) -/

/-- The key of an engine. -/
def engKey (g : Engine) : Nat :=
  match g with
  | .lane k => k.val
  | .tenon b t => tenKey b.val t.val

/-- Whether an engine is a sequencer lane. -/
def isLane (g : Engine) : Bool :=
  match g with
  | .lane _ => true
  | .tenon _ _ => false

/-- The value of a register: CNT of a tenon counts on while it is read (R158, R207). -/
def State.reg (s : State) (g : Engine) (i : Nat) : Word :=
  match g with
  | .tenon b t => if i = 5 then s.cntNow b.val t.val else Tab.get 0 (s.engine (engKey g)).regs i
  | .lane _ => Tab.get 0 (s.engine (engKey g)).regs i

/-- Write a register.  A count on the bay clock of a write of CNT applies after it: of the bay clock and of the
own generator by the time, of a pin by the edges counted on this clock (R185). -/
def State.setReg (s : State) (g : Engine) (i : Nat) (v : Word) : State :=
  let e := s.engine (engKey g)
  match g with
  | .tenon _ _ =>
    if i = 5 then
      let n := if e.edgeAt = s.bayClock then e.edges else 0
      s.setEngine (engKey g) { e with regs := Tab.put 0 e.regs 5 (v + word n), cntAt := s.bayClock - 1 }
    else s.setEngine (engKey g) { e with regs := Tab.put 0 e.regs i v }
  | .lane _ => s.setEngine (engKey g) { e with regs := Tab.put 0 e.regs i v }

/-- Whether the engine executes instructions now: running, and not inside a wait. -/
def State.runs (s : State) (g : Engine) : Bool :=
  match g with
  | .lane k => s.get (SEQ_LANE.STATE k.val) == 1 && (s.engine k.val).wait == Wait.none
  | .tenon b t => s.tenState b.val t.val == tnRUNNING
      && (match (s.engine (tenKey b.val t.val)).wait with
        | .none | .clocks | .wclk => true
        | .shift x => x.timed
        | _ => false)

/-- One instruction clock in 1/64 tick: 800 MHz for a lane, 400 MHz for a tenon (R158, R186). -/
def clock64 (g : Engine) : Nat :=
  match g with
  | .lane _ => 125
  | .tenon _ _ => 250

/-- When the engine's next instruction issues, in 1/64 tick: on a clock of the engine, when the last one has
ended, or now where that tick has gone by (R186). -/
def State.issueAt (s : State) (g : Engine) : Nat :=
  let c := clock64 g
  let due := ceilDiv (s.engine (engKey g)).ready c * c
  if s.now * 64 < due + 64 then due else ceilDiv (s.now * 64) c * c

/-- The core clock in which the engine fetches its next instruction. -/
def State.fetchTick (s : State) (g : Engine) : Nat := max s.now (ceilDiv (s.issueAt g) 64)

/-- What a fetch in tick `t` meets in the place of word `i` of a store, where a write of that tick has replaced
it (R187). -/
def oldWord (ws : List OldWord) (i t : Nat) : Option OldWord := ws.find? (fun o => o.addr == i && o.at_ == t)

/-- The old words after a write of word `i` in tick `t`: a word written twice keeps what stood there before
(R187). -/
def keepOld (ws : List OldWord) (o : OldWord) : List OldWord :=
  let ws := ws.filter (fun x => x.at_ == o.at_)
  if ws.any (fun x => x.addr == o.addr) then ws else o :: ws

/-- What the fetch of the engine's next instruction meets in its store: the word, an uncorrectable error, a
correctable one (R187, R190). -/
def State.fetches (s : State) (g : Engine) : Nat × Bool × Bool :=
  let pc := (s.engine (engKey g)).pc
  match g with
  | .lane _ =>
    match oldWord s.seqPast pc (s.fetchTick g) with
    | some o => (o.word.toNat, o.ue, o.weak)
    | none => ((Tab.get 0 s.seqStore pc).toNat, s.seqUe.contains pc, s.seqWeak.contains pc)
  | .tenon b t =>
    let i := storeWord b.val t.val pc
    match oldWord s.tenPast i (s.fetchTick g) with
    | some o => (o.word.toNat, o.ue, o.weak)
    | none => ((Tab.get 0 s.tenStore i).toNat, s.tenUe.contains i, s.tenWeak.contains i)

/-- The fetch of the engine's next instruction meets a correctable error (R190). -/
def State.fetchWeak (s : State) (g : Engine) : Bool := (s.fetches g).2.2

/-- The instruction at the program counter, and whether its fetch meets an uncorrectable error. -/
def State.fetchWord (s : State) (g : Engine) : Nat × Bool := ((s.fetches g).1, (s.fetches g).2.1)

end Sys2Proof.Machine
end

