-- ==== Sys2Proof/Machine/Flags.lean ====
section
/-! DEFINITION. The flags of Detaica (R163), the conditions of BR (R164), and the results of the
arithmetic and field instructions (R162, R166). -/

namespace Sys2Proof.Machine

/-- Which flags an instruction writes, and to what; a flag not written is `none`. -/
structure FlagSet where
  z : Option Bool
  n : Option Bool
  c : Option Bool
  v : Option Bool
  deriving DecidableEq, Repr

/-- No flag is written. -/
def FlagSet.keep : FlagSet := .mk none none none none

/-- Z and N of a result. -/
def zn (r : Word) : FlagSet := .mk (some (r == 0)) (some r.msb) none none

/-- The sum and its four flags: C is the carry out of bit 47, V the signed overflow. -/
def addF (a b : Word) : Word × FlagSet :=
  let r := a + b
  (r, .mk (some (r == 0)) (some r.msb) (some (decide (2 ^ 48 ≤ a.toNat + b.toNat)))
    (some (decide (r.toInt ≠ a.toInt + b.toInt))))

/-- The difference and its four flags: C is 1 when no borrow occurs. -/
def subF (a b : Word) : Word × FlagSet :=
  let r := a - b
  (r, .mk (some (r == 0)) (some r.msb) (some (decide (b.toNat ≤ a.toNat)))
    (some (decide (r.toInt ≠ a.toInt - b.toInt))))

/-- A result with Z and N. -/
def znF (r : Word) : Word × FlagSet := (r, zn r)

/-- Only C is written. -/
def cF (c : Bool) : FlagSet := .mk none none (some c) none

/-- Only Z is written. -/
def zF (z : Bool) : FlagSet := .mk (some z) none none none

/-- Write flags to an engine. -/
def Eng.setFlags (e : Eng) (f : FlagSet) : Eng :=
  { e with z := f.z.getD e.z, n := f.n.getD e.n, c := f.c.getD e.c, v := f.v.getD e.v }

/-- Whether a condition holds (R164). -/
def Eng.holds (e : Eng) (cond : Nat) : Bool :=
  match cond with
  | 0x0 => true
  | 0x1 => e.z
  | 0x2 => !e.z
  | 0x3 => e.c
  | 0x4 => !e.c
  | 0x5 => e.n
  | 0x6 => !e.n
  | 0x7 => e.v
  | 0x8 => !e.v
  | 0x9 => e.c && !e.z
  | 0xA => !e.c || e.z
  | 0xB => e.n == e.v
  | 0xC => e.n != e.v
  | 0xD => !e.z && e.n == e.v
  | 0xE => e.z || e.n != e.v
  | _ => false

/-- Shifts by an amount below 64; 48 and more give 0, or 48 copies of bit 47 (R166). -/
def shlW (a : Word) (n : Nat) : Word := a <<< n
def shrW (a : Word) (n : Nat) : Word := a >>> n
def sarW (a : Word) (n : Nat) : Word := a.sshiftRight n

/-- EXT (R162): the field of `wm1 + 1` bits from `lsb`, zero-extended. -/
def extW (a : Word) (lsb wm1 : Nat) : Word := word (a.toNat / 2 ^ lsb % 2 ^ (wm1 + 1))

/-- INS (R162): the low bits of `a` put into `d` at `lsb`. -/
def insW (d a : Word) (lsb wm1 : Nat) : Word :=
  let m : Word := word ((2 ^ (wm1 + 1) - 1) * 2 ^ lsb)
  (d &&& ~~~m) ||| ((a <<< lsb) &&& m)

end Sys2Proof.Machine
end

