-- ==== Sys2Proof/Machine/Detaica.lean ====
section
/-! DEFINITION. Chapter 05: how an engine executes the instruction at its program counter, and the
common core of both profiles.  The S and the T profile have files of their own. -/

namespace Sys2Proof.Machine

/-! ### Fetch, issue, end and stop (R165 to R169, R176, R177, R186) -/

/-- A lane returns to idle (R139): `SEQ_STAT.BUSY` and `SEQ_LANEk.STATE` follow; an operation it
waited for goes on without it (R176). -/
def State.laneIdle (s : State) (k : Nat) : State :=
  let s := (s.set (SEQ_LANE.STATE k) 0).setBit SEQ_STAT.BUSY k false
  let s := s.setEngine k { s.engine k with wait := Wait.none }
  ({ s with tbl := { s.tbl with ops := s.tbl.ops.map (fun (o : Op) =>
      if o.purpose == Purpose.movc k then { o with purpose := Purpose.alone }
      else if (match o.purpose with | .ldw j _ => j == k | _ => false) then { o with purpose := Purpose.drain }
      else o) } }).reapOps

/-- The hub stops lane `k` with a cause (R176, R157). -/
def State.stopLane (s : State) (k cause : Nat) : State :=
  let e := s.engine k
  let s := ((s.set SEQ_ABORT.CAUSE cause).set SEQ_ABORT.LANE k).set SEQ_ABORT.PC (s.atPc e)
  (s.laneIdle k).raise Kind.SEQ_LANE_ABORT (k * 2 ^ 20 + e.entry)

/-- A lane is stopped with its cause, a tenon with TEN_ILLEGAL (R169). -/
def State.illegal (s : State) (g : Engine) (cause : Nat) : State :=
  match g with
  | .lane k => s.stopLane k.val cause
  | .tenon b t =>
    let pc := (s.engine (engKey g)).pc
    let s := s.setEngine (engKey g) { s.engine (engKey g) with side := none }
    (s.stopTenon b.val t.val 3).raise Kind.TEN_ILLEGAL (pc * 65536 + s.tenAddr b.val t.val)

/-- A fetched instruction is uncorrectable: cause 7 of a lane (R176), cause 4 of a tenon (R211). -/
def State.fetchFails (s : State) (g : Engine) : State :=
  match g with
  | .lane k => s.stopLane k.val 7
  | .tenon b t =>
    let pc := (s.engine (engKey g)).pc
    (s.stopTenon b.val t.val 4).raise Kind.TEN_STORE_UE (pc * 65536 + s.tenAddr b.val t.val)

/-- The clock runs to the issue of the engine's next instruction, at a clock of the engine: when the last
one has ended, or now where that tick has gone by (R186).  The side field of the last one is applied if it was due at its end. -/
def State.issue (s : State) (g : Engine) : State :=
  let e := s.engine (engKey g)
  let at_ := s.issueAt g
  let s := s.waitUntil (ceilDiv at_ 64)
  let s := match g with
    | .lane _ => s
    | .tenon b t => (s.settleTen b.val t.val).settleShift b.val t.val
  let s := s.setEngine (engKey g) { s.engine (engKey g) with ready := at_, wait := Wait.none, issued := e.pc }
  match g with
  | .lane _ => s
  | .tenon b t => s.endSide b.val t.val

/-- The side field of an issuing instruction: applied now under SSWHEN = 0, kept for its end under
SSWHEN = 1 (R177). -/
def State.issueSide (s : State) (g : Engine) (w : Nat) : State :=
  match g with
  | .lane _ => s
  | .tenon b t =>
    if s.on (TEN_CFG.SSWHEN b.val t.val) then
      s.setEngine (engKey g) { s.engine (engKey g) with side := some w }
    else s.sideSet b.val t.val w

/-- An instruction ends after `clocks` instruction clocks and goes on at `pc`: a tenon's counter
wraps in its store, a lane that would leave its store is stopped (R167). -/
def State.finish (s : State) (g : Engine) (clocks pc : Nat) : State :=
  let e := s.engine (engKey g)
  let ready := e.ready + clocks * clock64 g
  match g with
  | .lane k => if 16384 ≤ pc then s.stopLane k.val 3 else s.setEngine k.val { e with pc := pc, ready := ready }
  | .tenon _ _ => s.setEngine (engKey g) { e with pc := pc % 256, ready := ready }

/-- The engine's program counter. -/
def State.pc (s : State) (g : Engine) : Nat := (s.engine (engKey g)).pc

/-- An instruction ends and the next one follows it. -/
def State.finishNext (s : State) (g : Engine) (clocks : Nat) : State := s.finish g clocks (s.pc g + 1)

/-- Write flags of an engine. -/
def State.flags (s : State) (g : Engine) (f : FlagSet) : State :=
  s.setEngine (engKey g) ((s.engine (engKey g)).setFlags f)

/-- A correctable error met by a fetch counts for wear (R190, R227, R487). -/
def State.countFetch (s : State) (g : Engine) : State :=
  if s.fetchWeak g then
    match g with
    | .lane _ => s.sramErrors 20 1
    | .tenon b t => s.countStoreCe b.val t.val 1
  else s

/-- The instruction whose issue falls on the bay clock of the tenon's stop: where it is a stop cause itself, it
is ranked with the other (R211, R212). -/
def State.lateCause (s : State) (g : Engine) (op : Nat) : State :=
  match g with
  | .lane _ => s
  | .tenon b t =>
    let e := s.engine (engKey g)
    let f := s.fetchWord g
    if s.tenState b.val t.val != tnSTOPPED || e.stopAt != s.bayClock + 1 || decide (s.now * 64 < e.ready) then s
    else if f.2 then s.fetchFails g
    else if !legalWord false f.1 then s.illegal g 2
    else if opcode f.1 == op && op == 0x01 then s.stopTenon b.val t.val 2
    else if opcode f.1 == op && op == 0x18 && decide (2 ≤ e.stack.length) then s.illegal g 4
    else if opcode f.1 == op && op == 0x19 && e.stack.isEmpty then s.illegal g 5
    else s

/-- The clocks of a taken branch (R186). -/
def takenClocks (g : Engine) : Nat := if isLane g then 2 else 1

/-- Execute the instruction at the engine's program counter, where it is one of opcode `op`: `body`
is its effect.  The engine must be running and not inside a wait; an uncorrectable or a reserved word
stops it instead, whatever command was given. -/
def runInsn (g : Engine) (op : Nat) (body : State → Nat → State) (s : State) : State :=
  if !s.runs g then s.lateCause g op
  else
    let f := s.fetchWord g
    if f.2 then (s.issue g).fetchFails g
    else if !legalWord (isLane g) f.1 then ((s.issue g).countFetch g).illegal g 2
    else if opcode f.1 != op then s
    else body (((s.issue g).countFetch g).issueSide g f.1) f.1

/-- An instruction that writes `f ra rb` to RD with its flags. -/
def aluR (g : Engine) (op : Nat) (f : Word → Word → Word × FlagSet) (s : State) : State :=
  runInsn g op (fun s w =>
    let r := f (s.reg g (fRA w)) (s.reg g (fRB w))
    ((s.setReg g (fRD w) r.1).flags g r.2).finishNext g 1) s

/-- An instruction that writes `f ra imm` to RD with its flags. -/
def aluI (g : Engine) (op : Nat) (f : Word → Nat → Word × FlagSet) (s : State) : State :=
  runInsn g op (fun s w =>
    let r := f (s.reg g (fRA w)) (fIMM w)
    ((s.setReg g (fRD w) r.1).flags g r.2).finishNext g 1) s

/-- An instruction that writes flags only. -/
def flagsOnly (g : Engine) (op : Nat) (f : State → Nat → FlagSet) (s : State) : State :=
  runInsn g op (fun s w => (s.flags g (f s w)).finishNext g 1) s

/-! ### The common core (R162) -/

/-- NOP. -/
def execNop (g : Engine) (s : State) : Result := .next (runInsn g 0x00 (fun s _ => s.finishNext g 1) s)

/-- HALT (R167). -/
def execHalt (g : Engine) (s : State) : Result :=
  .next (runInsn g 0x01 (fun s _ =>
    match g with
    | .lane k => s.laneIdle k.val
    | .tenon b t => (s.endSide b.val t.val).stopTenon b.val t.val 2) s)

/-- MOV. -/
def execMov (g : Engine) (s : State) : Result := .next (aluR g 0x02 (fun a _ => (a, FlagSet.keep)) s)

/-- MOVI. -/
def execMovi (g : Engine) (s : State) : Result :=
  .next (aluI g 0x03 (fun _ i => (sext24 i, FlagSet.keep)) s)

/-- MOVH: bits [47:24] of RD. -/
def execMovh (g : Engine) (s : State) : Result :=
  .next (runInsn g 0x04 (fun s w =>
    (s.setReg g (fRD w) (word (fIMM w * 2 ^ 24 + (s.reg g (fRD w)).toNat % 2 ^ 24))).finishNext g 1) s)

/-- ADD. -/
def execAdd (g : Engine) (s : State) : Result := .next (aluR g 0x05 addF s)

/-- SUB. -/
def execSub (g : Engine) (s : State) : Result := .next (aluR g 0x06 subF s)

/-- AND. -/
def execAnd (g : Engine) (s : State) : Result := .next (aluR g 0x07 (fun a b => znF (a &&& b)) s)

/-- OR. -/
def execOr (g : Engine) (s : State) : Result := .next (aluR g 0x08 (fun a b => znF (a ||| b)) s)

/-- XOR. -/
def execXor (g : Engine) (s : State) : Result := .next (aluR g 0x09 (fun a b => znF (a ^^^ b)) s)

/-- SHL. -/
def execShl (g : Engine) (s : State) : Result :=
  .next (aluR g 0x0A (fun a b => znF (shlW a (wbits b 5 0))) s)

/-- SHR. -/
def execShr (g : Engine) (s : State) : Result :=
  .next (aluR g 0x0B (fun a b => znF (shrW a (wbits b 5 0))) s)

/-- SAR. -/
def execSar (g : Engine) (s : State) : Result :=
  .next (aluR g 0x0C (fun a b => znF (sarW a (wbits b 5 0))) s)

/-- ADDI. -/
def execAddi (g : Engine) (s : State) : Result := .next (aluI g 0x0D (fun a i => addF a (sext24 i)) s)

/-- ANDI. -/
def execAndi (g : Engine) (s : State) : Result := .next (aluI g 0x0E (fun a i => znF (a &&& zext24 i)) s)

/-- ORI. -/
def execOri (g : Engine) (s : State) : Result := .next (aluI g 0x0F (fun a i => znF (a ||| zext24 i)) s)

/-- XORI. -/
def execXori (g : Engine) (s : State) : Result := .next (aluI g 0x10 (fun a i => znF (a ^^^ zext24 i)) s)

/-- SHLI. -/
def execShli (g : Engine) (s : State) : Result := .next (aluI g 0x11 (fun a i => znF (shlW a i)) s)

/-- SHRI. -/
def execShri (g : Engine) (s : State) : Result := .next (aluI g 0x12 (fun a i => znF (shrW a i)) s)

/-- SARI. -/
def execSari (g : Engine) (s : State) : Result := .next (aluI g 0x13 (fun a i => znF (sarW a i)) s)

/-- CMPR. -/
def execCmpr (g : Engine) (s : State) : Result :=
  .next (flagsOnly g 0x14 (fun s w => (subF (s.reg g (fRA w)) (s.reg g (fRB w))).2) s)

/-- CMPRI. -/
def execCmpri (g : Engine) (s : State) : Result :=
  .next (flagsOnly g 0x15 (fun s w => (subF (s.reg g (fRA w)) (sext24 (fIMM w))).2) s)

/-- TST. -/
def execTst (g : Engine) (s : State) : Result :=
  .next (flagsOnly g 0x16 (fun s w => zn (s.reg g (fRA w) &&& s.reg g (fRB w))) s)

/-- BR (R164, R165). -/
def execBr (g : Engine) (s : State) : Result :=
  .next (runInsn g 0x17 (fun s w =>
    if (s.engine (engKey g)).holds (fRD w) then s.finish g (takenClocks g) (fTARGET w)
    else s.finishNext g 1) s)

/-- CALL (R169): a full return stack stops the engine. -/
def execCall (g : Engine) (s : State) : Result :=
  .next (runInsn g 0x18 (fun s w =>
    let e := s.engine (engKey g)
    if (if isLane g then 4 else 2) ≤ e.stack.length then s.illegal g 4
    else
      let s := s.setEngine (engKey g) { e with stack := (if isLane g then e.pc + 1 else (e.pc + 1) % 256) :: e.stack }
      s.finish g (takenClocks g) (fTARGET w)) s)

/-- RET (R169): an empty return stack stops the engine. -/
def execRet (g : Engine) (s : State) : Result :=
  .next (runInsn g 0x19 (fun s _ =>
    let e := s.engine (engKey g)
    match e.stack with
    | [] => s.illegal g 5
    | pc :: rest => (s.setEngine (engKey g) { e with stack := rest }).finish g (takenClocks g) pc) s)

/-- LOOP. -/
def execLoop (g : Engine) (s : State) : Result :=
  .next (runInsn g 0x1A (fun s w =>
    let v := s.reg g (fRA w) - 1
    let s := s.setReg g (fRA w) v
    if v ≠ 0 then s.finish g (takenClocks g) (fTARGET w) else s.finishNext g 1) s)

/-- WAIT (R168). -/
def execWait (g : Engine) (s : State) : Result :=
  .next (runInsn g 0x1B (fun s w =>
    let s := s.finishNext g (fIMM w + 1)
    if isLane g then s
    else s.setEngine (engKey g) { s.engine (engKey g) with wait := Wait.clocks }) s)

/-- EXT. -/
def execExt (g : Engine) (s : State) : Result :=
  .next (runInsn g 0x1C (fun s w =>
    let r := extW (s.reg g (fRA w)) (fLSB w) (fWM1 w)
    ((s.setReg g (fRD w) r).flags g (zn r)).finishNext g 1) s)

/-- INS. -/
def execIns (g : Engine) (s : State) : Result :=
  .next (runInsn g 0x1D (fun s w =>
    let r := insW (s.reg g (fRD w)) (s.reg g (fRA w)) (fLSB w) (fWM1 w)
    ((s.setReg g (fRD w) r).flags g (zn r)).finishNext g 1) s)

/-- JMPR (R165): a lane's target above 14 bits stops it; a tenon takes the low eight bits. -/
def execJmpr (g : Engine) (s : State) : Result :=
  .next (runInsn g 0x1E (fun s w =>
    let v := s.reg g (fRA w)
    if isLane g && wbits v 47 14 != 0 then s.illegal g 3
    else s.finish g (takenClocks g) (if isLane g then wbits v 13 0 else wbits v 7 0)) s)

end Sys2Proof.Machine
end

