-- ==== Sys2Proof/Machine/TenonProfile.lean ====
section
/-! DEFINITION. Chapter 05, T profile: shifting, clock and pin waits, the queues, the generator
(R177 to R185), with target mode (R205, R206) and the writes of the tenons' stores (R189). -/

namespace Sys2Proof.Machine

/-- The engine of tenon `t` of bay `b`. -/
def ten (b : Fin 32) (t : Fin 5) : Engine := .tenon b t

/-- The logical tenon that a running tenon serves. -/
def State.logic (s : State) (b t : Nat) : Nat := (s.logical b t).getD 0

/-- The tenon waits inside its instruction. -/
def State.waits (s : State) (b : Fin 32) (t : Fin 5) (wt : Wait) : State :=
  s.setEngine (tenKey b.val t.val) { s.engine (tenKey b.val t.val) with wait := wt }

/-- A tenon's engine goes on at the present bay clock after a wait. -/
def State.resumeNow (s : State) (b : Fin 32) (t : Fin 5) : State :=
  let e := s.engine (tenKey b.val t.val)
  s.setEngine (tenKey b.val t.val)
    { e with wait := Wait.none, ready := max e.ready (ceilDiv (s.now * 64) 250 * 250) }

/-- The bay clocks that `n` steps of the own clock take from bay clock `c`, with the last edge of the wanted kind
one clock before the end (R181, R203); each step in free-run begins at the next drive edge (R180). -/
def State.stepClocks (s : State) (b t n : Nat) (inp : Bool) (c : Nat) : Nat :=
  if (s.engine (tenKey b t)).genMode = 2 then 1 + n * s.get (TEN_CLK.INT b t)
  else
    let h := if inp then s.sampleOffset b t else 0
    s.driveEdge b t (s.edgesBy b t 0 c + n - 1) + h + 1 - c

/-- Push SR at the end of a SHIFTI with Q = 1, or wait for space (R179). -/
def State.pushEnd (s : State) (b : Fin 32) (t : Fin 5) (pri clocks : Nat) (v : Word) : State :=
  let l := s.logic b.val t.val
  if s.outSpace b.val l then ((s.outPush b.val l pri v).pump b.val l).finishNext (ten b t) clocks
  else s.waits b t Wait.push

/-- The steps of a SHIFTO or SHIFTI, once any pop is done (R179): in a select frame in target mode (R205); on
the edges of an external clock (R204); else on the own clock, which ends the instruction unless a push
follows. -/
def State.shiftRun (s : State) (b : Fin 32) (t : Fin 5) (w : Nat) (samples : List (BitVec 16)) : State :=
  let g := ten b t
  let c := (s.engine (engKey g)).ready / 250
  let own := s.ownClock b.val t.val
  let x := Shift.mk w c 0 (own && !shPushes w) samples
  if s.on (TEN_CFG.TGT b.val t.val) then
    let s := s.settleBay b.val
    let active := s.bit (BAY_PIN.IN b.val) (s.get (TEN_CFG.SELPIN b.val t.val)) == s.on (TEN_CFG.SELPOL b.val t.val)
    s.waits b t (Wait.select (s.reg g 4) x (if active then none else some 0))
  else
    let s := (s.flags g (cF false)).waits b t (Wait.shift x)
    if !own then s
    else
      let clocks := s.stepClocks b.val t.val (shSteps w) (shIn w) c
      if x.timed then s.finishNext g clocks else s.finish g clocks (s.pc g)

/-- Whether a shift or WCLK needs edges of the tenon's own stopped generator (R180). -/
def State.genStopped (s : State) (b t : Nat) : Bool :=
  s.ownClock b t && (s.engine (tenKey b t)).genMode == 0

/-- SHIFTO up to its pop (R179, R180). -/
def State.shifto (s : State) (b : Fin 32) (t : Fin 5) (w : Nat) : State :=
  let g := ten b t
  if s.genStopped b.val t.val then (s.flags g (cF true)).finishNext g 1
  else if w.testBit 17 then
    let l := s.logic b.val t.val
    match (if s.qcap b.val l = 0 then none else (s.queues b.val l).pop s.bayClock) with
    | none => s.waits b t Wait.pop
    | some (v, q) => ((s.setQueues b.val l q).setReg g 4 v).shiftRun b t w []
  else s.shiftRun b t w []

/-- SHIFTO. -/
def execShifto (b : Fin 32) (t : Fin 5) (s : State) : Result :=
  .next (runInsn (ten b t) 0x80 (fun s w => s.shifto b t w) s)

/-- SHIFTI; `samples` are the bay's pin levels at its sample edges. -/
def execShifti (b : Fin 32) (t : Fin 5) (samples : List (BitVec 16)) (s : State) : Result :=
  .next (runInsn (ten b t) 0x81 (fun s w =>
    if s.genStopped b.val t.val then (s.flags (ten b t) (cF true)).finishNext (ten b t) 1
    else s.shiftRun b t w samples) s)

/-- A clock edge of a select frame: it takes the next step, and counts on beyond the last one (R205). -/
def State.frameStep (s : State) (b t : Nat) : State :=
  match (s.engine (tenKey b t)).wait with
  | .select sr x (some n) =>
    let s := if x.done < shSteps x.word then s.shiftOne b t x.word (s.stepPins b x) else s
    s.setEngine (tenKey b t) { s.engine (tenKey b t) with
      wait := Wait.select sr { x with done := min (x.done + 1) (shSteps x.word) } (some (n + 1)) }
  | _ => s

/-- Further clock edges of a select frame, with the pins at them. -/
def State.frameSteps (s : State) (b t edges : Nat) (samples : List (BitVec 16)) : State :=
  match (s.engine (tenKey b t)).wait with
  | .select sr x (some n) =>
    let x := { x with samples := List.replicate x.done 0 ++ samples }
    let s := s.setEngine (tenKey b t) { s.engine (tenKey b t) with wait := Wait.select sr x (some n) }
    let most := min edges (shSteps x.word - x.done)
    let s := s.each most (fun _ s => s.frameStep b t)
    match (s.engine (tenKey b t)).wait with
    | .select sr x (some n) =>
      s.setEngine (tenKey b t) { s.engine (tenKey b t) with wait := Wait.select sr x (some (n + (edges - most))) }
    | _ => s
  | _ => s

/-- The select of a frame is released (R205): the shift ends with its outcome; the release of a frame that was
under way at issue is passed over. -/
def State.selectEnds (s : State) (b : Fin 32) (t : Fin 5) : State :=
  let g := ten b t
  let s := s.setBit (BAY_PIN.IN b.val) (s.get (TEN_CFG.SELPIN b.val t.val)) (!s.on (TEN_CFG.SELPOL b.val t.val))
  match (s.engine (engKey g)).wait with
  | .select sr x none => s.waits b t (Wait.select sr x (some 0))
  | .select sr x (some n) =>
    let s := s.resumeNow b t
    if n < shSteps x.word then
      let s := (s.inc (TEN_ERR.SHORT b.val t.val)).raise Kind.SHORT_WORD (s.tenAddr b.val t.val)
      ((s.setReg g 4 sr).flags g (cF true)).finishNext g 1
    else
      let s := if shSteps x.word < n then
          (s.inc (TEN_ERR.OVER b.val t.val)).raise Kind.OVERRUN (s.tenAddr b.val t.val)
        else s
      let s := s.flags g (cF false)
      if shPushes x.word then s.pushEnd b t (bits x.word 16 14) 1 (s.reg g 4) else s.finishNext g 1
  | _ => s

/-- SELECT_RELEASE (R205, R206): the select is released after `edges` further edges of the shift's kind; they
count first. -/
def execSelectRelease (b : Fin 32) (t : Fin 5) (edges : Nat) (samples : List (BitVec 16)) (s : State) : Result :=
  match (s.engine (engKey (ten b t))).wait with
  | .select _ _ _ => .next ((s.frameSteps b.val t.val edges samples).selectEnds b t)
  | _ => .next s

/-- WCLK (R180, R182): counts edges from the bay clock after issue. -/
def execWclk (b : Fin 32) (t : Fin 5) (s : State) : Result :=
  let g := ten b t
  .next (runInsn g 0x82 (fun s w =>
    let src := bits w 31 30
    let n := bits w 15 0 + 1
    if src < 2 && s.ownClock b.val t.val then
      if (s.engine (engKey g)).genMode != 1 then (s.flags g (cF true)).finishNext g 1
      else
        let c := (s.engine (engKey g)).ready / 250
        let h := if src = 1 then s.sampleOffset b.val t.val else 0
        let last := s.driveEdge b.val t.val (s.edgesBy b.val t.val h c + n - 1) + h
        ((s.flags g (cF false)).waits b t Wait.wclk).finishNext g (last - c)
    else (s.flags g (cF false)).waits b t (Wait.edges n)) s)

/-- WPIN (R182). -/
def execWpin (b : Fin 32) (t : Fin 5) (s : State) : Result :=
  let g := ten b t
  .next (runInsn g 0x83 (fun s w =>
    let s := s.settleBay b.val
    if s.bit (BAY_PIN.IN b.val) (fRA w) == w.testBit 0 then s.finishNext g 1
    else s.waits b t Wait.pin) s)

/-- CMP (R183). -/
def execCmp (b : Fin 32) (t : Fin 5) (s : State) : Result :=
  let g := ten b t
  .next (flagsOnly g 0x84 (fun s w => zF (((s.reg g (fRA w) ^^^ s.reg g 6) &&& s.reg g 7) == 0)) s)

/-- POP once an item may be there (R184): `none` where nothing is visible. -/
def State.popTo (s : State) (b : Fin 32) (t : Fin 5) (w : Nat) : Option State :=
  let l := s.logic b.val t.val
  match (if s.qcap b.val l = 0 then none else (s.queues b.val l).pop s.bayClock) with
  | none => none
  | some (v, q) =>
    some ((((s.setQueues b.val l q).setReg (ten b t) (fRD w) v).flags (ten b t) (cF false)).finishNext (ten b t) 1)

/-- POP (R184). -/
def execPop (b : Fin 32) (t : Fin 5) (s : State) : Result :=
  let g := ten b t
  .next (runInsn g 0x85 (fun s w =>
    match s.popTo b t w with
    | some s => s
    | none => if w.testBit 16 then (s.flags g (cF true)).finishNext g 1 else s.waits b t Wait.pop) s)

/-- PUSH (R184). -/
def execPush (b : Fin 32) (t : Fin 5) (s : State) : Result :=
  let g := ten b t
  .next (runInsn g 0x86 (fun s w =>
    let l := s.logic b.val t.val
    if s.outSpace b.val l then
      (((s.flags g (cF false)).outPush b.val l (bits w 2 0) (s.reg g (fRA w))).pump b.val l).finishNext g 1
    else if w.testBit 16 then (s.flags g (cF true)).finishNext g 1
    else s.waits b t Wait.push) s)

/-! ### Edges of the pins (R182, R204 to R207) -/

/-- An edge of pin `pin` where CNT of tenon `t` counts it: of CPIN, or of an external shift clock (R207). -/
def State.countPin (s : State) (b t pin : Nat) (rising : Bool) : State :=
  let cpin := s.get (TEN_CFG.CPIN b t) == pin
  let ext := s.get (TEN_CLK.SRC b t) == 2 && s.get (TEN_CLK.CKPIN b t) == pin
  let drive := rising != s.on (TEN_CLK.IDLE b t)
  let counts := match s.get (TEN_CFG.CSRC b t) with
    | 2 => cpin && rising
    | 3 => cpin && !rising
    | 4 => cpin
    | 5 => ext && drive
    | 6 => ext && !drive
    | _ => false
  if counts then
    let e := s.engine (tenKey b t)
    s.setEngine (tenKey b t) { e with
      regs := Tab.put 0 e.regs 5 (Tab.get 0 e.regs 5 + 1), edgeAt := s.bayClock
      edges := if e.edgeAt = s.bayClock then e.edges + 1 else 1 }
  else s

/-- A shift on an external clock has taken its last step: it ends one clock later (R204). -/
def State.shiftDone (s : State) (b : Fin 32) (t : Fin 5) (w : Nat) : State :=
  let s := s.resumeNow b t
  if shPushes w then s.pushEnd b t (bits w 16 14) 1 (s.reg (ten b t) 4) else s.finishNext (ten b t) 1

/-- An edge of pin `pin` where the running tenon `t` waits for it: WCLK counts it (R182), WPIN sees its level,
a shift on an external clock takes a step (R204), a select frame takes one or ends (R205). -/
def State.waitEdge (s : State) (b : Fin 32) (t : Fin 5) (pin : Nat) (rising : Bool) : State :=
  let B := b.val
  let T := t.val
  let w := (s.fetchWord (ten b t)).1
  let drive := rising != s.on (TEN_CLK.IDLE B T)
  let clock := fun (inp : Bool) =>
    s.get (TEN_CLK.SRC B T) == 2 && s.get (TEN_CLK.CKPIN B T) == pin && (drive != inp)
  match (s.engine (tenKey B T)).wait with
  | .edges left =>
    let hit := match bits w 31 30 with
      | 0 => clock false
      | 1 => clock true
      | 2 => rising && fRA w == pin
      | _ => !rising && fRA w == pin
    if !hit then s
    else if left ≤ 1 then (s.resumeNow b t).finishNext (ten b t) 0
    else s.waits b t (Wait.edges (left - 1))
  | .pin => if fRA w == pin && w.testBit 0 == rising then (s.resumeNow b t).finishNext (ten b t) 1 else s
  | .shift x =>
    if !clock (shIn x.word) then s
    else
      let s := s.stepShift B T x
      if x.done + 1 < shSteps x.word then s else s.shiftDone b t x.word
  | .select _ x frame =>
    let active := s.bit (BAY_PIN.IN B) (s.get (TEN_CFG.SELPIN B T)) == s.on (TEN_CFG.SELPOL B T)
    if pin == s.get (TEN_CFG.SELPIN B T) then (if active then s else s.selectEnds b t)
    else if active && frame.isSome && clock (shIn x.word) then s.frameStep B T
    else s
  | _ => s

/-- An edge of a pin of bay `b` is detected: it counts, and each tenon that waits for it goes on. -/
def State.pinEdge (s : State) (b : Fin 32) (pin : Nat) (rising : Bool) : State :=
  let s := (s.settleBay b.val).setBit (BAY_PIN.IN b.val) pin rising
  ([0, 1, 2, 3, 4] : List (Fin 5)).foldl (fun s t =>
    let s := s.countPin b.val t.val pin rising
    if s.tenState b.val t.val = tnRUNNING then s.waitEdge b t pin rising else s) s

/-- The pins of a bay are seen at these levels: each that has changed is an edge. -/
def State.seePins (s : State) (b : Fin 32) (pins : BitVec 16) : State :=
  (s.settleBay b.val).each 16 (fun p s =>
    if s.bit (BAY_PIN.IN b.val) p == pins.getLsbD p then s else s.pinEdge b p (pins.getLsbD p))

/-- COUNTER_PIN_EDGE (R204, R205, R207): an edge of a pin of the bay is detected, be it CPIN of a counter, the
external clock or the select of a tenon, or a pin that one waits for. -/
def execCounterPinEdge (b : Fin 32) (pin : Fin 16) (rising : Bool) (s : State) : Result :=
  .next (s.pinEdge b pin.val rising)

/-- The push of a SHIFTI whose steps its own clock has ended (R179, R181): the clock runs to their end. -/
def State.shiftPush (s : State) (b : Fin 32) (t : Fin 5) (w : Nat) : State :=
  let g := ten b t
  let s := s.waitUntil (ceilDiv (s.engine (engKey g)).ready 64)
  let s := (s.settleTen b.val t.val).settleShift b.val t.val
  (s.waits b t Wait.none).pushEnd b t (bits w 16 14) 0 (s.reg g 4)

/-- INSTRUCTION_WAIT_END (R182, R184): the bay's pins stand at `pins`, which are edges where they have changed;
the tenon's wait ends if its condition holds now. -/
def execInstructionWaitEnd (b : Fin 32) (t : Fin 5) (pins : BitVec 16) (s : State) : Result :=
  let g := ten b t
  let s := s.seePins b pins
  let w := (s.fetchWord g).1
  let l := s.logic b.val t.val
  match (s.engine (engKey g)).wait with
  | .pop =>
    if opcode w = 0x85 then .next (((s.resumeNow b t).popTo b t w).getD s)
    else
      .next (match (if s.qcap b.val l = 0 then none else (s.queues b.val l).pop s.bayClock) with
        | none => s
        | some (v, q) =>
          (((s.resumeNow b t).setQueues b.val l q).setReg g 4 v).shiftRun b t w [])
  | .push =>
    if s.outSpace b.val l then
      let v := if shIn w then s.reg g 4 else s.reg g (fRA w)
      let pri := if shIn w then bits w 16 14 else bits w 2 0
      .next (((((s.resumeNow b t).flags g (cF false)).outPush b.val l pri v).pump b.val l).finishNext g 1)
    else .next s
  | .pin =>
    .next (if s.bit (BAY_PIN.IN b.val) (fRA w) == w.testBit 0 then (s.resumeNow b t).finishNext g 1 else s)
  | .shift x => .next (if s.ownClock b.val t.val && !x.timed then s.shiftPush b t w else s)
  | _ => .next s

/-- An instruction that changes the tenon's input queue only. -/
def queueOp (b : Fin 32) (t : Fin 5) (op : Nat) (f : Queues → Nat → Queues) (s : State) : State :=
  runInsn (ten b t) op (fun s _ =>
    let l := s.logic b.val t.val
    let s := if s.qcap b.val l = 0 then s else s.setQueues b.val l (f (s.queues b.val l) s.bayClock)
    (s.pump b.val l).finishNext (ten b t) 1) s

/-- MARK (R214). -/
def execMark (b : Fin 32) (t : Fin 5) (s : State) : Result := .next (queueOp b t 0x87 Queues.mark s)

/-- REWIND (R214). -/
def execRewind (b : Fin 32) (t : Fin 5) (s : State) : Result := .next (queueOp b t 0x88 (fun q _ => q.rewind) s)

/-- RELEASE (R214): streams that waited for space go on. -/
def execRelease (b : Fin 32) (t : Fin 5) (s : State) : Result := .next (queueOp b t 0x89 (fun q _ => q.release) s)

/-- CLKCTL (R180). -/
def execClkctl (b : Fin 32) (t : Fin 5) (s : State) : Result :=
  let g := ten b t
  .next (runInsn g 0x8A (fun s w =>
    (s.setGen b.val t.val (bits w 1 0) ((s.engine (engKey g)).ready / 250)).finishNext g 1) s)

/-! ### The program stores (R187 to R189) -/

/-- Write a word of the sequencer store (R187, R188). -/
def State.writeSeqStore (s : State) (w : Nat) (v : Word) : State :=
  { s with
    seqPast := keepOld s.seqPast (.mk w s.now (Tab.get 0 s.seqStore w) (s.seqUe.contains w) (s.seqWeak.contains w))
    seqStore := Tab.put 0 s.seqStore w v
    seqUe := s.seqUe.filter (fun x => x != w), seqWeak := s.seqWeak.filter (fun x => x != w) }

/-- SEQ_STORE_WRITE: a word of window 0xFFFA; words above the store are outside the window. -/
def execSeqStoreWrite (w : BitVec 16) (v : Word) (s : State) : Result :=
  .next (if w.toNat < 16384 then s.writeSeqStore w.toNat v else s)

/-- Whether tenon `t`'s store may be written (R189, R213): not while it runs or tests itself, and not
while it takes part in a pending substitution. -/
def State.storeWritable (s : State) (b t : Nat) : Bool :=
  s.tenState b t != tnRUNNING && s.tenState b t != tnSELFTEST &&
    (match (s.bayRec b).swap with
      | none => true
      | some w => w.old != t && w.new != t)

/-- Write a word of the tenons' stores (R189): refused with PROG_WHILE_RUN, [23:16] the word. -/
def State.writeTenStore (s : State) (w : Nat) (v : Word) : State :=
  let b := w / 1280
  let t := w % 1280 / 256
  if s.storeWritable b t then
    { s with
      tenPast := keepOld s.tenPast (.mk w s.now (Tab.get 0 s.tenStore w) (s.tenUe.contains w) (s.tenWeak.contains w))
      tenStore := Tab.put 0 s.tenStore w v
      tenUe := s.tenUe.filter (fun x => x != w), tenWeak := s.tenWeak.filter (fun x => x != w) }
  else s.raise Kind.PROG_WHILE_RUN (w % 256 * 65536 + s.tenAddr b t)

/-- TENON_STORE_WRITE: a word of window 0xFFFB (R25). -/
def execTenonStoreWrite (w : BitVec 16) (v : Word) (s : State) : Result :=
  .next (if w.toNat < 40960 then s.writeTenStore w.toNat v else s)

end Sys2Proof.Machine
end

