-- ==== Sys2Proof/Machine/Bays.lean ====
section
/-! DEFINITION. The commands of chapter 06 (bays and tenons). -/

namespace Sys2Proof.Machine

/-- Let every open stream go on. -/
def State.pumpAll (s : State) : State :=
  (s.tbl.ops.filter (fun (o : Op) => o.paced)).foldl (fun s o => s.pump o.entry.bay o.entry.tenon) s

/-! ### Banks -/

/-- BANK_OUT_OF_BAND (R196). -/
def execBankOutOfBand (b : Fin 32) (s : State) : Result := .next (s.setBankOk b.val false)

/-- BANK_IN_BAND (R196): no voltage is in band while BANK is unset. -/
def execBankInBand (b : Fin 32) (s : State) : Result :=
  .next (if s.on (BAY_CTL.BANK b.val) then s.setBankOk b.val true else s)

/-! ### Tenons -/

/-- TENON_START (R210): a write of `TENt_CTL` with START = 1. -/
def execTenonStart (b : Fin 32) (t : Fin 5) (v : Word) (s : State) : Result :=
  .next (s.writeTenCtl b.val t.val (v ||| 0x100))

/-- TENON_STOP (R211). -/
def execTenonStop (b : Fin 32) (t : Fin 5) (s : State) : Result :=
  .next (s.writeTenCtl b.val t.val (word (0x200 + s.get (TEN_CTL.ENTRY b.val t.val))))

/-- TENON_TEST (R225). -/
def execTenonTest (b : Fin 32) (t : Fin 5) (s : State) : Result :=
  .next (s.writeTenCtl b.val t.val (word (0x400 + s.get (TEN_CTL.ENTRY b.val t.val))))

/-- PERIODIC_SELFTEST (R225): of the spare, once after reset and then every TINT basic cycles. -/
def execPeriodicSelftest (b : Fin 32) (s : State) : Result :=
  let sp := s.spare b.val
  let tint := s.get (BAY_SPARE.TINT b.val)
  let due := match (s.bayRec b.val).tested with
    | none => true
    | some n => tint != 0 && decide (n + tint ≤ s.cyc.ncyc)
  .next (if due && decide (sp < 5) && s.tenState b.val sp == tnSTANDBY then
    (s.setBay b.val { s.bayRec b.val with tested := some s.cyc.ncyc }).beginTest b.val sp tnSTANDBY
  else s)

/-- SELFTEST_COMPLETE (R224 to R227): with the outcome of the datapath test and the correctable errors it met
beside those the store holds; a store with an uncorrectable word fails. -/
def execSelftestComplete (b : Fin 32) (t : Fin 5) (pass : Bool) (ce : BitVec 8) (s : State) : Result :=
  let B := b.val
  let T := t.val
  if s.tenState B T != tnSELFTEST then .next s
  else
    let e := s.engine (tenKey B T)
    let pass := pass && (inStore s.tenUe B T).isEmpty
    let s := s.waitUntil (bayTick e.testEnd)
    let pads := s.padsOf B
    let s := s.setEngine (tenKey B T) { s.engine (tenKey B T) with testOf := none }
    let s := s.setB (TEN_TEST.LAST B T) pass
    let back := e.testOf.getD tnSTANDBY
    let back := if back = tnFAILED then (if (s.logical B T).isSome then tnSTOPPED else tnSTANDBY) else back
    let s := if pass then (s.inc (TEN_TEST.PASS B T)).set (TEN_STAT.STATE B T) back
      else ((s.inc (TEN_TEST.FAIL B T)).set (TEN_STAT.STATE B T) tnFAILED).raise Kind.TEN_TEST_FAIL (s.tenAddr B T)
    let s := s.settlePads B pads
    let s := if pass then s else s.policySwap B T
    .next (s.countStoreCe B T (ce.toNat + (inStore s.tenWeak B T).length))

/-! ### Queues and streams -/

/-- QLINK_WRITE (R218): the QLINK field of a `BAY_CTL` write. -/
def execQlinkWrite (b : Fin 32) (v : Word) (s : State) : Result :=
  .next (s.writeQlink b.val (wbits v 14 12))

/-- QUEUE_IN_WRITE (R219). -/
def execQueueInWrite (b : Fin 32) (l : Fin 4) (v : Word) (s : State) : Result :=
  .next (s.queueIn b.val l.val v)

/-- FLUSH (R220). -/
def execFlush (b : Fin 32) (l : Fin 4) (s : State) : Result := .next (s.flushQueues b.val l.val)

/-- The automatic stream of `l` waits from now on, if it did not wait already. -/
def State.autoWaits (s : State) (b l : Nat) : State :=
  let r := s.bayRec b
  if Tab.get none r.autoAt l = none then s.setBay b { r with autoAt := Tab.put none r.autoAt l (some s.now) }
  else s

/-- Take up to `n` items of an output queue. -/
def State.takeItems (s : State) (b l n : Nat) : State × List Word :=
  match n with
  | 0 => (s, [])
  | n + 1 =>
    match (if s.qcap b l = 0 then none else (s.queues b l).take) with
    | none => (s, [])
    | some (x, q) =>
      let r := (s.setQueues b l q).takeItems b l n
      (r.1, x.val :: r.2)

/-- Push words into an input queue that has space for them. -/
def State.arriveAll (s : State) (b l : Nat) (ws : List Word) : State :=
  ws.foldl (fun s w => s.arrive b l (s.get (BAY_STREAM.PRI b l)) true w) s

/-- WPTR moves on by `n` words of a channel of `points` words (R222). -/
def State.moveWptr (s : State) (b l n points : Nat) : State :=
  let w := s.get (BAY_STREAM.WPTR b l) + n
  let s := s.setBay b { s.bayRec b with autoAt := Tab.put none (s.bayRec b).autoAt l none }
  s.set (BAY_STREAM.WPTR b l) (if points ≤ w then 0 else w)

/-- The burst of an automatic stream that is open at the table port. -/
def State.autoOp (s : State) (b l : Nat) : Option Op :=
  s.tbl.ops.find? (fun (o : Op) => o.purpose == Purpose.auto && o.entry.bay == b && o.entry.tenon == l)

/-- The words of an inward burst reach the input queue, once it has space for them all (R222). -/
def State.autoLands (s : State) (b l p points : Nat) (ws : List Word) : State :=
  ((s.set (BAY_STREAM.WPTR b l) p).arriveAll b l ws).moveWptr b l ws.length points

/-- An inward burst that has closed at the table port lands, unless its queue has filled up meanwhile. -/
def State.autoClosed (s : State) (o : Op) : State :=
  let b := o.entry.bay
  let l := o.entry.tenon
  let ws := Tab.getList 0 o.data o.first o.count
  if s.qcap b l < (s.queues b l).inq.length + ws.length then s.autoWaits b l
  else ({ s with tbl := { s.tbl with ops := s.tbl.ops.filter (fun (x : Op) => x.id != o.id) } }).autoLands
    b l o.first o.entry.points ws

/-- Begin a burst of an automatic stream at word `p` of a channel that has passed its check: up to 8 items
go out, or up to 8 words, as many as the queue has space for, come in (R222). -/
def State.autoBurst (s : State) (b l ch : Nat) (e : Entry) (p : Nat) : State :=
  let most := min 8 (e.points - p)
  if s.on (BAY_STREAM.DIR b l) then
    let r := s.takeItems b l most
    if r.2.isEmpty then s.autoWaits b l
    else ((r.1.set (BAY_STREAM.WPTR b l) p).putChan (bayPort b) 0 ch e p r.2).moveWptr b l r.2.length e.points
  else
    let n := min most (s.qcap b l - (s.queues b l).inq.length)
    if n = 0 then s.autoWaits b l
    else
      match s.readChan (bayPort b) 0 ch e p n .auto false with
      | (s, .words ws) => s.autoLands b l p e.points ws
      | (s, _) => s

/-- AUTO_STREAM_BURST (R222): one burst of up to 8 words, after the check of its channel; one that is still
on its way through the table port goes first. -/
def execAutoStreamBurst (b : Fin 32) (l : Fin 4) (s : State) : Result :=
  let B := b.val
  let L := l.val
  match s.autoOp B L with
  | some o => .next (if o.closed then s.autoClosed o else s)
  | none =>
    if !s.on (BAY_STREAM.AUTO B L) then .next s
    else
      let ch := s.get (BAY_STREAM.CH B L)
      match s.lookup ch with
      | none => .next s
      | some (s, e) =>
        if !(e.valid && e.type == tSTREAM && e.bay == B && e.tenon == L) then
          let s := s.setBay B { s.bayRec B with autoAt := Tab.put none (s.bayRec B).autoAt L none }
          .next ((s.set (BAY_STREAM.AUTO B L) 0).streamEnds B L 1)
        else if !s.homeUp || !s.alive (accessReq (bayPort B)) then .next s
        else .next (s.autoBurst B L ch e (if s.get (BAY_STREAM.WPTR B L) < e.points then s.get (BAY_STREAM.WPTR B L) else 0))

/-- The MOVE's transfer of `l` that has waited longest for queue space or for items. -/
def State.stalledOp (s : State) (b l : Nat) : Option Op :=
  minBy (fun (o : Op) => o.idleAt.getD 0) ((s.streamOps b l).filter (fun o => o.idleAt.isSome))

/-- Since when a stream of `l` has waited for queue space or for items. -/
def State.stalledSince (s : State) (b l : Nat) : Option Nat :=
  match s.stalledOp b l with
  | some o => o.idleAt
  | none => if s.on (BAY_STREAM.AUTO b l) then Tab.get none (s.bayRec b).autoAt l else none

/-- A stream of `l` has waited too long and ends (R223). -/
def State.endStalled (s : State) (b l : Nat) : State :=
  match s.stalledOp b l with
  | some o => s.abortStream o 0
  | none =>
    (s.setBay b { s.bayRec b with autoAt := Tab.put none (s.bayRec b).autoAt l none }).streamEnds b l 0

/-- STREAM_STALL (R223): the transfer goes on waiting until the limit is passed, STALL × 1,024 bay
clocks or 4,000 ticks a unit. -/
def execStreamStall (b : Fin 32) (l : Fin 4) (s : State) : Result :=
  let stall := s.get (BAY_STREAM.STALL b.val l.val)
  match s.stalledSince b.val l.val with
  | none => .next s
  | some t =>
    .next (if stall = 0 then s else (s.waitUntil (t + stall * 4000 + 1)).endStalled b.val l.val)

/-! ### Substitution -/

/-- SWAP_GO (R228): a write of `BAY_SWAP` with GO = 1. -/
def execSwapGo (b : Fin 32) (v : Word) (s : State) : Result := .next (s.writeSwap b.val (v ||| 0x10))

/-- TENON_SWAP_CANCEL (R229). -/
def execTenonSwapCancel (b : Fin 32) (s : State) : Result := .next (s.failSwap b.val 2)

/-- Copy the store of tenon `p` into that of tenon `n` (R229). -/
def State.copyStore (s : State) (b p n : Nat) : State :=
  { s with
    tenStore := Tab.putList 0 s.tenStore (storeWord b n 0) (Tab.getList 0 s.tenStore (storeWord b p 0) 256)
    tenUe := s.tenUe.filter (fun x => !inSpan x (storeWord b n 0) (storeWord b n 256))
    tenWeak := s.tenWeak.filter (fun x => !inSpan x (storeWord b n 0) (storeWord b n 256)) }

/-- STORE_COPY_COMPLETE (R229): `ue` says that a word read as uncorrectable, beside those the store holds. -/
def execStoreCopyComplete (b : Fin 32) (ue : Bool) (s : State) : Result :=
  match (s.bayRec b.val).swap with
  | none => .next s
  | some w =>
    if w.copied then .next s
    else
      let s := s.waitUntil (bayTick w.ends)
      if ue || !(inStore s.tenUe b.val w.old).isEmpty then .next (s.failSwap b.val 0)
      else
        let s := s.copyStore b.val w.old w.new
        .next (s.setBay b.val { s.bayRec b.val with swap := some { w with copied := true } })

/-- TEN_SPARE_IN (R229): the first swap point of an armed substitution. -/
def execTenSpareIn (b : Fin 32) (s : State) : Result :=
  match (s.bayRec b.val).swap with
  | none => .next s
  | some w =>
    .next (if s.get (BAY_SWAP.STATE b.val) = 2 && w.cycle == s.cycKey && s.swapPoint b.val w.old then
      s.swapTenons b.val w
    else s)

end Sys2Proof.Machine
end

