-- ==== Sys2Proof/Machine/PhaseOps.lean ====
section
/-! DEFINITION. Chapter 03, the shared part: phase words, the extrapolation of a motion model, the
crossing function, and the record of a phase domain. -/

namespace Sys2Proof.Machine

/-- The record of domain `d`. -/
def State.dom (s : State) (d : Nat) : Ph := Tab.get Ph.reset s.ph d

/-- Replace the record of domain `d`. -/
def State.setDom (s : State) (d : Nat) (p : Ph) : State := { s with ph := Tab.put Ph.reset s.ph d p }

/-- diff(x, y): signed steps between two phase words (R95). -/
def phDiff (x y : Nat) : Int := halfRange 48 x y

/-- n / d rounded to the nearest integer, ties toward +∞; d is positive (R98). -/
def rnd (n d : Int) : Int := (2 * n + d) / (2 * d)

/-- The phase of a model at signed distance `dt` from its T_s (R109). -/
def phaseOf (p : Nat) (rate accel dt : Int) : Nat :=
  let x := (p : Int) * 2 ^ 49 + rate * 2 ^ 9 * dt + accel * dt * dt
  (((x + 2 ^ 48) / 2 ^ 49).emod (2 ^ 48)).toNat

/-- The phase of a model at ring-time tick `t`, before or after its T_s (R109). -/
def Model.at (m : Model) (t : Nat) : Nat := phaseOf m.phase m.rate m.accel (dt t m.ts)

/-- The states of R113. -/
def phIDLE : Nat := 0
def phACQUIRE : Nat := 1
def phTRACK : Nat := 2
def phSLIPPED : Nat := 3
def phLOST : Nat := 4

/-- `PHd_STAT.STATE`. -/
def State.phState (s : State) (d : Nat) : Nat := s.get (PH_STAT.STATE d)

/-- Whether the domain has a phase (R113). -/
def State.hasPhase (s : State) (d : Nat) : Bool := s.phState d == phTRACK || s.phState d == phSLIPPED

/-- The phase of domain `d` at ring-time tick `t`, where it has one. -/
def State.phaseAt (s : State) (d t : Nat) : Option Nat :=
  if s.hasPhase d then (s.dom d).eff.map (fun m => m.at t) else none

/-- The phase of domain `d` now; `PHd_NOW` shows 0 without one (R119). -/
def State.phaseNow (s : State) (d : Nat) : Nat := (s.phaseAt d s.ticks).getD 0

/-- The condition of R111 for a direction: at or past the target. -/
def reached (fwd : Bool) (m : Model) (target t : Nat) : Bool :=
  if fwd then decide (0 ≤ phDiff (m.at t) target) else decide (phDiff (m.at t) target ≤ 0)

/-- The phase of a model at signed distance `dt` from its T_s, without its reduction to 48 bits (R109). -/
def Model.exact (m : Model) (dt : Int) : Int :=
  ((m.phase : Int) * 2 ^ 49 + m.rate * 2 ^ 9 * dt + m.accel * dt * dt + 2 ^ 48) / 2 ^ 49

/-- The first offset in (lo, hi] at which `p` holds, where it does not at `lo` and does from some offset
up to `hi` on: by bisection. -/
def bisect (p : Nat → Bool) : Nat → Nat → Nat → Nat
  | 0, _, hi => hi
  | fuel + 1, lo, hi =>
    if hi ≤ lo + 1 then hi
    else
      let mid := (lo + hi) / 2
      if p mid then bisect p fuel lo mid else bisect p fuel mid hi

/-- The crossing in a span (lo, hi] of offsets in which `u`, the distance past the target, is monotone:
a whole turn of the phase word, or the half-range point seen from the other side.  `both` says whether a
motion against the direction counts there. -/
def crossIn (fwd both : Bool) (u : Nat → Int) (lo hi : Nat) : Option Nat :=
  if hi ≤ lo then none
  else
    let a := u lo
    let up := decide (a ≤ u hi)
    if up != fwd && !both then none
    else
      let bound : Int :=
        if up then (if fwd then (a / 2 ^ 48 + 1) * 2 ^ 48 else (a + 2 ^ 47) / 2 ^ 48 * 2 ^ 48 + 2 ^ 47)
        else if fwd then (a - 2 ^ 47) / 2 ^ 48 * 2 ^ 48 + 2 ^ 47 - 1
        else (a - 1) / 2 ^ 48 * 2 ^ 48
      let past := fun (o : Nat) => if up then decide (bound ≤ u o) else decide (u o ≤ bound)
      if past hi then some (bisect past 49 lo hi) else none

/-- The offset from `t0`, within `n` ticks, of the earliest crossing of a target.  The model holds for
distances below 2^32 from its T_s (R109); the span is cut at its turning point, so that each part is
monotone. -/
def crossing (fwd both : Bool) (m : Model) (target t0 n : Nat) : Option Nat :=
  let d0 := dt t0 m.ts
  let u := fun (o : Nat) => m.exact (d0 + o) - target
  let n := min n (2 ^ 32 - 1 - d0).toNat
  let turn : Int := if m.accel = 0 then 0 else (-(m.rate * 2 ^ 9)).fdiv (2 * m.accel) - d0
  let v := min n turn.toNat
  let v' := min n (v + 1)
  (crossIn fwd both u 0 v).orElse (fun _ =>
    (crossIn fwd both u v v').orElse (fun _ => crossIn fwd both u v' n))

/-- Cross(target, dir, t0, t0 + n): the offset from `t0` of the earliest tick that meets the
condition (R111). -/
def cross (fwd : Bool) (m : Model) (target t0 n : Nat) : Option Nat := crossing fwd true m target t0 n

/-- The words of an effective or published sample of domain `d` (R101). -/
def Model.words (m : Model) (d : Nat) : List Word :=
  [word (pack [(1, 8), (m.kind, 4), (0, 2), (d, 2), (m.seqno, 8), (m.quality, 8), (m.node, 16)]),
   word (pack [(m.apply, 24), (0, 8), (m.gen, 16)]),
   word m.ts, word m.phase, BitVec.ofInt 48 m.rate, BitVec.ofInt 48 m.accel,
   word (pack [(m.homeseq, 8), (0, 40)])]

/-- The LEVEL of a model: 0 INVALID, 1 DEGRADED, 2 GOOD (R102). -/
def Model.level (m : Model) : Nat := m.quality / 64

/-- T_eff, as ticks (R104). -/
def Model.teff (m : Model) : Nat := (m.ts + m.apply) % 2 ^ 48

/-- Shift a model's T_s by a change of ring time, into generation `g` (R106). -/
def Model.shift (m : Model) (off : Int) (g : Nat) : Model :=
  { m with ts := (((m.ts : Int) + off).emod (2 ^ 48)).toNat, gen := g }

/-- Show the effective model in the domain's registers (R119). -/
def State.showModel (s : State) (d : Nat) (m : Model) : State :=
  let s := (s.set (PH_STAT.QUALITY d) m.quality).set (PH_STAT.HOMESEQ d) m.homeseq
  let s := ((s.set (PH_M_PHASE.PHASE d) m.phase).set (PH_M_GEN.GEN d) m.gen).set (PH_M_TICKS.TICKS d) m.ts
  (s.setInt (PH_M_RATE.RATE d) m.rate).setInt (PH_M_ACCEL.ACCEL d) m.accel

/-- Bring the extreme X up to the present tick (R112): the greatest phase in direction D over the
ticks since it was last judged, which a second-order model has at an end or at its turning point. -/
def State.updateX (s : State) (d : Nat) : State :=
  let p := s.dom d
  match (if s.hasPhase d then p.eff else none) with
  | none => s
  | some m =>
    let rev := s.on (PH_STAT.DIR d)
    let n := (dt s.ticks p.xAt).toNat
    let d0 := dt p.xAt m.ts
    let turn : Int := if m.accel = 0 then 0 else (-(m.rate * 2 ^ 9)).fdiv (2 * m.accel) - d0
    let v := min n turn.toNat
    let x := [v, min n (v + 1), n].foldl (fun x o =>
      let ph := m.at ((p.xAt + o) % 2 ^ 48)
      if (if rev then phDiff ph x < 0 else phDiff ph x > 0) then ph else x) p.x
    s.setDom d { p with x := x, xAt := s.ticks }

end Sys2Proof.Machine
end

