-- ==== Sys2Proof/Machine/SeqOps.lean ====
section
/-! DEFINITION. Chapter 04, the shared part: the entry store with its ownership, checks and cap, the
firing queue, targets and runs, and what the motion of a domain does to its entries. -/

namespace Sys2Proof.Machine

/-! ### Entries (R121 to R130) -/

/-- Entry states (R124). -/
def eFREE : Nat := 0
def eIDLE : Nat := 1
def eARMED : Nat := 2
def eQUEUED : Nat := 3
def eDONE : Nat := 4
def eSKIPPED : Nat := 5
def eMISSED : Nat := 6

/-- The 128 bits of an entry (R123). -/
def Eph.raw (e : Eph) : Nat :=
  pack [(e.trig, 48), (e.dlval, 24), (e.arg, 16), (e.param, 8), (e.act, 3), (e.policy, 2),
    (e.dlkind, 2), (e.trigkind, 2), (e.domain, 2), (e.dir, 2), (e.tenant, 4), (e.state, 3), (e.count, 12)]

/-- The entry of 128 bits (R123). -/
def Eph.ofRaw (r : Nat) (nextSet : Bool) : Eph :=
  { trig := bits r 127 80, dlval := bits r 79 56, arg := bits r 55 40, param := bits r 39 32
    act := bits r 31 29, policy := bits r 28 27, dlkind := bits r 26 25, trigkind := bits r 24 23
    domain := bits r 22 21, dir := bits r 20 19, tenant := bits r 18 15, state := bits r 14 12
    count := bits r 11 0, nextSet := nextSet }

/-- The four words of a 128-bit record in a window (R26). -/
def recordWord (r i : Nat) : Word :=
  match i with
  | 0 => word (bits r 127 80)
  | 1 => word (bits r 79 32)
  | 2 => word (bits r 31 0 * 2 ^ 16)
  | _ => 0

/-- A 128-bit record with word `i` of its window written (R26). -/
def putRecordWord (r i : Nat) (v : Word) : Nat :=
  match i with
  | 0 => v.toNat * 2 ^ 80 + bits r 79 0
  | 1 => bits r 127 80 * 2 ^ 80 + v.toNat * 2 ^ 32 + bits r 31 0
  | 2 => bits r 127 32 * 2 ^ 32 + v.toNat / 2 ^ 16
  | _ => r

/-- Entry `i` of the store. -/
def State.entry (s : State) (i : Nat) : Eph := Tab.get Eph.free s.seq.eph i

/-- A tenant's entries that are not FREE: `SEQ_TCAPn.USED` (R128). -/
def State.used (s : State) (n : Nat) : Nat := s.get (SEQ_TCAP.USED n)

/-- Replace entry `i`; the record of its tenant and the tenants' counts follow (R128, R129). -/
def State.setEntry (s : State) (i : Nat) (e : Eph) : State :=
  let old := Tab.get 0 s.seq.owner i
  let new := if e.state = eFREE then 0 else e.tenant + 1
  let s := { s with seq := { s.seq with
    eph := Tab.put Eph.free s.seq.eph i e, owner := Tab.put 0 s.seq.owner i new } }
  if old = new then s
  else
    let s := if old = 0 then s else s.set (SEQ_TCAP.USED (old - 1)) (s.used (old - 1) - 1)
    if new = 0 then s else s.set (SEQ_TCAP.USED (new - 1)) (s.used (new - 1) + 1)

/-- Change the state of entry `i`. -/
def State.entryState (s : State) (i st : Nat) : State := s.setEntry i { s.entry i with state := st }

/-- `SEQ_STAT.WHEEL` counts the firings queued (R135). -/
def State.setWheel (s : State) (w : List Firing) : State :=
  ({ s with seq := { s.seq with wheel := w } }).set SEQ_STAT.WHEEL w.length

/-- Withdraw the undispatched firing of an entry: a QUEUED entry becomes ARMED (R127, R130). -/
def State.withdraw (s : State) (i : Nat) : State :=
  let s := s.setWheel (s.seq.wheel.filter (fun (f : Firing) => f.entry != i))
  if (s.entry i).state = eQUEUED then s.entryState i eARMED else s

/-- The content of an entry is valid: no reserved value, no field set that must be 0 (R124, R126). -/
def Eph.valid (e : Eph) : Bool :=
  decide (e.act < 6) && decide (e.trigkind < 3) && decide (e.dlkind < 3) && decide (e.policy < 3)
    && decide (e.state < 7)
    && (if e.trigkind = 0 then e.dir == 0 && e.domain == 0 && decide (e.dlkind < 2) else e.dir != 0)
    && (match e.act with
        | 0 => decide (e.arg < 2 ^ 14) && decide (e.param ≤ 8)
        | 4 => decide (e.arg < 32) && decide (e.param < 4)
        | _ => e.param == 0)

/-- Whether a direction qualifier permits a direction (R124). -/
def permits (dir : Nat) (fwd : Bool) : Bool := if fwd then dir % 2 == 1 else dir / 2 % 2 == 1

/-- The domain direction D: forward? (R112). -/
def State.fwd (s : State) (d : Nat) : Bool := !s.on (PH_STAT.DIR d)

/-- The sidereal count of the first occurrence of an angle strictly ahead of a phase (R131). -/
def nextAhead (fwd : Bool) (phase angle : Nat) : Nat :=
  let sid := phase / 2 ^ 24
  let ang := phase % 2 ^ 24
  if fwd then (if ang < angle then sid else (sid + 1) % 2 ^ 24)
  else (if angle < ang then sid else (sid + 2 ^ 24 - 1) % 2 ^ 24)

/-- The target of an entry: TRIG, or NEXT:ANGLE for REV, whose TRIG field holds both (R131). -/
def Eph.target (e : Eph) : Nat := e.trig

/-- Set NEXT of a REV entry. -/
def Eph.withNext (e : Eph) (next : Nat) : Eph :=
  { e with trig := next % 2 ^ 24 * 2 ^ 24 + e.trig % 2 ^ 24, nextSet := true }

/-- A REV entry becomes ARMED (R131): NEXT is set where its domain tracks in a permitted
direction, and waits for the domain's next event otherwise. -/
def State.armNext (s : State) (i : Nat) : State :=
  let e := s.entry i
  if e.trigkind != 2 then s
  else if s.phState e.domain = phTRACK && permits e.dir (s.fwd e.domain) then
    s.setEntry i (e.withNext (nextAhead (s.fwd e.domain) (s.phaseNow e.domain) (e.trig % 2 ^ 24)))
  else s.setEntry i { e with nextSet := false }

/-- Set NEXT of every ARMED REV entry of a domain, of those alone whose qualifier permits D or of `every`
one, counting from phase `p` (R131). -/
def State.rearm (s : State) (d p : Nat) (every : Bool) : State :=
  s.seq.eph.foldl (fun s x =>
    let e := s.entry x.1
    if e.trigkind = 2 && e.domain == d && (e.state = eARMED || e.state = eQUEUED)
      && (every || permits e.dir (s.fwd d)) then
      s.setEntry x.1 (e.withNext (nextAhead (s.fwd d) p (e.trig % 2 ^ 24)))
    else s) s

/-- Move an entry on after a dispatch in direction `fwd` (R130, R131). -/
def State.moveEntryOn (s : State) (i : Nat) (fwd : Bool) : State :=
  let e := s.entry i
  if e.trigkind = 2 then
    let sid := e.trig / 2 ^ 24
    s.setEntry i { e.withNext (if fwd then sid + 1 else sid + 2 ^ 24 - 1) with state := eARMED, nextSet := e.nextSet }
  else s.setEntry i { e with state := eDONE }

/-- What a miss under SKIP or HOLD, or a suppressed or failing firing, leaves of the entry (R130,
R146): a one-shot entry is MISSED, a REV entry takes its next occurrence. -/
def State.missEntry (s : State) (i : Nat) (fwd : Bool) : State :=
  if (s.entry i).trigkind = 2 then s.moveEntryOn i fwd else s.entryState i eMISSED

/-- Rewrite an entry that holds an uncorrectable error (R129). -/
def State.repairEntry (s : State) (i : Nat) : State :=
  let own := Tab.get 0 s.seq.owner i
  let bad := (Config.corruptEntry s.free (BitVec.ofNat 128 (s.entry i).raw)).toNat
  let s := s.draw.withdraw i
  let s := { s with seq := { s.seq with bad := s.seq.bad.filter (fun x => x != i) } }
  let e := Eph.ofRaw bad false
  let s := s.setEntry i (if own = 0 then Eph.free else { e with state := eIDLE, tenant := own - 1 })
  s.raise Kind.SEQ_STORE_UE i

/-- Entry `i` is read: an uncorrectable error rewrites it (R129), a correctable one is counted for its bank
(R487); `ue` says that the read finds an uncorrectable error. -/
def State.touchEntry (s : State) (i : Nat) (ue : Bool) : State :=
  let s := if s.seq.weak.contains i then s.sramErrors (i / 16384) 1 else s
  if ue || s.seq.bad.contains i then s.repairEntry i else s

/-- Whether tenant `n` may have one more entry (R128). -/
def State.underCap (s : State) (n : Nat) : Bool := decide (s.used n < s.get (SEQ_TCAP.CAP n))

/-- The words of a run at window word `w` that fall into entry `base`: their number in the entry and
their values. -/
def wordsOf (w : Nat) (ws : List Word) (e : Nat) : List (Nat × Word) :=
  ((List.range ws.length).zip ws).filterMap (fun p =>
    if (w + p.1) / 4 = e then some ((w + p.1) % 4, p.2) else none)

/-- Entry `i` as it stands after a write of some of its words (R26). -/
def State.afterWrite (s : State) (i : Nat) (ps : List (Nat × Word)) : Eph :=
  let e := s.entry i
  let n := Eph.ofRaw (ps.foldl (fun r p => putRecordWord r p.1 p.2) e.raw) e.nextSet
  if ps.any (fun p => p.1 == 2) then n else { n with state := e.state }

/-- Apply a checked write to entry `i` (R126 to R128, R130): a queued firing is withdrawn; an entry
left QUEUED becomes ARMED; an ARMED REV entry gets its NEXT. -/
def State.applyEntry (s : State) (i : Nat) (n : Eph) : State :=
  let s := s.withdraw i
  let n := if n.state = eQUEUED then { n with state := eARMED } else n
  let s := s.setEntry i { n with nextSet := false }
  if n.state = eARMED then s.armNext i else s

/-- Write one entry through the window (R126, R128): a write that fails the checks leaves the whole
entry unchanged and is reported. -/
def State.writeEntry (s : State) (i : Nat) (ps : List (Nat × Word)) : State :=
  if ps.all (fun p => p.1 == 3) then s
  else
    let n := s.afterWrite i ps
    let supplied := ps.any (fun p => p.1 == 2)
    if !n.valid || (supplied && decide (2 < n.state)) then s.raise Kind.SEQ_BAD_ENTRY i
    else
      let adds := n.state != eFREE && Tab.get 0 s.seq.owner i != n.tenant + 1
      if adds && !s.underCap n.tenant then s.raise Kind.SEQ_CAP (i + 2 ^ 18 * n.tenant)
      else s.applyEntry i n

/-- The entries a run of window words touches (R27). -/
def entriesTouched (page w n : Nat) : List Nat :=
  (List.range ((w + n - 1) / 4 - w / 4 + 1)).map (fun i => 16384 * page + w / 4 + i)

/-- The ownership test of R122 for a write: `ps` are the words written to an entry. -/
def State.ownsWrite (s : State) (t page w : Nat) (ws : List Word) : Bool :=
  (entriesTouched page w ws.length).all (fun i =>
    let e := s.entry i
    let n := s.afterWrite i (wordsOf w ws (i - 16384 * page))
    (e.state == eFREE || e.tenant == t) && (n.state == eFREE || n.tenant == t))

/-- The ownership test of R122 for a read. -/
def State.ownsRead (s : State) (t page w n : Nat) : Bool :=
  (entriesTouched page w n).all (fun i => (s.entry i).state == eFREE || (s.entry i).tenant == t)

/-- Serve a write of window 0xFFFE for tenant `t` (R126). -/
def State.writeEph (s : State) (page w : Nat) (ws : List Word) : State :=
  (entriesTouched page w ws.length).foldl
    (fun s i => s.writeEntry i (wordsOf w ws (i - 16384 * page))) s

/-- A word of window 0xFFFE as tenant `t` reads it: a FREE entry reads as 0 to every tenant but T00
(R122). -/
def State.readEph (s : State) (t page w : Nat) : Word :=
  let e := s.entry (16384 * page + w / 4)
  if t != 0 && e.state == eFREE then 0 else recordWord e.raw (w % 4)

/-! ### Dispatch leads (R125, R242) -/

/-- The dispatch lead of an entry (R125); a LATCH is led by the frame time of its port too, which the lookup
of its channel has given. -/
def State.lead (s : State) (e : Eph) (port : Option Nat) : Nat :=
  match e.act with
  | 0 | 2 => 0
  | _ => s.get SEQ_CFG.LEAD + (match port with | some p => s.ftime p | none => 0)

/-- The dispatch lead of a queued firing. -/
def State.leadOf (s : State) (f : Firing) : Nat := s.lead (s.entry f.entry) f.port

/-- The dispatch of a queued firing falls due in the next `n` ticks. -/
def State.dispatchBy (s : State) (f : Firing) (n : Nat) : Bool :=
  decide (dt f.instant s.ticks ≤ s.leadOf f + n)

/-- The dispatch of a queued firing falls due in this tick or before: it goes at its old instant, before
a recomputation or a change of direction (R136, R154). -/
def State.dispatchDue (s : State) (f : Firing) : Bool := s.dispatchBy f 0

/-! ### Runs and motion (R131, R132, R136, R148 to R152) -/

/-- RUNFROM of a domain (R132). -/
def State.runfrom (s : State) (d : Nat) : Nat := s.get (SEQ_RUNFROM.PHASE d)

/-- Whether a target is passed (R132). -/
def State.passed (s : State) (d tgt : Nat) : Bool :=
  if s.fwd d then decide (0 < phDiff tgt (s.runfrom d)) && decide (0 ≤ phDiff (s.phaseNow d) tgt)
  else decide (phDiff tgt (s.runfrom d) < 0) && decide (phDiff (s.phaseNow d) tgt ≤ 0)

/-- The queued firings of a domain. -/
def State.domainFirings (s : State) (d : Nat) : List Firing :=
  s.seq.wheel.filter (fun f => (s.entry f.entry).trigkind != 0 && (s.entry f.entry).domain == d)

/-- The firings of a domain are withdrawn (R149, R151). -/
def State.withdrawDomain (s : State) (d : Nat) : State :=
  (s.domainFirings d).foldl (fun s f => s.withdraw f.entry) s

/-- Skip one-shot entries for which `p` holds, and let REV entries for which `q` holds wait for
re-arming; count them and report the slip or resumption (R149, R150). -/
def State.skipEntries (s : State) (d : Nat) (p q : Eph → Bool) : State :=
  let live := s.seq.eph.filter (fun x =>
    let e := x.2
    e.trigkind != 0 && e.domain == d && (e.state == eARMED || e.state == eQUEUED)
      && (if e.trigkind = 2 then q e else p e))
  let s := live.foldl (fun s x =>
    if x.2.trigkind = 2 then s.setEntry x.1 { s.entry x.1 with nextSet := false }
    else s.entryState x.1 eSKIPPED) s
  (s.addSat SEQ_COUNT.SKIP live.length).raise Kind.SEQ_SKIP (d + 2 ^ 16 * min live.length 0xFFFF)

/-- A slip (R149): firings withdrawn, entries of the skipped span skipped. -/
def State.seqSlip (s : State) (d from_ to_ : Nat) : State :=
  let s := s.withdrawDomain d
  let f := decide (0 ≤ phDiff to_ from_)
  let inSpan := fun (e : Eph) =>
    permits e.dir f && (if f then decide (0 < phDiff e.trig from_) && decide (phDiff e.trig to_ ≤ 0)
      else decide (phDiff e.trig from_ < 0) && decide (0 ≤ phDiff e.trig to_))
  s.skipEntries d inSpan (fun e => e.nextSet && inSpan e)

/-- Resumption of a domain (R136, R150). -/
def State.seqResume (s : State) (d : Nat) : State :=
  let s := s.set (SEQ_RUNFROM.PHASE d) (s.get (PH_SLIP_TO.PHASE d))
  let s := s.skipEntries d (fun e => permits e.dir (s.fwd d) && s.passed d e.trig) (fun _ => false)
  let s := s.set (SEQ_RUNFROM.PHASE d) (s.phaseNow d)
  let s := { s with seq := { s.seq with ref := Tab.put none s.seq.ref d (s.dom d).eff } }
  s.rearm d (s.phaseNow d) true

/-- The domain enters TRACK from ACQUIRE with its first phase (R131, R132, R136). -/
def State.seqTrack (s : State) (d : Nat) : State :=
  let s := s.set (SEQ_RUNFROM.PHASE d) (s.phaseNow d)
  let s := { s with seq := { s.seq with ref := Tab.put none s.seq.ref d (s.dom d).eff } }
  s.rearm d (s.phaseNow d) false

/-- The drift of R136 between two models over the horizon. -/
def State.drift (s : State) (new ref_ : Model) : Nat :=
  let h := s.get SEQ_HORIZON.TICKS
  [0, h / 2, h].foldl (fun m o =>
    let u := (s.ticks + o) % 2 ^ 48
    max m (phDiff (new.at u) (ref_.at u)).natAbs) 0

/-- The tick, counted from now, at which the `k`-th firing has its turn in a recomputation: 4 firings a
sequencer clock of 125/64 tick (R136). -/
def recomputeTurn (k : Nat) : Nat := k / 4 * 125 / 64

/-- Recomputation of a domain's queued firings under a new model: one whose dispatch falls due before its
turn keeps its instant (R136, R154). -/
def State.recompute (s : State) (d : Nat) : State :=
  match (s.dom d).eff, Tab.get none s.seq.ref d with
  | some m, some r =>
    if s.drift m r ≤ s.get (SEQ_RETOL.STEPS d) then s
    else
      let s := { s with seq := { s.seq with ref := Tab.put none s.seq.ref d (some m) } }
      let fs := s.domainFirings d
      ((((List.range fs.length).zip fs).filter (fun x => !s.dispatchBy x.2 (recomputeTurn x.1))).map (fun x => x.2)).foldl
        (fun s f =>
          match cross (s.fwd d) m (s.entry f.entry).target s.ticks (s.get SEQ_HORIZON.TICKS) with
          | some o => s.setWheel (s.seq.wheel.map (fun (g : Firing) =>
              if g.entry = f.entry then { g with instant := (s.ticks + o) % 2 ^ 48 } else g))
          | none => s.withdraw f.entry) s
  | some m, none => { s with seq := { s.seq with ref := Tab.put none s.seq.ref d (some m) } }
  | none, _ => s

/-- RUNFROM follows the extreme X at a distance of at most 2^40 steps (R132). -/
def State.moveRunfrom (s : State) (d : Nat) : State :=
  let s := s.updateX d
  let x := (s.dom d).x
  let far := if s.fwd d then phDiff x (s.runfrom d) else phDiff (s.runfrom d) x
  if decide (2 ^ 40 < far) then
    s.setInt (SEQ_RUNFROM.PHASE d) ((x : Int) + (if s.fwd d then -(2 ^ 40) else 2 ^ 40))
  else s

/-- Shift a ring-time value. -/
def shiftTicks (t : Nat) (off : Int) : Nat := (((t : Int) + off).emod (2 ^ 48)).toNat

/-- A change of ring time by `off` moves every instant the sequencer holds and TRIG of every TIME
entry that is IDLE, ARMED or QUEUED (R152), and the tick a lane awaits (R172). -/
def State.shiftSeq (s : State) (off : Int) : State :=
  let eph := s.seq.eph.foldl (fun t x =>
    if x.2.trigkind = 0 && inSpan x.2.state 1 4 then
      Tab.put Eph.free t x.1 { x.2 with trig := shiftTicks x.2.trig off }
    else t) s.seq.eph
  let eng := s.eng.foldl (fun (m : Tab Eng) x =>
    match x.2.wait with
    | .time t rd => Tab.put Eng.reset m x.1 { x.2 with wait := Wait.time (shiftTicks t off) rd }
    | _ => m) s.eng
  { s with eng := eng, seq := { s.seq with
    eph := eph
    ref := s.seq.ref.map (fun r => (r.1, r.2.map (fun (m : Model) => { m with ts := shiftTicks m.ts off })))
    wheel := s.seq.wheel.map (fun f => { f with instant := shiftTicks f.instant off })
    acts := s.seq.acts.map (fun a => { a with instant := shiftTicks a.instant off })
    timed := s.seq.timed.map (fun t => { t with instant := shiftTicks t.instant off }) } }

/-- The lanes that wait for a phase of domain `d` are to resume with `val` (R171). -/
def State.endPhaseWaits (s : State) (d val : Nat) : State :=
  s.each 8 (fun k s =>
    let e := Tab.get Eng.reset s.eng k
    match e.wait with
    | .phase d' _ _ rd =>
      if d' = d then { s with eng := Tab.put Eng.reset s.eng k { e with wait := Wait.phaseOut val rd } } else s
    | _ => s)

/-- The effect point of a dispatched action: nothing of it is left to wait for (R125, R144). -/
def State.actEffect (s : State) (id : Nat) : State :=
  { s with seq := { s.seq with acts := s.seq.acts.filter (fun (a : Act) => a.id != id) } }

/-- An action by its number. -/
def State.act (s : State) (id : Nat) : Option Act := s.seq.acts.find? (fun (a : Act) => a.id == id)

/-- Whether an action still has a deadline to meet. -/
def Act.timedOut (a : Act) : Bool := a.e.dlkind != 0 && !a.noDl

/-- An action ends without its effect: it is kept for its deadline alone (R53, R144). -/
def State.endAct (s : State) (id : Nat) : State :=
  match s.act id with
  | none => s
  | some a => if a.timedOut then s else s.actEffect id

end Sys2Proof.Machine
end

