-- ==== Sys2Proof/Machine/Access.lean ====
section
/-! DEFINITION. Chapter 01, the decode of an access (R30 to R32): the checks in their order, the
statuses and the address faults. -/

namespace Sys2Proof.Machine

/-- What the decode of an access finds: a refusal with its status, a window, a user channel with
its entry, or that the lookup has to wait for a way of the channel cache (R59). -/
inductive Target where
  | waits
  | refused (status : Nat)
  | window
  | channel (e : Entry)
  deriving DecidableEq, Repr

/-- The statuses of R32. -/
def stOK : Nat := 0
def stRESERVED : Nat := 1
def stNOCHAN : Nat := 2
def stRANGE : Nat := 3
def stTENANT : Nat := 4
def stBCAST : Nat := 5

/-- The fault kind of a refusal (R32). -/
def statusKind (st : Nat) : Kind :=
  match st with
  | 1 => Kind.ADDR_RESERVED
  | 2 => Kind.ADDR_NOCHAN
  | 3 => Kind.ADDR_RANGE
  | 4 => Kind.ADDR_TENANT
  | _ => Kind.ADDR_BCAST

/-- An earlier access to a user channel waits for a way of the cache: those behind it keep their order (R37,
R59). -/
def State.blockedOn (s : State) (ch : Nat) : Bool :=
  s.tbl.blocked.any (fun x => match x with | .write _ _ _ c _ _ => c == ch | .read _ _ c _ _ _ _ _ _ => c == ch | _ => false)

/-- The last word of a window (R25, R29). -/
def windowLast (ch : Nat) : Nat :=
  match ch with
  | 0xFFFA => 16383
  | 0xFFFB => 40959
  | 0xFFFC => 127
  | _ => 65535

/-- The ephemeris page of tenant `t` (R27). -/
def State.ephPage (s : State) (t : Nat) : Nat := s.get (SEQ_EPH_PAGE.PAGE t)

/-- The decode of R30 at this hub: a broadcast or not, tenant, channel, word, and the words written or
the number read. -/
def State.decode (s : State) (bcast : Bool) (t ch w n : Nat) (ws : Option (List Word)) : State × Target :=
  if bcast && (ws.isNone || (decide (0xFFF0 ≤ ch) && ch != 0xFFFD)) then (s, .refused stBCAST)
  else if inSpan ch 0xFFF0 0xFFFA then (s, .refused stRESERVED)
  else if decide (0xFFFA ≤ ch) && ch != 0xFFFE && t != 0 then (s, .refused stTENANT)
  else if ch < 0xFFF0 then
    match (if s.blockedOn ch then none else s.lookup ch) with
    | none => (s, .waits)
    | some (s, e) =>
      if !e.valid then (s, .refused stNOCHAN)
      else if t != 0 && e.tenant != t then (s, .refused stTENANT)
      else if e.extent ≤ w + n - 1 then (s, .refused stRANGE)
      else (s, .channel e)
  else if windowLast ch < w + n - 1 then (s, .refused stRANGE)
  else if ch == 0xFFFE && t != 0 && !(match ws with
      | some ws => s.ownsWrite t (s.ephPage t) w ws
      | none => s.ownsRead t (s.ephPage t) w n) then (s, .refused stTENANT)
  else (s, .window)

/-- A refused access raises its fault kind; the address names channel and word (R32, R34). -/
def State.refuse (s : State) (st ch w : Nat) : State := s.raise (statusKind st) (ch * 2 ^ 16 + w)

/-- The RESP to a READ (R315): to the requester that the return word names, with the status, and with no
data where it is not OK. -/
def State.respCell (s : State) (ret : Word) (cls : BitVec 2) (st : Nat) (ws : List Word) : Cell :=
  { node := BitVec.ofNat 16 (wbits ret 47 32), f1 := BitVec.ofNat 16 s.node, f2 := BitVec.ofNat 16 (wbits ret 15 0)
    kind := kRESP, cls := cls, wrap := 0, ten := BitVec.ofNat 4 st
    nm1 := BitVec.ofNat 5 (if st = 0 then ws.length - 1 else 0)
    words := pad20 (if st = 0 then ws else []) }

end Sys2Proof.Machine
end

