-- ==== Sys2Proof/Machine/Chain.lean ====
section
/-! DEFINITION. Chapter 07: the chain ports with their images, frames, readback and re-drive, and the
heads at the far end of their wires. -/

namespace Sys2Proof.Machine

/-- The address of a CHN fault (R259). -/
def chnAddr (p seqno : Nat) : Nat := seqno % 256 * 256 + p

/-- Raise CHN_CONFIG. -/
def State.chnConfig (s : State) (p : Nat) : State := s.raise Kind.CHN_CONFIG (chnAddr p 0)

/-- 2 × LATW bay clocks in ticks: the time a frame stays clear of the LAT edge before it (R243). -/
def State.latGap (s : State) (p : Nat) : Nat := ceilDiv (2 * s.get (CHP_TIMING.LATW p) * 125) 32

/-- The pins of the port are all CHAIN (R194). -/
def State.chPinsOk (s : State) (p : Nat) : Bool :=
  (List.range 7).all (fun i => s.pinFn (p / 2) (8 * (p % 2) + i) == 2)

/-- Whether the port sends frames in this mode (R252, R479): not in Recovery, and not in Hold with
HOLDACT = 1. -/
def State.chSends (s : State) (p : Nat) : Bool :=
  s.chOn p && s.mode != mRecovery && s.mode != mShadow && !(s.holdLike && s.on (CHP_CTL.HOLDACT p))

/-- The image of a channel's words (R23, R236): points above P are dropped, missing ones are 0. -/
def imageOf (ws : List Word) (points : Nat) : Nat :=
  (ws.reverse.foldl (fun n w => n * 2 ^ 48 + w.toNat) 0) % 2 ^ points

/-- A MOVE of `e` to the port has moved its last beat (R236): the fill buffer becomes PENDING. -/
def State.chainMoved (s : State) (p : Nat) (e : Entry) (ws : List Word) : State :=
  let r := s.port p
  let n := min e.points (s.chPoints p)
  let s := s.setPort p { r with pending := imageOf ws n, fresh := true }
  if s.chPoints p < e.points then s.raise Kind.CHN_SIZE (chnAddr p 0) else s

/-- A LATCH reaches the port (R237, R252): whether it goes on to a frame, and the state. -/
def State.chainLatch (s : State) (p : Nat) (l : Latch) : State × Bool :=
  if s.holdLike then (s, false)
  else if !s.on (CHP_CTL.EN p) then (s.chnConfig p, false)
  else if !s.chOn p then (s, false)
  else (s.setPort p { s.port p with latches := (s.port p).latches ++ [l] }, true)

/-- The LATCHes that wait at the port do nothing (R252). -/
def State.dropLatches (s : State) (p : Nat) : State :=
  let s := (s.port p).latches.foldl (fun s (l : Latch) => s.endAct l.act) s
  let s := if s.get (CHP_STAT.STATE p) = cpABORTING then s.set (CHP_STAT.STATE p) cpIDLE else s
  s.setPort p { s.port p with latches := [] }

/-- The port sends, while the drivers of its bay are on (R196, R198). -/
def State.chEmit (s : State) (p : Nat) (o : Out) : State := if s.driversOn (p / 2) then s.emit o else s

/-! ### Registers -/

/-- Show FTIME (R242). -/
def State.showFtime (s : State) (p : Nat) : State := s.set (CHP_STAT.FTIME p) (s.ftime p)

/-- Enable the port (R234): the pins are checked now, once. -/
def State.enablePort (s : State) (p : Nat) : State :=
  let s := s.set (CHP_CTL.EN p) 1
  if s.chPinsOk p then
    let r := s.port p
    let pads := s.padsOf (p / 2)
    let s := ((s.setPort p { r with prev := none, frame := none, repDue := false, lastLat := s.now, parity := 0, unused := true }).set
      (CHP_STAT.STATE p) cpIDLE).showFtime p
    (s.settleChains (p / 2)).settlePads (p / 2) pads
  else s.chnConfig p

/-- Disable the port: a frame in progress ends without a LAT edge, and its LATCH without an effect; its pins
are let go. -/
def State.disablePort (s : State) (p : Nat) : State :=
  let s := s.dropLatches p
  let s := match (s.port p).frame.bind (fun (f : ChFrame) => f.act) with
    | some a => s.endAct a
    | none => s
  let pads := s.padsOf (p / 2)
  (((s.set (CHP_CTL.EN p) 0).set (CHP_STAT.STATE p) cpDISABLED).setPort p
    { s.port p with frame := none, repDue := false, takeover := false }).settlePads (p / 2) pads

/-- A KICK (R248). -/
def State.kick (s : State) (p : Nat) : State :=
  if s.chOn p then s.setPort p { s.port p with repDue := true } else s

/-- A write of `CHPk_CTL`. -/
def State.writeChpCtl (s : State) (p : Nat) (v : Word) : State :=
  let s := s.set (CHP_CTL.HOLDACT p) (wbits v 1 1)
  let was := s.on (CHP_CTL.EN p)
  let s := if wbits v 0 0 = 1 then (if was then s else s.enablePort p)
    else if was then s.disablePort p else s
  if wbits v 2 2 = 1 then s.kick p else s

/-- The images of port `p` hold P points (R236). -/
def State.cutImages (s : State) (p : Nat) : State :=
  let r := s.port p
  let n := 2 ^ s.chPoints p
  s.setPort p { r with pending := r.pending % n, current := r.current % n, previous := r.previous % n }

/-- A write of `CHPk_CFG` (R235). -/
def State.writeChpCfg (s : State) (p : Nat) (v : Word) : State :=
  let d := wbits v 12 0
  if s.on (CHP_CTL.EN p) || d % 2 = 1 || d < 8 || 4096 < d then s.chnConfig p
  else
    (((s.set (CHP_CFG.PM1 p) (wbits v 29 16)).set (CHP_CFG.VERIFY p) (wbits v 15 15)).set
      (CHP_CFG.DIV p) d).cutImages p |>.showFtime p

/-- A write of `CHPk_TIMING` (R235). -/
def State.writeChpTiming (s : State) (p : Nat) (v : Word) : State :=
  if s.on (CHP_CTL.EN p) || wbits v 23 16 < 4 || wbits v 15 8 < 8 then s.chnConfig p
  else
    (((s.set (CHP_TIMING.LSU p) (wbits v 23 16)).set (CHP_TIMING.LATW p) (wbits v 15 8)).set
      (CHP_TIMING.RBDLY p) (wbits v 4 0)).showFtime p

/-! ### Frames (R236 to R250) -/

/-- Start a frame at the present tick with its LAT edge at `lat`: PREVIOUS takes CURRENT, a NEW frame
takes PENDING where a MOVE has filled it, SEQ counts (R236 to R240).  The RB bits end RBDLY bay clocks after the
period of clock 39 + D (R239). -/
def State.startFrame (s : State) (p : Nat) (latch : Option Latch) (lat : Nat) : State :=
  let r := s.port p
  let isNew := latch.isSome
  let take := isNew && r.fresh
  let chClaim := match latch with | some l => l.claim | none => r.claim
  let seqno := (s.get (CHP_STAT.SEQ p) + 1) % 256
  let f : ChFrame := {
    isNew := isNew, seqno := seqno, claim := if chClaim = 0 then s.eclaim else chClaim
    startAt := ceilDiv (s.now * 32) 125
    judgeAt := s.now + ceilDiv (((40 + s.chD p) * s.chDiv p + s.get (CHP_TIMING.RBDLY p)) * 125) 32
    latAt := lat, act := latch.map (fun l => l.act), judged := false, redrive := false
    sent := s.mode != mShadow, first := r.unused }
  let cur := if take then r.pending else r.current
  let s := s.setPort p { r with
    previous := r.current, current := cur, fresh := if isNew then false else r.fresh, claim := chClaim
    frame := some f, unused := false, repDue := if isNew then r.repDue else false
    firstLat := if isNew && cur != r.current then none else r.firstLat }
  let s := (s.set (CHP_STAT.SEQ p) seqno).set (CHP_STAT.STATE p) cpFRAME
  let header := s.headerOf p f
  let image := s.sentImage p
  (s.chEmit p (.chainFrame p header image (frameCrc header image (s.chD p)))).settleChains (p / 2)

/-- LAT rises, for LATW bay clocks (R243). -/
def State.latRises (s : State) (p : Nat) : State :=
  ((s.setPort p { s.port p with latFall := s.bayClock + s.get (CHP_TIMING.LATW p) }).chEmit p (.chainLat p)).settleChains
    (p / 2)

/-- The core-clock tick of a ring-time instant. -/
def State.tickOf (s : State) (instant : Nat) : Nat := ((s.now : Int) + dt instant s.ticks).toNat

/-- The tick at which a LATCH's frame starts: on the bay clock at or before instant − FTIME (R242), and
not before the port is free (R243, R250). -/
def State.latchStart (s : State) (p : Nat) (l : Latch) : Nat :=
  let due := (s.tickOf l.instant - s.ftime p) * 32 / 125 * 125 / 32
  max (max due s.now) (s.port p).gapEnd

/-- Start the frame of the first waiting LATCH. -/
def State.startLatch (s : State) (p : Nat) (l : Latch) : State :=
  let start := s.latchStart p l
  let lat := max (s.tickOf l.instant) (start + s.ftime p)
  let s := s.waitUntil start
  let s := s.setPort p { s.port p with latches := (s.port p).latches.tail }
  s.startFrame p (some l) lat

/-- Abort the REPEAT frame in progress with a LAT pulse ahead of a LATCH frame's start (R249). -/
def State.abortFrame (s : State) (p : Nat) (l : Latch) : State :=
  let s := s.waitUntil (s.latchStart p l - s.latGap p)
  let s := (s.inc (CHP_ERR.ABORT p)).set (CHP_STAT.STATE p) cpABORTING
  let sent := ((s.port p).frame.map (fun (f : ChFrame) => f.sent)).getD false
  let s := s.setPort p { s.port p with frame := none, gapEnd := s.now + s.latGap p }
  if sent then s.latRises p else s

/-- FRAME_START (R242, R248 to R250): the frame that is due next.  A LATCH frame has the port from its
start on, and aborts a REPEAT frame ahead of it; else a due REPEAT frame starts.  In Hold the LATCHes
that wait do nothing (R252). -/
def execFrameStart (p : Fin 64) (s : State) : Result :=
  let P := p.val
  let s := if s.holdLike then s.dropLatches P else s
  let r := s.port P
  if !s.chOn P || s.mode == mRecovery then .next s
  else
    match r.frame, r.latches with
    | none, l :: _ =>
      if r.repDue && s.chSends P && decide (max s.now r.gapEnd < s.latchStart P l) then
        let s := s.waitUntil r.gapEnd
        .next (s.startFrame P none (s.now + s.ftime P))
      else .next (s.startLatch P l)
    | none, [] =>
      if (r.repDue || r.takeover) && s.chSends P then
        let s := s.waitUntil r.gapEnd
        .next (s.startFrame P none (s.now + s.ftime P))
      else .next s
    | some f, l :: _ =>
      if !f.isNew && decide (s.latchStart P l < f.latAt + s.latGap P) then .next (s.abortFrame P l)
      else .next s
    | some _, [] => .next s

/-- REFRESH_DUE (R248): the next REPEAT frame must start for its LAT edge to keep the period.
The LAT edge of a frame in progress begins a new period. -/
def execRefreshDue (p : Fin 64) (s : State) : Result :=
  let P := p.val
  let per := s.get (CHP_REFRESH.PERIOD P)
  if !s.chSends P || per = 0 || (s.port P).frame.isSome then .next s
  else
    let s := s.waitUntil ((s.port P).lastLat + per - s.ftime P)
    .next (s.setPort P { s.port P with repDue := true })

/-- FRAME_END (R243, R246, R248): the LAT edge of the frame in progress; it is the effect point of the
LATCH the frame serves. -/
def execFrameEnd (p : Fin 64) (s : State) : Result :=
  let P := p.val
  match (s.port P).frame with
  | none => .next s
  | some f =>
    let s := s.waitUntil f.latAt
    let r := s.port P
    let budget := s.get (CHP_VERIFY.BUDGET P)
    let late := f.redrive && budget != 0
      && decide ((r.firstLat.getD f.latAt) + budget < f.latAt)
    let s := s.setPort P { r with
      frame := none, prev := if f.first then none else some f.seqno, lastLat := s.now, gapEnd := s.now + s.latGap P
      firstLat := some (r.firstLat.getD s.now)
      repDue := r.repDue || f.redrive || (f.isNew && s.on (CHP_CFG.VERIFY P) && s.mode != mShadow) }
    let s := s.set (CHP_STAT.STATE P) cpIDLE
    let s := if f.sent then s.latRises P else s
    let s := if late then (s.inc (CHP_ERR.DEADLINE P)).raise Kind.CHN_DEADLINE (chnAddr P f.seqno) else s
    .next (match f.act with | some a => s.actEffect a | none => s)

/-- Bring a level kind of port `p` into cause or out of it; the report names the frame's SEQ. -/
def State.chnLevel (s : State) (k : Kind) (p seqno : Nat) (holds : Bool) : State :=
  let mine := fun (c : Cause) => c.kind = k && c.addr % 64 = p
  if holds then
    if s.flt.causes.any mine then s
    else s.raiseLevel k (chnAddr p seqno)
  else { s with flt := { s.flt with causes := s.flt.causes.filter (fun c => !mine c) } }

/-- A status word's 24 bits hold an odd number of ones (R244). -/
def statusParity (st : BitVec 24) : Bool :=
  (List.range 24).foldl (fun b i => b != st.getLsbD i) false

/-- The lane bits an image gives for lane `L`: bit c is point 4c + L (R239). -/
def laneOf (image d L : Nat) : Nat :=
  (List.range d).foldl (fun n c => if image.testBit (4 * c + L) then n + 2 ^ c else n) 0

/-- READBACK_JUDGEMENT (R245, R246): the status word, the lane bits (bit c from clock 24 + c) and the
image CRC that came back through the frame in progress.  Parity, SAFE and HEALTH are read whatever the outcome; the
first frame after EN is set has none. -/
def execReadbackJudgement (p : Fin 64) (status : BitVec 24) (laneBits : Nat) (crc : BitVec 16) (s : State) : Result :=
  let P := p.val
  match (s.port P).frame with
  | none => .next s
  | some f =>
    if f.judged || !f.sent then .next s
    else
      let s := s.waitUntil f.judgeAt
      let r := s.port P
      let st := status.toNat
      let good := statusParity status
      let sq := r.prev.getD 0
      let s := s.set (CHP_RBSTAT.STATUS P) st
      let par := if good then 0 else r.parity + 1
      let s := s.setPort P { s.port P with parity := par }
      let s := s.chnLevel Kind.CHN_NO_HEAD P sq (decide (4 ≤ par))
      let s := if good then
          (s.chnLevel Kind.CHN_HEAD_SAFE P sq (bits st 7 7 = 1)).chnLevel Kind.CHN_HEAD_FAULT P sq
            (bits st 2 1 != 0)
        else s
      let setFrame := fun (s : State) (redrive : Bool) =>
        s.setPort P { s.port P with frame := some { f with judged := true, redrive := redrive } }
      match r.prev with
      | none => .next (setFrame s false)
      | some _ =>
        let result := bits st 5 3
        let lseq := bits st 15 8
        let d := s.chD P
        if good && result == 0 && lseq == sq && laneBits == laneOf r.previous d (lseq % 4)
            && crc == imageCrc r.previous d then
          let s := s.set (CHP_STAT.VSEQ P) lseq
          .next (setFrame (s.setPort P { s.port P with takeover := false }) false)
        else if good && result == 2 then
          let s := s.inc (CHP_ERR.CLAIM P)
          .next (setFrame (if s.red.quiet then s else s.raise Kind.CHN_OUTCLAIMED (chnAddr P sq)) false)
        else
          let s := (s.inc (CHP_ERR.MISMATCH P)).raise Kind.CHN_RB_MISMATCH (chnAddr P sq)
          .next (setFrame s (r.current == r.previous))

/-- CHAIN_ENABLE (R234): a write of `CHPk_CTL` with EN = 1. -/
def execChainEnable (p : Fin 64) (v : Word) (s : State) : Result := .next (s.writeChpCtl p.val (v ||| 1))

/-- KICK (R248): a write of `CHPk_CTL` with KICK = 1, the other fields unchanged. -/
def execKick (p : Fin 64) (s : State) : Result := .next (s.kick p.val)

/-! ### Heads (R253 to R256) -/

/-- The record of head `h`. -/
def State.head (s : State) (h : Nat) : Option Head := Tab.get none s.heads h

/-- Replace the record of head `h`. -/
def State.setHead (s : State) (h : Nat) (x : Head) : State :=
  { s with heads := Tab.put none s.heads h (some x) }

/-- The RESULT of a frame at a head, by the first check of R253 that fails; 0 where all pass. -/
def Head.judge (x : Head) (f : HeadFrame) : Nat :=
  let d := ceilDiv x.size 4
  if f.clocks ≠ 40 + d then 5
  else if f.preamble ≠ preamble then 4
  else if wbits f.header 13 0 ≠ x.size - 1 then 3
  else if f.crc ≠ frameCrc f.header f.points d then 1
  else if wbits f.header 47 40 < x.claim then 2
  else 0

/-- The status word that a head returns on an input (R244): P makes the number of ones odd. -/
def Head.status (x : Head) (side : Bool) (health : Nat) : BitVec 24 :=
  let v := pack [(x.claim, 8), (x.lseq, 8), (x.safe.toNat, 1), (x.sideB.toNat, 1),
    (if side then x.resultB else x.resultA, 3), (health, 2), (0, 1)]
  BitVec.ofNat 24 (if statusParity (BitVec.ofNat 24 v) then v else v + 1)

/-- What a head drives on RB of an input in a frame, a bit a clock (R239, R256): the status word, lane
LSEQ mod 4 of the latched image, the image CRC; as many bits as the frame has clocks. -/
def Head.readback (x : Head) (side : Bool) (f : HeadFrame) : List Bool :=
  let st := x.status side f.health.toNat
  let d := ceilDiv x.size 4
  ((List.range 24).map (fun i => st.getLsbD (23 - i))
    ++ (List.range d).map (fun c => x.image.testBit (4 * c + x.lseq % 4))
    ++ (List.range 16).map (fun i => x.crc.getLsbD (15 - i))).take f.clocks

/-- A head decides the frame that ended on an input (R253).  A LAT edge with no clock since the one before is
ignored (R247). -/
def Head.decideOn (x : Head) (side : Bool) (f : HeadFrame) : Head :=
  if f.clocks = 0 then x
  else
    let res := x.judge f
    let x := if side then { x with resultB := res, health := f.health.toNat }
      else { x with resultA := res, health := f.health.toNat }
    if res = 0 then
      { x with
        claim := wbits f.header 47 40, lseq := wbits f.header 39 32, sideB := side, safe := false
        image := f.points % 2 ^ x.size, crc := imageCrc f.points (ceilDiv x.size 4)
        chtRuns := true, tsRuns := true }
    else x

/-- HEAD_FRAME_DECISION (R253): at a rising LAT edge the head decides the frame that ended on an input.  Of two
that end at one sampling instant the higher claim is decided first, input A on a tie (R255).  What the head
returned on RB of each came from its state before (R256). -/
def execHeadFrameDecision (h : Fin 64) (a b : Option HeadFrame) (s : State) : Result :=
  match s.head h.val with
  | none => .next s
  | some x =>
    let s := match a with | some f => s.emit (.rb h.val false (x.readback false f)) | none => s
    let s := match b with | some f => s.emit (.rb h.val true (x.readback true f)) | none => s
    let onA := fun (x : Head) => match a with | some f => x.decideOn false f | none => x
    let onB := fun (x : Head) => match b with | some f => x.decideOn true f | none => x
    let claimOf := fun (f : Option HeadFrame) => (f.map (fun (g : HeadFrame) => wbits g.header 47 40)).getD 0
    .next (s.setHead h.val (if claimOf a < claimOf b then onA (onB x) else onB (onA x)))

/-- CLAIM_HOLD_EXPIRY (R254). -/
def execClaimHoldExpiry (h : Fin 64) (s : State) : Result :=
  match s.head h.val with
  | none => .next s
  | some x => .next (if x.chtRuns then s.setHead h.val { x with claim := 0, chtRuns := false } else s)

/-- SAFE_TIMEOUT (R254). -/
def execSafeTimeout (h : Fin 64) (s : State) : Result :=
  match s.head h.val with
  | none => .next s
  | some x =>
    .next (if x.tsRuns then s.setHead h.val { x with claim := 0, safe := true, tsRuns := false } else s)

/-- HEAD_POWER_UP (R256): a head of `size` points, 1 to 16,384 (R253). -/
def execHeadPowerUp (h : Fin 64) (size : Nat) (s : State) : Result :=
  if size = 0 || 16384 < size then .fault (.illFormed "HEAD_POWER_UP")
  else
    .next (s.setHead h.val
      { size := size, claim := 0, safe := true, lseq := 0, sideB := false, resultA := 6, resultB := 6, health := 0
        image := 0, crc := imageCrc 0 (ceilDiv size 4), chtRuns := false, tsRuns := false })

end Sys2Proof.Machine
end

