-- ==== Sys2Proof/Machine/Feeds.lean ====
section
/-! DEFINITION. Chapter 14: the feeds with their start governor, breaker and energy accounts, and the
supervision of the supply with the retention record it writes. -/

namespace Sys2Proof.Machine

/-- The record of feed `f`. -/
def State.feed (s : State) (f : Nat) : Feed := Tab.get Feed.reset s.feeds f

/-- Replace the record of feed `f`. -/
def State.setFeed (s : State) (f : Nat) (r : Feed) : State :=
  { s with feeds := Tab.put Feed.reset s.feeds f r }

/-- The feed states of R432. -/
def fdOFF : Nat := 0
def fdQUEUED : Nat := 1
def fdPRECHARGE : Nat := 2
def fdGATING : Nat := 3
def fdON : Nat := 4
def fdBACKOFF : Nat := 5
def fdLOCKOUT : Nat := 6

/-- `FEED_STAT.STATE`. -/
def State.feedState (s : State) (f : Nat) : Nat := s.get (FEED_STAT.STATE f)

/-- The levels of a feed's outputs GATE, PRE and PG in its state (R431, R432). -/
def State.gateOut (s : State) (f : Nat) : Bool := s.feedState f == fdGATING || s.feedState f == fdON
def State.preOut (s : State) (f : Nat) : Bool := s.feedState f == fdPRECHARGE || s.feedState f == fdGATING
def State.pgOut (s : State) (f : Nat) : Bool := s.feedState f == fdON

/-! ### The start governor (R436, R437) -/

/-- The load of group `g`: INRUSH over its feeds in PRECHARGE or GATING. -/
def State.groupLoad (s : State) (g : Nat) : Nat :=
  (List.range 32).foldl (fun n f =>
    if s.get (FEED_CFG.GROUP f) = g && s.preOut f
    then n + s.get (FEED_CFG.INRUSH f) else n) 0

/-- The queue of group `g`: by PRIO, highest first, then by time of entry. -/
def State.groupQueue (s : State) (g : Nat) : List Nat :=
  let q := s.sup.govQ.filter (fun f => s.get (FEED_CFG.GROUP f) == g)
  (List.range 8).flatMap (fun i => q.filter (fun f => s.get (FEED_CTL.PRIO f) == 7 - i))

/-- Show the governor: QPOS of each feed, USED and QLEN of each group. -/
def State.showGovernor (s : State) : State :=
  let s := s.each 32 (fun f s =>
    let q := s.groupQueue (s.get (FEED_CFG.GROUP f))
    s.set (FEED_STAT.QPOS f) (if q.contains f then q.findIdx (fun x => x == f) + 1 else 0))
  s.each 4 (fun g s =>
    (s.set (SUP_GSTAT.USED g) (s.groupLoad g)).set (SUP_GSTAT.QLEN g) (s.groupQueue g).length)

/-- A feed changes state (R432); FEED_LOCKOUT leaves its cause with LOCKOUT (R459). -/
def State.feedTo (s : State) (f st : Nat) : State :=
  let s := s.set (FEED_STAT.STATE f) st
  let s := { s with sup := { s.sup with govQ :=
    if st = fdQUEUED then s.sup.govQ.filter (fun x => x != f) ++ [f] else s.sup.govQ.filter (fun x => x != f) } }
  let s := s.setFeed f { s.feed f with phaseAt := s.now }
  let s := if st = fdLOCKOUT then s else s.endLevel Kind.FEED_LOCKOUT f
  s.showGovernor

/-- The curve points of a feed that are used: (current in 10 mA, time in 100 µs). -/
def State.curve (s : State) (f : Nat) : List (Nat × Nat) :=
  (List.range 8).map (fun k => (s.get (FEED_CURVE.I f k), s.get (FEED_CURVE.T f k)))

/-- Used points rise in current and do not rise in time, and unused ones follow them (R433). -/
def curveOk : List (Nat × Nat) → Bool
  | [] => true
  | [_] => true
  | a :: b :: rest =>
    (if a.1 = 0xFFFF then b.1 == 0xFFFF
      else b.1 == 0xFFFF || (decide (a.1 < b.1) && decide (b.2 ≤ a.2))) && curveOk (b :: rest)

/-- Raise FEED_CONFIG. -/
def State.feedConfig (s : State) (f : Nat) : State := s.raise Kind.FEED_CONFIG f

/-- ON (R433). -/
def State.feedStart (s : State) (f : Nat) : State :=
  let st := s.feedState f
  if st != fdOFF && st != fdLOCKOUT then s
  else
    let s := if st = fdLOCKOUT then s.set (FEED_STAT.RETRY f) 0 else s
    if s.get (SUP_GRP.BUDGET (s.get (FEED_CFG.GROUP f))) < s.get (FEED_CFG.INRUSH f) || !curveOk (s.curve f) then
      s.feedConfig f
    else s.feedTo f fdQUEUED

/-- OFF with a cause (R433, R442). -/
def State.feedStop (s : State) (f cause : Nat) : State := (s.feedTo f fdOFF).set (FEED_STAT.CAUSE f) cause

/-- A write of `FEED_CTL` (R433, R445): OFF wins over ON. -/
def State.writeFeedCtl (s : State) (f : Nat) (v : Word) : State :=
  let s := (s.set (FEED_CTL.HOLDOFF f) (wbits v 7 7)).set (FEED_CTL.PRIO f) (wbits v 6 4)
  let s := if wbits v 11 11 = 1 then s.setFeed f { s.feed f with dsync := true } else s
  let s := if wbits v 10 10 = 1 then (s.set (FEED_MAXDEM.P f) 0).set (FEED_MAXDEM.TARIFF f) 0 else s
  if wbits v 9 9 = 1 then s.feedStop f 1
  else if wbits v 8 8 = 1 then s.feedStart f
  else s.showGovernor

/-- The value of `FEED_CTL` with its WO bits 0. -/
def State.feedCtl (s : State) (f : Nat) : Word :=
  word (s.get (FEED_CTL.HOLDOFF f) * 128 + s.get (FEED_CTL.PRIO f) * 16)

/-- FEED_ON (R433). -/
def execFeedOn (f : Fin 32) (s : State) : Result := .next (s.writeFeedCtl f.val (s.feedCtl f.val ||| 0x100))

/-- FEED_OFF (R433). -/
def execFeedOff (f : Fin 32) (s : State) : Result := .next (s.writeFeedCtl f.val (s.feedCtl f.val ||| 0x200))

/-- DSYNC (R445). -/
def execDsync (f : Fin 32) (s : State) : Result := .next (s.writeFeedCtl f.val (s.feedCtl f.val ||| 0x800))

/-- CLRMAX (R445). -/
def execClrmax (f : Fin 32) (s : State) : Result := .next (s.writeFeedCtl f.val (s.feedCtl f.val ||| 0x400))

/-- FEED_ADMISSION (R436, R437): the head of the group's queue, where its inrush fits. -/
def execFeedAdmission (g : Fin 4) (s : State) : Result :=
  match s.groupQueue g.val with
  | [] => .next s
  | f :: _ =>
    if s.bit SUP_STAT.BELOW 6 || s.mode == mRecovery
        || decide (s.get (SUP_GRP.BUDGET g.val) < s.groupLoad g.val + s.get (FEED_CFG.INRUSH f)) then .next s
    else .next (s.feedTo f fdPRECHARGE)

/-! ### Switching (R434, R435) and the breaker (R438 to R440) -/

/-- A voltage sample: the latest value, and `FEED_MEAS.V` in mV. -/
def State.feedVolt (s : State) (f vcode : Nat) : State :=
  (s.setFeed f { s.feed f with vcode := vcode }).set (FEED_MEAS.V f)
    (vcode * s.get (FEED_SCALE.VSCALE f) / 1000)

/-- PRECHARGE_DONE (R434): a voltage sample in PRECHARGE; the gate closes at the threshold. -/
def execPrechargeDone (f : Fin 32) (vcode : BitVec 12) (s : State) : Result :=
  let F := f.val
  if s.feedState F != fdPRECHARGE then .next s
  else
    let s := s.feedVolt F vcode.toNat
    if s.get (FEED_CFG.PRE_THRESH F) * 1000 ≤ vcode.toNat * s.get (FEED_SCALE.VSCALE F) then
      let s := s.feedTo F fdGATING
      .next (s.setFeed F { s.feed F with acc := 0 })
    else .next s

/-- A start that fails: LOCKOUT, not retried (R434). -/
def State.startFails (s : State) (f cause : Nat) (k : Kind) : State :=
  (((s.feedTo f fdLOCKOUT).set (FEED_STAT.CAUSE f) cause).inc (FEED_CNT.PREFAIL f)).raise k f

/-- PRECHARGE_FAIL (R434). -/
def execPrechargeFail (f : Fin 32) (s : State) : Result :=
  let F := f.val
  if s.feedState F != fdPRECHARGE then .next s
  else
    let s := s.waitUntil ((s.feed F).phaseAt + msTicks (s.get (FEED_TIME.PRETO F)))
    .next (s.startFails F 4 Kind.PRECHARGE_FAIL)

/-- FEED_UP (R434): GON reads 1. -/
def execFeedUp (f : Fin 32) (s : State) : Result :=
  if s.feedState f.val != fdGATING then .next s
  else .next ((s.feedTo f.val fdON).raise Kind.FEED_UP f.val)

/-- GATE_FAIL (R434). -/
def execGateFail (f : Fin 32) (s : State) : Result :=
  let F := f.val
  if s.feedState F != fdGATING then .next s
  else
    let s := s.waitUntil ((s.feed F).phaseAt + usTicks (10 * s.get (FEED_TIME.GATETO F)))
    .next (s.startFails F 5 Kind.GATE_FAIL)

/-- A trip (R440): backoff while retries are left, else lockout. -/
def State.tripFeed (s : State) (f cause : Nat) (k : Kind) (cnt : Field) : State :=
  let s := ((s.inc cnt).set (FEED_STAT.CAUSE f) cause).raise k f
  let r := s.get (FEED_STAT.RETRY f)
  if r < s.get (FEED_TRIP.RETRIES f) then
    let s := (s.feedTo f fdBACKOFF).set (FEED_STAT.RETRY f) (r + 1)
    s.setFeed f { s.feed f with phaseAt := s.now + msTicks (s.get (FEED_TIME.BACKOFF f) * 2 ^ r) }
  else (s.feedTo f fdLOCKOUT).raiseLevel Kind.FEED_LOCKOUT f

/-- GATE_LOST (R435). -/
def execGateLost (f : Fin 32) (s : State) : Result :=
  .next (if s.feedState f.val = fdON then s.tripFeed f.val 6 Kind.GATE_LOST (FEED_CNT.TRIPS f.val) else s)

/-- FEED_SHORT (R439): the comparator acts while GATE is 1. -/
def execFeedShort (f : Fin 32) (icode : BitVec 12) (s : State) : Result :=
  let F := f.val
  .next (if s.gateOut F && decide (s.get (FEED_TRIP.INST F) < icode.toNat) then
    s.tripFeed F 3 Kind.FEED_SHORT (FEED_CNT.SHORTS F)
  else s)

/-- The trip accumulator after a sample of `i` µA (R438); a time of 0 trips on its first sample. -/
def nextAcc (curve : List (Nat × Nat)) (a i : Nat) : Nat :=
  match curve.filter (fun p => p.1 != 0xFFFF) with
  | [] => a
  | p0 :: rest =>
    if p0.1 * 10000 ≤ i then
      let t := ((rest.filter (fun p => decide (p.1 * 10000 ≤ i))).getLast?.getD p0).2
      a + (if t = 0 then 2 ^ 32 else 2 ^ 32 / (t * 100))
    else a - (if p0.2 = 0 then a else 2 ^ 32 / (p0.2 * 100))

/-- CURRENT_SAMPLE (R438, R443): a current sample, and the latest voltage sample. -/
def execCurrentSample (f : Fin 32) (icode vcode : BitVec 12) (s : State) : Result :=
  let F := f.val
  let s := s.feedVolt F vcode.toNat
  let ua := icode.toNat * s.get (FEED_SCALE.ISCALE F)
  let s := s.set (FEED_MEAS.I F) (ua / 1000)
  let r := s.feed F
  let gate := s.gateOut F
  let a := if gate then nextAcc (s.curve F) r.acc ua else r.acc
  let s := s.setFeed F { r with sum := r.sum + ua * (vcode.toNat * s.get (FEED_SCALE.VSCALE F)), acc := a }
  .next (if gate && decide (2 ^ 32 ≤ a) then s.tripFeed F 2 Kind.FEED_TRIP (FEED_CNT.TRIPS F) else s)

/-- BACKOFF_END (R440): the feed enters the governor's queue again. -/
def execBackoffEnd (f : Fin 32) (s : State) : Result :=
  if s.feedState f.val != fdBACKOFF then .next s
  else .next ((s.waitUntil (s.feed f.val).phaseAt).feedTo f.val fdQUEUED)

/-- RETRY_RESET (R440): 60 s continuously ON. -/
def execRetryReset (f : Fin 32) (s : State) : Result :=
  if s.feedState f.val != fdON then .next s
  else .next ((s.waitUntil ((s.feed f.val).phaseAt + msTicks 60000)).set (FEED_STAT.RETRY f.val) 0)

/-! ### Energy (R443 to R446) -/

/-- Register a tariff change (R444). -/
def State.requestTariff (s : State) (f t : Nat) : State :=
  s.setFeed f { s.feed f with tarReq := some (t % 4) }

/-- TARIFF_REQUEST: a write of `FEED_TSEL`. -/
def execTariffRequest (f : Fin 32) (v : Word) (s : State) : Result :=
  .next (s.requestTariff f.val (wbits v 1 0))

/-- A write of `FEED_DEMAND` (R445): a write of MIN closes the interval as DSYNC does, and the next one has
the new length. -/
def State.writeFeedDemand (s : State) (f : Nat) (v : Word) : State :=
  let m := wbits v 5 0
  if m = 0 || 60 < m then s
  else (s.set (FEED_DEMAND.MIN f) m).setFeed f { s.feed f with dsync := true }

/-- The mean of `e` over `d`, to the nearest unit: R453's worked example has 300,000 mW for 269,999,820 mJ
in 900 s.  DEDUCED. -/
def meanOver (e d : Nat) : Nat := (2 * e + d) / (2 * d)

/-- Credit the period's energy to the tariff in force (R443); `ticks` is the period's length. -/
def State.creditPeriod (s : State) (f ticks : Nat) : State :=
  let r := s.feed f
  let mj := (r.carry + r.sum) / 10 ^ 15
  let t := s.get (FEED_TSEL.TARIFF f)
  let s := s.set (FEED_ENERGY.E f) (s.get (FEED_ENERGY.E f) + mj)
  let s := s.set (FEED_TARIFF.E f t) (s.get (FEED_TARIFF.E f t) + mj)
  let s := if ticks = 0 then s else s.set (FEED_POWER.P f) (meanOver (r.sum * 1562500) (ticks * 10 ^ 12))
  s.setFeed f { r with sum := 0, carry := (r.carry + r.sum) % 10 ^ 15, interval := r.interval + mj }

/-- Close the running demand interval (R445). -/
def State.closeInterval (s : State) (f : Nat) (partial_ : Bool) (ms : Nat) : State :=
  let r := s.feed f
  let s := ((s.setB (FEED_LASTINT.PARTIAL f) partial_).set (FEED_LASTINT.DUR f) (ms / 1000)).set
    (FEED_LASTINT.E f) r.interval
  let p := if ms = 0 then 0 else meanOver (r.interval * 1000) ms
  let s := if !partial_ && decide (s.get (FEED_MAXDEM.P f) < p) then
      (s.set (FEED_MAXDEM.P f) p).set (FEED_MAXDEM.TARIFF f) (s.get (FEED_TSEL.TARIFF f))
    else s
  (s.set (FEED_DEMAND.ELAPSED f) 0).setFeed f { r with interval := 0, dsync := false, mins := s.get (FEED_DEMAND.MIN f) }

/-- The requested tariff takes effect. -/
def State.switchTariff (s : State) (f : Nat) : State :=
  match (s.feed f).tarReq with
  | none => s
  | some t => (s.set (FEED_TSEL.TARIFF f) t).setFeed f { s.feed f with tarReq := none }

/-- The interval due at the end of the running period: complete, or asked for by DSYNC. -/
def State.intervalDue (s : State) (f : Nat) : Bool :=
  decide ((s.feed f).mins * 60000 ≤ s.get (FEED_DEMAND.ELAPSED f) + 1)

/-- The value of a register made of the given fields. -/
def State.assemble (s : State) (fs : List Field) : Word :=
  word (fs.foldl (fun n f => n + s.get f * 2 ^ f.lsb) 0)

/-- The sixteen words of a FEED channel (R446). -/
def State.feedWords (s : State) (f : Nat) : List Word :=
  [s.assemble [FEED_STAT.QPOS f, FEED_STAT.RETRY f, FEED_STAT.CAUSE f, FEED_STAT.STATE f],
   s.assemble [FEED_MEAS.I f, FEED_MEAS.V f], s.assemble [FEED_POWER.P f], s.assemble [FEED_ENERGY.E f],
   s.assemble [FEED_TARIFF.E f 0], s.assemble [FEED_TARIFF.E f 1], s.assemble [FEED_TARIFF.E f 2],
   s.assemble [FEED_TARIFF.E f 3], s.assemble [FEED_TSEL.TARIFF f],
   s.assemble [FEED_DEMAND.ELAPSED f, FEED_DEMAND.MIN f], s.assemble [FEED_MAXDEM.TARIFF f, FEED_MAXDEM.P f],
   s.assemble [FEED_LASTINT.PARTIAL f, FEED_LASTINT.DUR f, FEED_LASTINT.E f],
   s.assemble [FEED_SNAP.LGSEQ f, FEED_SNAP.COINCIDENT f, FEED_SNAP.TARIFFSW f, FEED_SNAP.INTEND f, FEED_SNAP.WARN f],
   word s.gen, word s.ticks, 0]

/-- The period ends for one feed (R443 to R446). -/
def State.endPeriod (s : State) (f : Nat) : State :=
  let s := s.creditPeriod f 1562500
  let ms := s.get (FEED_DEMAND.ELAPSED f) + 1
  let due := s.intervalDue f
  let s := if due then s.closeInterval f false ms
    else if (s.feed f).dsync then s.closeInterval f true ms
    else s.set (FEED_DEMAND.ELAPSED f) ms
  let s := s.switchTariff f
  s.writeLive (bayPort f) (fun e => e.type == tFEED && e.bay == f) (s.feedWords f)

/-- PERIOD_END (R443). -/
def execPeriodEnd (s : State) : Result :=
  let s := s.waitUntil (s.sup.periodAt + 1562500)
  let s := { s with sup := { s.sup with periodAt := s.now } }
  .next (s.each 32 (fun f s => s.endPeriod f))

/-! ### The retention record (R450, R489) -/

/-- The slot of a port's newest valid record: 8-bit half-range comparison of LGSEQ (R489). -/
def State.newestSlot (s : State) (port : Nat) : Option Nat :=
  match Tab.get none s.mgt.slots (2 * port), Tab.get none s.mgt.slots (2 * port + 1) with
  | some a, some b => if 0 < halfRange 8 b.lgseq a.lgseq then some 1 else some 0
  | some _, none => some 0
  | none, some _ => some 1
  | none, none => none

/-- The feed part of the record (R450). -/
def State.retFeed (s : State) (f snap : Nat) : RetFeed :=
  { energy := s.get (FEED_ENERGY.E f), tariffs := (List.range 4).map (fun t => s.get (FEED_TARIFF.E f t))
    tsel := s.get (FEED_TSEL.TARIFF f)
    maxdem := s.get (FEED_MAXDEM.TARIFF f) * 2 ^ 46 + s.get (FEED_MAXDEM.P f)
    interval := (s.feed f).interval, elapsed := s.get (FEED_DEMAND.ELAPSED f), snap := snap }

/-- The bay part of the record: `BAY_MAP` and the FAILED mask (R489). -/
def State.retBay (s : State) (b : Nat) : Nat × Nat :=
  ((s.assemble [BAY_MAP.SPARE b, BAY_MAP.L3 b, BAY_MAP.L2 b, BAY_MAP.L1 b, BAY_MAP.L0 b]).toNat,
   (List.range 5).foldl (fun m t => if s.get (TEN_STAT.STATE b t) = 4 then m + 2 ^ t else m) 0)

/-- A retention record of this state: `snap` gives each feed's snapshot flags. -/
def State.record (s : State) (kind lgseq : Nat) (snap : Nat → Nat) : Retention :=
  { lgseq := lgseq, kind := kind, gen := s.gen, ticks := s.ticks
    feeds := (List.range 32).map (fun f => s.retFeed f (snap f))
    bays := (List.range 32).map (fun b => s.retBay b)
    xstate := s.get XBAR_SPARE.STATE, xserves := s.get XBAR_SPARE.SERVES, repairs := s.mgt.repairs
    nvuse := s.get SPR_STAT.NVUSE, refuse := s.get SPR_STAT.REFUSE }

/-- LGSEQ of the next record. -/
def State.nextLgseq (s : State) : Nat := (s.mgt.lgseq + 1) % 256

/-- Store a record in the slot that does not hold the newest one (R450). -/
def State.storeRecord (s : State) (r : Retention) : State :=
  let port := s.get SPR_STAT.NVUSE % 2
  let slot := match s.newestSlot port with | some 0 => 1 | _ => 0
  ({ s with mgt := { s.mgt with
      slots := Tab.put none s.mgt.slots (2 * port + slot) (some r), lgseq := r.lgseq } }).set
    SUP_LGTIME.LGSEQ r.lgseq

/-- An erase, program or read of a nonvolatile port fails (R491). -/
def State.nvFails (s : State) (port : Nat) : State :=
  let s := s.setBit SPR_STAT.NVOK port false
  if s.get SPR_STAT.NVUSE != port then s.raise Kind.NV_WEAR port
  else if s.bit SPR_STAT.NVOK (1 - port) then (s.set SPR_STAT.NVUSE (1 - port)).raise Kind.NV_SWITCH port
  else s.raise Kind.NV_FAIL port

/-! ### Supply supervision (R447 to R452) -/

/-- The settlement of one feed at a warning, in the order of R452: energy, a due interval, the tariff,
the flags. -/
def State.settleFeed (s : State) (f : Nat) : State :=
  let s := s.creditPeriod f (s.now - s.sup.periodAt)
  let due := s.intervalDue f
  let s := if due then s.closeInterval f false (s.get (FEED_DEMAND.ELAPSED f) + 1)
    else if (s.feed f).dsync then s.closeInterval f true (s.get (FEED_DEMAND.ELAPSED f)) else s
  let sw := (s.feed f).tarReq.isSome
  let s := s.switchTariff f
  let s := ((s.set (FEED_SNAP.WARN f) 1).setB (FEED_SNAP.INTEND f) due).setB (FEED_SNAP.TARIFFSW f) sw
  (s.setB (FEED_SNAP.COINCIDENT f) (due && sw)).set (FEED_SNAP.LGSEQ f) s.nextLgseq

/-- The snapshot flags of a feed (`FEED_SNAP` [3:0]). -/
def State.snapFlags (s : State) (f : Nat) : Nat :=
  (s.assemble [FEED_SNAP.COINCIDENT f, FEED_SNAP.TARIFFSW f, FEED_SNAP.INTEND f, FEED_SNAP.WARN f]).toNat

/-- SUPPLY_WARN (R448): input `i` falls below its warning threshold.  The first one takes the snapshot
and starts the last-gasp write.  SUPMON is supervised only under SMEN (R447). -/
def execSupplyWarn (i : Fin 7) (s : State) : Result :=
  let I := i.val
  if s.bit SUP_STAT.BELOW I || (I == 6 && !s.on SUP_CTL.SMEN) then .next s
  else
    let first := s.get SUP_STAT.BELOW == 0 && s.sup.writing.isNone
    let s := ((s.setBit SUP_STAT.BELOW I true).setBit SUP_LATCH.SEEN I true).raiseLevel Kind.SUPPLY_WARN I
    let s := { s with sup := { s.sup with okDue := true } }
    if !first then .next s
    else
      let s := s.each 32 (fun f s => s.settleFeed f)
      let r := s.record 1 s.nextLgseq (fun f => s.snapFlags f)
      let s := { s with sup := { s.sup with periodAt := s.now, writing := some (s.now, r) } }
      .next (s.set SUP_STAT.LGST 1)

/-- The last-gasp write ends without its record (R449). -/
def State.writeFails (s : State) : State :=
  (({ s with sup := { s.sup with writing := none } }).set SUP_STAT.LGST 3).raise Kind.LASTGASP_FAIL 0

/-- LASTGASP_DONE (R449): within 600 µs; a write that is not done then has failed. -/
def execLastgaspDone (s : State) : Result :=
  match s.sup.writing with
  | none => .next s
  | some (start, r) =>
    if start + usTicks 600 < s.now then .next s.writeFails else
    let s := { s.storeRecord r with sup := { s.sup with writing := none } }
    .next (((s.set SUP_STAT.LGST 2).set SUP_LGTIME.US ((s.now - start) * 2 / 3125)).raise Kind.LASTGASP_DONE 0)

/-- LASTGASP_FAIL (R449): refused by the port in service, or not done at 600 µs. -/
def execLastgaspFail (refused : Bool) (s : State) : Result :=
  match s.sup.writing with
  | none => .next s
  | some (start, _) =>
    let s := if refused then s.nvFails (s.get SPR_STAT.NVUSE % 2) else s.waitUntil (start + usTicks 600)
    .next s.writeFails

/-- SUPPLY_INPUT_RECOVERY (R447): of input `i`, or, from 7 on, of VDD_BANKnn with nn = i - 7. -/
def execSupplyInputRecovery (i : Fin 39) (s : State) : Result :=
  .next (if i.val < 7 then (s.setBit SUP_STAT.BELOW i.val false).endLevel Kind.SUPPLY_WARN i.val
    else (s.setBit SUP_BANKST.BELOW (i.val - 7) false).endLevel Kind.BANK_WARN (32 + (i.val - 7)))

/-- SUPPLY_OK (R448): all supervised inputs have recovered. -/
def execSupplyOk (s : State) : Result :=
  if s.sup.okDue then
    let s := s.each 7 (fun i s => (s.setBit SUP_STAT.BELOW i false).endLevel Kind.SUPPLY_WARN i)
    .next (({ s with sup := { s.sup with okDue := false } }).raise Kind.SUPPLY_OK 0)
  else .next s

/-- BANK_WARN (R447): a bank rail falls below its warning threshold. -/
def execBankWarn (b : Fin 32) (s : State) : Result :=
  .next (if s.get (BAY_CTL.BANK b.val) = 0 then s
    else (s.setBit SUP_BANKST.BELOW b.val true).raiseLevel Kind.BANK_WARN (32 + b.val))

/-- CHECKPOINT (R450): the record of every CKPT.MIN minutes; none while a last gasp is written. -/
def execCheckpoint (s : State) : Result :=
  if s.get SUP_CKPT.MIN = 0 || s.sup.writing.isSome then .next s
  else
    let s := s.waitUntil (s.sup.ckptAt + msTicks (s.get SUP_CKPT.MIN * 60000))
    let s := { s with sup := { s.sup with ckptAt := s.now } }
    .next (s.storeRecord (s.record 0 s.nextLgseq (fun _ => 0)))

/-- A write of `SUP_CTL` (R447); SUPMON counts as no input while it is not supervised. -/
def State.writeSupCtl (s : State) (v : Word) : State :=
  let w := wbits v 11 8
  let b := wbits v 7 4
  if w < 2 || 14 < w || b < 2 || 14 < b then s.raise Kind.SUP_CONFIG 0
  else
    let s := ((s.set SUP_CTL.SMEN (wbits v 12 12)).set SUP_CTL.WARNPCT w).set SUP_CTL.BANKPCT b
    if s.on SUP_CTL.SMEN then s else (s.setBit SUP_STAT.BELOW 6 false).endLevel Kind.SUPPLY_WARN 6

/-- A write of `SUP_SUPMON` (R447). -/
def State.writeSupmon (s : State) (v : Word) : State :=
  if wbits v 9 0 ≤ wbits v 25 16 then s.raise Kind.SUP_CONFIG 6
  else (s.set SUP_SUPMON.RESET (wbits v 25 16)).set SUP_SUPMON.WARN (wbits v 9 0)

/-- The feeds at Hold entry (R442). -/
def State.feedsHold (s : State) : State :=
  s.each 32 (fun f s =>
    if s.on (FEED_CTL.HOLDOFF f) && s.feedState f != fdOFF && s.feedState f != fdLOCKOUT then s.feedStop f 7 else s)

end Sys2Proof.Machine
end

