-- ==== Sys2Proof/Machine/Mbus.lean ====
section
/-! DEFINITION. Chapter 08: the sixteen message-bus controllers with their receive objects, transmit
buffers, error states and tunnel queues. -/

namespace Sys2Proof.Machine

/-- The record of controller `c`. -/
def State.mbus (s : State) (c : Nat) : Mb := Tab.get Mb.reset s.mb c

/-- Replace the record of controller `c`. -/
def State.setMbus (s : State) (c : Nat) (r : Mb) : State := { s with mb := Tab.put Mb.reset s.mb c r }

/-- Receive object `o` of controller `c`. -/
def State.mbObj (s : State) (c o : Nat) : MbObj := Tab.get MbObj.reset (s.mbus c).objs o

/-- Replace a receive object. -/
def State.setMbObj (s : State) (c o : Nat) (x : MbObj) : State :=
  s.setMbus c { s.mbus c with objs := Tab.put MbObj.reset (s.mbus c).objs o x }

/-- Transmit buffer `b` of controller `c`. -/
def State.mbBuf (s : State) (c b : Nat) : MbBuf := Tab.get MbBuf.reset (s.mbus c).bufs b

/-- Replace a transmit buffer. -/
def State.setMbBuf (s : State) (c b : Nat) (x : MbBuf) : State :=
  s.setMbus c { s.mbus c with bufs := Tab.put MbBuf.reset (s.mbus c).bufs b x }

/-- The modes of R263. -/
def mbOFF : Nat := 0
def mbNORMAL : Nat := 1
def mbRESTRICTED : Nat := 2
def mbSLEEP : Nat := 3

/-- The mode in effect: OFF while the hub is in Recovery (R265). -/
def State.mbMode (s : State) (c : Nat) : Nat := if s.mode = mRecovery then mbOFF else s.get (MB_CTL.MODE c)

/-- Whether the controller takes part in its bus and receives. -/
def State.mbActive (s : State) (c : Nat) : Bool := s.mbMode c == mbNORMAL || s.mbMode c == mbRESTRICTED

/-- The error states of `MBnn_ERR.STATE`. -/
def mbErrActive : Nat := 0
def mbErrPassive : Nat := 1
def mbBusOff : Nat := 2

/-- Whether the controller takes part in its bus: active, not bus-off, and not waiting for integration (R265). -/
def State.mbTakesPart (s : State) (c : Nat) : Bool :=
  s.mbActive c && s.get (MB_ERR.STATE c) != mbBusOff && !(s.mbus c).integ

/-- Whether the controller starts frames: it takes part, the bus is idle, no written MODE waits for that, and the
hub's mode does not bar it (R264, R265). -/
def State.mbSends (s : State) (c : Nat) : Bool :=
  s.mbTakesPart c && s.mode != mShadow && s.mode != mHold && !(s.mbus c).busy && (s.mbus c).newMode.isNone

/-- The controller acknowledges a valid frame; in Shadow it sends nothing (R263, R265). -/
def State.mbAck (s : State) (c : Nat) : State :=
  if s.mbActive c && s.mode != mShadow then s.emit (.busAck c) else s

/-- The controller sends an error frame: in NORMAL, not in RESTRICTED nor in Shadow (R263, R265). -/
def State.errorFrame (s : State) (c : Nat) : State :=
  if s.mbMode c == mbNORMAL && s.mode != mShadow then s.emit (.busError c) else s

/-- The address of an MBUS fault: the controller and an object, or a buffer as 512 + b (R283). -/
def mbAddr (c obj : Nat) : Nat := obj * 16 + c

/-! ### Frames as channel words (R268) -/

/-- The data length of a DLC (R268). -/
def dlcLength (fd : Bool) (dlc : Nat) : Nat :=
  if dlc ≤ 8 then dlc
  else if !fd then 8
  else match dlc with
    | 9 => 12 | 10 => 16 | 11 => 20 | 12 => 24 | 13 => 32 | 14 => 48 | _ => 64

/-- The last data word L of a frame whose word 0 is `w0`. -/
def lastWord (w0 : Word) : Nat := 2 + ceilDiv (dlcLength (w0.getLsbD 43) (wbits w0 38 35)) 6

/-- An identifier as a frame carries it: one of 11 bits sits in [28:18] with [17:0] zero (R268). -/
def idOf (ide : Bool) (id : Nat) : Nat := if ide then id else id / 2 ^ 18 * 2 ^ 18

/-- Word 0 of a received frame with NEW and LOST; BRS and ESI belong to FD frames. -/
def frameWord0 (f : BusFrame) (isNew lost : Bool) : Word :=
  word (pack [(isNew.toNat, 1), (lost.toNat, 1), (0, 2), (f.fdf.toNat, 1), ((f.fdf && f.brs).toNat, 1),
    ((f.fdf && f.esi).toNat, 1), (f.ide.toNat, 1), (f.rtr.toNat, 1), (f.dlc.toNat, 4), (0, 6),
    (idOf f.ide f.id.toNat, 29)])

/-- The data words 3 on of a frame, `n` of them, most significant byte first. -/
def dataWordsOf (bytes : List Byte) (n : Nat) : List Word :=
  (List.range n).map (fun i =>
    word (ofBytes ((List.range 6).map (fun j => bytes.getD (6 * i + j) 0))))

/-- The data bytes of a received frame: as many as its DLC gives; a remote frame has none. -/
def busBytes (f : BusFrame) : List Byte :=
  if f.rtr then [] else f.data.take (dlcLength f.fdf f.dlc.toNat)

/-- The sixteen words of a receive object (R268): the sample point of the frame's SOF was `ago` ticks ago. -/
def State.objectWords (s : State) (f : BusFrame) (ago : Nat) : List Word :=
  [frameWord0 f false false, word s.gen, word (s.ticks + 2 ^ 48 - ago % 2 ^ 48)] ++ dataWordsOf (busBytes f) 11 ++ [0, 0]

/-- The frame of a transmit buffer's or tunnel frame's words; an error-passive controller sends ESI recessive in
an FD frame (ISO 11898-1, R261). -/
def frameOf (ws : List Word) (passive : Bool) : BusFrame :=
  let w := ws.getD 0 0
  { ide := w.getLsbD 40, rtr := w.getLsbD 39, fdf := w.getLsbD 43, brs := w.getLsbD 42
    esi := w.getLsbD 43 && passive
    dlc := BitVec.ofNat 4 (wbits w 38 35), id := BitVec.ofNat 29 (idOf (w.getLsbD 40) (wbits w 28 0))
    data := if w.getLsbD 39 then []
      else (wordBytes (ws.drop 3)).take (dlcLength (w.getLsbD 43) (wbits w 38 35)) }

/-- The arbitration field as a number: the least wins (R275).  A standard data frame goes before a
remote frame and an extended frame of the same base identifier. -/
def arbKey (w0 : Word) : Nat :=
  let id := wbits w0 28 0
  let rtr := (w0.getLsbD 39).toNat
  id / 2 ^ 18 * 2 ^ 21 + (if w0.getLsbD 40 then 2 ^ 20 + 2 ^ 19 + id % 2 ^ 18 * 2 + rtr else rtr * 2 ^ 20)

/-! ### Configuration (R262, R264) -/

/-- Raise MB_CONFIG. -/
def State.mbConfig (s : State) (c : Nat) : State := s.raise Kind.MB_CONFIG (mbAddr c 0)

/-- A nominal bit and its part up to the sample point, in controller clocks (R262). -/
def State.mbBit (s : State) (c : Nat) : Nat :=
  (s.get (MB_NBT.NBRP c) + 1) * (3 + s.get (MB_NBT.NTSEG1 c) + s.get (MB_NBT.NTSEG2 c))
def State.mbSample (s : State) (c : Nat) : Nat := (s.get (MB_NBT.NBRP c) + 1) * (2 + s.get (MB_NBT.NTSEG1 c))

/-- Controller clocks in ticks: one is 12.5 ns (R260). -/
def mbTicks (n : Nat) : Nat := n * 625 / 32

/-- The bit timing keeps the limits of R262: at most 1 Mbit/s nominal and 8 Mbit/s data, SJW at most
TSEG2, and with TDCEN = 1 the secondary sample point at most 127 clocks away. -/
def State.mbTimingOk (s : State) (c : Nat) : Bool :=
  decide (80 ≤ s.mbBit c)
    && decide (10 ≤ (s.get (MB_DBT.DBRP c) + 1) * (3 + s.get (MB_DBT.DTSEG1 c) + s.get (MB_DBT.DTSEG2 c)))
    && decide (s.get (MB_NBT.NSJW c) ≤ s.get (MB_NBT.NTSEG2 c))
    && decide (s.get (MB_DBT.DSJW c) ≤ s.get (MB_DBT.DTSEG2 c))
    && (!s.on (MB_DBT.TDCEN c) || decide (s.get (MB_DBT.TDCO c) + Config.txDelay c ≤ 127))

/-- A write of `MBnn_CTL` (R262, R264): MODE is checked and waits for bus idle. -/
def State.writeMbCtl (s : State) (c : Nat) (v : Word) : State :=
  if wbits v 3 2 = 3 then s
  else
    let m := wbits v 1 0
    let s := s.set (MB_CTL.WAKESRC c) (wbits v 3 2)
    let starts := s.get (MB_CTL.MODE c) == mbOFF && m != mbOFF
    if (m == mbSLEEP && !s.on (MB_CFG.G1 c)) || (starts && !s.mbTimingOk c) then s.mbConfig c
    else s.setMbus c { s.mbus c with newMode := some m }

/-- MB_MODE_WRITE: a write of `MBnn_CTL`. -/
def execMbModeWrite (c : Fin 16) (v : Word) (s : State) : Result := .next (s.writeMbCtl c.val v)

/-- Whether a write of CFG, NBT or DBT is taken: while MODE is OFF (R264). -/
def State.mbConfigurable (s : State) (c : Nat) : Bool := s.get (MB_CTL.MODE c) == mbOFF

/-- Tell the controller's error state (R277, R459). -/
def State.setErrState (s : State) (c st : Nat) : State :=
  let s := s.set (MB_ERR.STATE c) st
  (s.level Kind.MB_PASSIVE (mbAddr c 0) (st == mbErrPassive)).level Kind.MB_BUSOFF (mbAddr c 0) (st == mbBusOff)

/-! ### Transmission (R274 to R276) -/

/-- Whether buffer `b` is pending. -/
def State.mbPending (s : State) (c b : Nat) : Bool := s.bit (MB_TXSTAT.PEND c) b

/-- Whether a frame of these words can be sent: an FD frame needs FDEN and has no remote form, and only FD frames
switch the bit rate (R261). -/
def State.mbSendable (s : State) (c : Nat) (ws : List Word) : Bool :=
  let w := ws.getD 0 0
  if w.getLsbD 43 then s.on (MB_CFG.FDEN c) && !w.getLsbD 39 else !w.getLsbD 42

/-- What the controller could offer: (arbitration field, source, words), the tunnel queue last. -/
def State.mbOffers (s : State) (c : Nat) : List (Nat × MbSrc × List Word) :=
  ((List.range 32).filter (fun b => s.mbPending c b && s.mbSendable c (s.mbBuf c b).words)).map (fun b =>
      let ws := (s.mbBuf c b).words
      (arbKey (ws.getD 0 0), MbSrc.buf b, ws))
    ++ (match (s.mbus c).tunQ with
      | [] => []
      | ws :: _ => if s.mbSendable c ws then [(arbKey (ws.getD 0 0), MbSrc.tunnel, ws)] else [])

/-- Offer the frame that would win arbitration, once the controller sends none (R275).  Its SOF begins now. -/
def State.mbOffer (s : State) (c : Nat) : State :=
  if (s.mbus c).onBus.isSome || !s.mbSends c then s
  else
    match minBy (fun x => x.1) (s.mbOffers c) with
    | none => s
    | some x =>
      let chan := match x.2.1 with | .buf b => (s.mbBuf c b).chan | .tunnel => none
      let send := MbSend.mk x.2.1 x.2.2 chan s.gen ((s.ticks + mbTicks (s.mbSample c)) % 2 ^ 48)
      (s.setMbus c { s.mbus c with onBus := some send }).emit
        (.bus c (frameOf x.2.2 (s.get (MB_ERR.STATE c) == mbErrPassive)))

/-- Write RESULT and a timestamp to words 14 and 15 of channel `ch`, if it is bound to the buffer; where the
lookup has to wait for a way, the result waits with it (R59). -/
def State.resultAt (s : State) (c b ch result gen ticks : Nat) : State :=
  match s.lookup ch with
  | none => s.block (.result c b ch result gen ticks)
  | some (s, e) =>
    if e.valid && e.type == tMBUS && e.port == c && e.index == 512 + b then
      s.putChan 18 0 ch e 14 [word (result * 2 ^ 45 + gen), word ticks]
    else s

/-- A transmit request of buffer `b` ends with RESULT and a timestamp in the channel that loaded it (R275); a
newer request behind it is then pending (R274). -/
def State.endRequest (s : State) (c b result : Nat) (chan : Option Nat) (gen ticks : Nat) : State :=
  let s := s.setBit (MB_TXSTAT.PEND c) b (s.mbBuf c b).again
  let s := s.setMbBuf c b { s.mbBuf c b with cancel := false, again := false }
  match chan with
  | none => s
  | some ch => s.resultAt c b ch result gen ticks

/-- A request that is not on the bus ends CANCELLED. -/
def State.endWaiting (s : State) (c b : Nat) : State := s.endRequest c b 3 (s.mbBuf c b).chan 0 0

/-- A request whose frame has been on the bus ends; one that was sent has its timestamp. -/
def State.endOnBus (s : State) (c b result : Nat) (x : MbSend) : State :=
  if result = 1 || result = 2 then s.endRequest c b result x.chan x.gen x.ticks
  else s.endRequest c b result x.chan 0 0

/-- Whether buffer `b`'s frame is on the bus. -/
def State.bufOnBus (s : State) (c b : Nat) : Bool := (s.mbus c).onBus.map (fun (x : MbSend) => x.src) == some (MbSrc.buf b)

/-- Request the transmission of buffer `b` (R274); in Hold the request ends CANCELLED (R265). -/
def State.requestTx (s : State) (c b : Nat) : State :=
  if s.mode = mHold then s.endWaiting c b
  else
    let s := s.setBit (MB_TXSTAT.PEND c) b true
    s.setMbBuf c b { s.mbBuf c b with again := s.bufOnBus c b }

/-- The fields of a transmit buffer's word 0 to 2 that are reserved: [47], [45:44], [41] and [34:29]
of word 0, words 1 and 2 (R268). -/
def txReserved (ws : List Word) : Bool :=
  let w := ws.getD 0 0
  wbits w 47 47 != 0 || wbits w 45 44 != 0 || wbits w 41 41 != 0 || wbits w 34 29 != 0
    || ws.getD 1 0 != 0 || ws.getD 2 0 != 0

/-- A MOVE has loaded buffer `b` with words 0 to 13 of channel `ch` (R274): a refused load ends
CANCELLED with MB_CONFIG. -/
def State.loadBuffer (s : State) (c b ch : Nat) (ws : List Word) : State :=
  let w := ws.getD 0 0
  let fdf := w.getLsbD 43
  let bad := (fdf && !s.on (MB_CFG.FDEN c)) || (fdf && w.getLsbD 39) || (w.getLsbD 42 && !fdf) || txReserved ws
  if bad then (s.resultAt c b ch 3 0 0).raise Kind.MB_CONFIG (mbAddr c (512 + b))
  else ((s.setMbBuf c b { s.mbBuf c b with chan := some ch, words := ws }).requestTx c b).mbOffer c

/-- The buffers of a mask, in ascending order. -/
def State.eachBuf (s : State) (mask : Nat) (f : Nat → State → State) : State :=
  s.each 32 (fun b s => if mask.testBit b then f b s else s)

/-- Cancel buffer `b` (R276): a frame on the bus goes on, a waiting one ends at once. -/
def State.cancelTx (s : State) (c b : Nat) : State :=
  if !s.mbPending c b then s
  else if s.bufOnBus c b then s.setMbBuf c b { s.mbBuf c b with cancel := true, again := false }
  else s.endWaiting c b

/-- A write of `MBnn_TXREQ` (R274): every buffer named is pending before one is offered (R275). -/
def State.writeTxreq (s : State) (c : Nat) (v : Word) : State :=
  (s.eachBuf (wbits v 31 0) (fun b s => s.requestTx c b)).mbOffer c

/-- TXREQ_WRITE. -/
def execTxreqWrite (c : Fin 16) (v : Word) (s : State) : Result := .next (s.writeTxreq c.val v)

/-- TXCAN_WRITE (R276). -/
def execTxcanWrite (c : Fin 16) (v : Word) (s : State) : Result :=
  .next (s.eachBuf (wbits v 31 0) (fun b s => s.cancelTx c.val b))

/-- The controller's queue of frames from the tunnel; QUSED shows its length (R281). -/
def State.setTunQ (s : State) (c : Nat) (q : List (List Word)) : State :=
  (s.setMbus c { s.mbus c with tunQ := q }).set (MB_TUN.QUSED c) q.length

/-- A frame that has been on the bus leaves it unsent: its request ends, or stays pending for a retry (R275,
R276, R266); contents loaded meanwhile take its place (R274). -/
def State.attemptFails (s : State) (c : Nat) (x : MbSend) (result : Nat) : State :=
  let quiet := s.mbMode c == mbRESTRICTED && result != 0
  match x.src with
  | .tunnel => if quiet then s.setTunQ c (s.mbus c).tunQ.tail else s
  | .buf b =>
    let y := s.mbBuf c b
    if y.cancel || s.mode == mHold then s.endOnBus c b 3 x
    else if quiet then s.endOnBus c b result x
    else if (x.words.getD 0 0).getLsbD 46 then s.endOnBus c b 4 x
    else if y.again then s.endOnBus c b 3 x
    else s

/-- Error counters of at most their widths, and the error state that follows from them (ISO 11898-1, R277). -/
def State.judgeErrors (s : State) (c tec rec_ : Nat) : State :=
  let s := (s.set (MB_ERR.TEC c) (min tec 511)).set (MB_ERR.REC c) (min rec_ 255)
  if 255 < tec then (s.setErrState c mbBusOff).setMbus c { s.mbus c with offAt := s.now }
  else if 127 < tec || 127 < rec_ then
    (if s.get (MB_ERR.STATE c) = mbErrActive then s.setErrState c mbErrPassive else s)
  else s

/-- Count an error: `tec` and `rec_` are added; RESTRICTED leaves the counters alone and waits for integration
(R265). -/
def State.countError (s : State) (c tec rec_ : Nat) : State :=
  if s.mbMode c = mbRESTRICTED then s.setMbus c { s.mbus c with integ := true }
  else (s.errorFrame c).judgeErrors c (s.get (MB_ERR.TEC c) + tec) (s.get (MB_ERR.REC c) + rec_)

/-- The frame on the bus meets an error: its attempt fails with `result` where the mode asks for one, and the
error counts `tec` (R266, R277 to R279). -/
def State.ownError (s : State) (c result tec : Nat) : State :=
  match (s.mbus c).onBus with
  | none => s
  | some x => ((s.setMbus c { s.mbus c with onBus := none }).attemptFails c x result).countError c tec 0

/-- The object part of an error's address: the buffer on the bus as 512 + b, else 0. -/
def State.busObj (s : State) (c : Nat) : Nat :=
  match (s.mbus c).onBus with
  | some x => (match x.src with | .buf b => 512 + b | .tunnel => 0)
  | none => 0

/-- A bus error (R277 to R279).  A collision is recorded with its buffer and position; an error in another's
frame frees the bus. -/
def State.mbError (s : State) (c : Nat) (err : BusError) : State :=
  let obj := s.busObj c
  let own := (s.mbus c).onBus.isSome
  let passive := s.get (MB_ERR.STATE c) == mbErrPassive
  match err with
  | .collision pos =>
    if !own then s
    else
      let s := if 512 ≤ obj then s.set (MB_COLL.BUF c) (obj - 512) else s
      ((s.set (MB_COLL.POS c) pos.toNat).raise Kind.ID_COLLISION (pos.toNat * 65536 + mbAddr c obj)).ownError c 5 8
  | .transmitting => if own then (s.raise Kind.MB_BUS_ERR (mbAddr c obj)).ownError c 4 8 else s
  | .noAck => if own then (s.raise Kind.MB_BUS_ERR (mbAddr c obj)).ownError c 4 (if passive then 0 else 8) else s
  | .arbitrationStuff => if own then (s.raise Kind.MB_BUS_ERR (mbAddr c obj)).ownError c 4 0 else s
  | .receiving =>
    ((s.raise Kind.MB_BUS_ERR (mbAddr c 0)).setMbus c { s.mbus c with busy := false }).countError c 0 1
  | .dominantAfterFlag own =>
    (s.raise Kind.MB_BUS_ERR (mbAddr c 0)).countError c (if own then 8 else 0) (if own then 0 else 8)

/-- The frame on the bus is sent: its request ends SENT, or CANCEL_LATE after a cancel (R275, R276). -/
def State.frameSent (s : State) (c : Nat) (x : MbSend) : State :=
  let s := s.setMbus c { s.mbus c with onBus := none }
  let s := s.set (MB_ERR.TEC c) (s.get (MB_ERR.TEC c) - (if s.mbMode c = mbRESTRICTED then 0 else 1))
  let s := if s.get (MB_ERR.STATE c) = mbErrPassive && decide (s.get (MB_ERR.TEC c) < 128)
      && decide (s.get (MB_ERR.REC c) < 128) then s.setErrState c mbErrActive else s
  match x.src with
  | .tunnel => s.setTunQ c (s.mbus c).tunQ.tail
  | .buf b =>
    if (s.mbBuf c b).cancel then (s.endOnBus c b 2 x).raise Kind.MB_CANCEL_LATE (mbAddr c (512 + b))
    else s.endOnBus c b 1 x

/-- TRANSMISSION_END (R275 to R279): the frame on the bus is sent; or another's frame has won the bus; or an
error has met it, as in MB_BUS_ERR.  The next frame is offered. -/
def execTransmissionEnd (c : Fin 16) (r : TxEnd) (s : State) : Result :=
  let C := c.val
  match (s.mbus C).onBus with
  | none => .next s
  | some x =>
    let s := match r with
      | .sent => s.frameSent C x
      | .lostArbitration => (s.setMbus C { s.mbus C with onBus := none, busy := true }).attemptFails C x 0
      | .error => s.mbError C .transmitting
      | .collision pos => s.mbError C (.collision pos)
    .next (s.mbOffer C)

/-- The controller at Hold entry (R265): waiting buffers end CANCELLED; a frame on the bus completes, and
nothing newer waits behind it. -/
def State.mbHold (s : State) (c : Nat) : State :=
  s.each 32 (fun b s =>
    if s.bufOnBus c b then s.setMbBuf c b { s.mbBuf c b with again := false } else s.cancelTx c b)

/-- MB_MODE_APPLY (R264): the bus is idle, after integration where the controller waits for that; it takes a MODE
that has been written; OFF ends a bus-off recovery (R277). -/
def execMbModeApply (c : Fin 16) (s : State) : Result :=
  let C := c.val
  if (s.mbus C).onBus.isSome then .next s
  else
    let s := s.setMbus C { s.mbus C with busy := false, integ := false }
    match (s.mbus C).newMode with
    | none => .next (s.mbOffer C)
    | some m =>
      let s := (s.set (MB_CTL.MODE C) m).setMbus C { s.mbus C with newMode := none }
      let s := if m = mbOFF && s.get (MB_ERR.STATE C) == mbBusOff then
          (((s.set (MB_ERR.TEC C) 0).set (MB_ERR.REC C) 0).setErrState C mbErrActive)
        else s
      .next (s.mbOffer C)

/-! ### Reception (R269 to R273) -/

/-- Write NEW and LOST of an object to word 0 of its channel. -/
def State.showObject (s : State) (c o ch : Nat) (e : Entry) : State :=
  let x := s.mbObj c o
  let w := s.dataWord e.dataPtr 0
  s.putChan 18 0 ch e 0 [word (x.isNew.toNat * 2 ^ 47 + x.lost.toNat * 2 ^ 46 + wbits w 45 0)]

/-- A lock ends without a read of word L (R273): a frame dropped meanwhile makes LOST 1, which word 0 of
the object's channel shows. -/
def State.endLock (s : State) (c o : Nat) : State :=
  let x := s.mbObj c o
  let s := s.setMbObj c o { x with locked := none, lost := x.lost || x.dropped, dropped := false }
  if x.dropped && !x.lost then
    let ch := x.fmask / 2 ^ 32 % 2 ^ 16
    match (if 0xFFF0 ≤ ch then none else s.lookup ch) with
    | none => s
    | some (s, e) =>
      if e.valid && e.type == tMBUS && e.port == c && e.index == o then s.showObject c o ch e else s
  else s

/-- FMASK_WRITE (R269, R273): FID and FMASK are committed to the object, whose lock ends; OBJ advances. -/
def State.writeFmask (s : State) (c : Nat) (v : Word) : State :=
  let o := s.get (MB_FSEL.OBJ c)
  let s := (((s.set (MB_FMASK.CH c) (wbits v 47 32)).set (MB_FMASK.MIDE c) (wbits v 31 31)).set
    (MB_FMASK.MRTR c) (wbits v 30 30)).set (MB_FMASK.MASK c) (wbits v 28 0)
  let fid := pack [(s.get (MB_FID.EN c), 1), (s.get (MB_FID.IDE c), 1), (s.get (MB_FID.RTR c), 1),
    (s.get (MB_FID.TUN c), 1), (0, 15), (s.get (MB_FID.ID c), 29)]
  let s := s.endLock c o
  let s := s.setMbObj c o { s.mbObj c o with fid := fid, fmask := v.toNat }
  s.set (MB_FSEL.OBJ c) (o + 1)

/-- FMASK_WRITE. -/
def execFmaskWrite (c : Fin 16) (v : Word) (s : State) : Result := .next (s.writeFmask c.val v)

/-- Whether a frame matches an object's filter (R269). -/
def MbObj.accepts (x : MbObj) (f : BusFrame) : Bool :=
  x.fid.testBit 47
    && (BitVec.ofNat 29 x.fid ^^^ BitVec.ofNat 29 (idOf f.ide f.id.toNat)) &&& BitVec.ofNat 29 x.fmask == 0
    && (!x.fmask.testBit 31 || x.fid.testBit 46 == f.ide)
    && (!x.fmask.testBit 30 || x.fid.testBit 45 == f.rtr)

/-- The lowest-numbered object that a frame matches. -/
def State.mbMatch (s : State) (c : Nat) (f : BusFrame) : Option Nat :=
  ((s.mbus c).objs.find? (fun x => decide (x.1 < 512) && x.2.accepts f)).map (fun x => x.1)

/-- The words of a received frame are written to the channel of object `o` (R270, R271); where the lookup has to
wait for a way, they wait with it (R59). -/
def State.frameToObject (s : State) (c o : Nat) (ws : List Word) : State :=
  let x := s.mbObj c o
  let ch := x.fmask / 2 ^ 32 % 2 ^ 16
  match s.lookup ch with
  | none => s.block (.frame c o ws)
  | some (s, e) =>
    if e.valid && e.type == tMBUS && e.port == c && e.index == o then
      let lost := x.lost || x.isNew
      let w0 := wordAt ws 0
      let s := s.putChan 18 0 ch e 0 (word (2 ^ 47 + lost.toNat * 2 ^ 46 + w0 % 2 ^ 46) :: ws.tail)
      (s.setMbObj c o { x with isNew := true, lost := lost, last := lastWord (word w0) }).inc (MB_CNT.RX c)
    else s.raise Kind.MB_BINDING (mbAddr c o)

/-- A matched frame reaches its object (R270 to R273, R281). -/
def State.storeFrame (s : State) (c o : Nat) (f : BusFrame) (ago : Nat) : State :=
  let x := s.mbObj c o
  if x.locked.isSome then
    ((s.setMbObj c o { x with dropped := true }).inc (MB_CNT.DROP c)).raise Kind.MB_LOST (mbAddr c o)
  else
    let ws := s.objectWords f ago
    let s := if s.on (MB_TUN.EN c) && x.fid.testBit 44 then
        s.setMbus c { s.mbus c with toTun := (s.mbus c).toTun ++ [ws.take (lastWord (ws.getD 0 0) + 1)] }
      else s
    s.frameToObject c o ws

/-- A valid frame at a controller that receives (R269), the sample point of its SOF `ago` ticks ago. -/
def State.mbReceive (s : State) (c : Nat) (f : BusFrame) (ago : Nat) : State :=
  match s.mbMatch c f with
  | none => s.inc (MB_CNT.NOMATCH c)
  | some o => s.storeFrame c o f ago

/-- A reception counts REC down (ISO 11898-1, R277); RESTRICTED leaves the counters alone (R265). -/
def State.recDown (s : State) (c : Nat) : State :=
  let r := s.get (MB_ERR.REC c)
  if s.mbMode c = mbRESTRICTED || r = 0 then s
  else if r < 128 then s.set (MB_ERR.REC c) (r - 1)
  else
    let s := (s.set (MB_ERR.REC c) (119 + (Config.recAfter s.free).val)).draw
    if s.get (MB_ERR.STATE c) = mbErrPassive && decide (s.get (MB_ERR.TEC c) < 128) then
      s.setErrState c mbErrActive else s

/-- MB_FRAME_RECEIVED (R269): a valid frame of another node, which a controller that takes part acknowledges
(R263).  FD frames need FDEN and have no remote form (R261).  The bus is idle after it. -/
def execMbFrameReceived (c : Fin 16) (x : RxFrame) (s : State) : Result :=
  let C := c.val
  let f := x.frame
  if decide (f.data.length < (if f.rtr then 0 else dlcLength f.fdf f.dlc.toNat)) || decide (64 < f.data.length) then .fault (.illFormed "MB_FRAME_RECEIVED")
  else if !s.mbTakesPart C || (f.fdf && (f.rtr || !s.on (MB_CFG.FDEN C))) then .next s
  else
    let s := s.setMbus C { s.mbus C with busy := false }
    .next ((((s.recDown C).mbAck C).mbReceive C f x.ago).mbOffer C)

/-- A read of words [w, w + n) of a receive object's channel locks it, and unlocks it where the read
covers word L (R272). -/
def State.objectRead (s : State) (ch : Nat) (e : Entry) (w n : Nat) : State :=
  if !(e.valid && e.type == tMBUS && decide (e.index < 512)) then s
  else
    let c := e.port
    let o := e.index
    let x := s.mbObj c o
    if x.fmask / 2 ^ 32 % 2 ^ 16 != ch || x.last < w then s
    else if x.last < w + n then
      (s.setMbObj c o { x with isNew := false, lost := x.dropped, locked := none, dropped := false }).showObject c o ch e
    else if x.locked.isSome then s
    else s.setMbObj c o { x with locked := some s.now }

/-- MB_LOCK_TIMEOUT (R273): the lock ends without a read of word L. -/
def execMbLockTimeout (c : Fin 16) (o : Fin 512) (s : State) : Result :=
  let C := c.val
  let O := o.val
  match (s.mbObj C O).locked with
  | none => .next s
  | some t =>
    if s.get (MB_CFG.LOCKTO C) = 0 then .next s
    else
      let s := s.waitUntil (t + s.get (MB_CFG.LOCKTO C))
      .next ((s.endLock C O).raise Kind.MB_LOCK_TIMEOUT (mbAddr C O))

/-! ### Errors, bus-off, sleep (R277 to R280) -/

/-- MB_BUS_ERR (R277 to R279): an error that a controller which takes part sees. -/
def execMbBusErr (c : Fin 16) (err : BusError) (s : State) : Result :=
  .next (if s.mbTakesPart c.val then (s.mbError c.val err).mbOffer c.val else s)

/-- The ticks of 11 recessive bits (R277). -/
def State.mbEleven (s : State) (c : Nat) : Nat := mbTicks (11 * s.mbBit c)

/-- `MBnn_ERR.BOCNT`: the sequences of 11 recessive bits since bus-off, on a bus that stays recessive (R277). -/
def State.boCount (s : State) (c : Nat) : Nat :=
  if s.get (MB_ERR.STATE c) = mbBusOff then min 128 ((s.now - (s.mbus c).offAt) / s.mbEleven c) else 0

/-- MB_RECOVERED (R277): no sooner than 128 sequences of 11 recessive bits take. -/
def execMbRecovered (c : Fin 16) (s : State) : Result :=
  let C := c.val
  if s.get (MB_ERR.STATE C) = mbBusOff then
    let s := s.waitUntil ((s.mbus C).offAt + mbTicks (128 * 11 * s.mbBit C))
    let s := s.setMbus C { s.mbus C with busy := false, integ := false }
    let s := (s.set (MB_ERR.TEC C) 0).set (MB_ERR.REC C) 0
    .next (((s.setErrState C mbErrActive).raise Kind.MB_RECOVERED (mbAddr C 0)).mbOffer C)
  else .next s

/-- MB_WAKE (R280): the wake frame is acknowledged and stored as any frame. -/
def execMbWake (c : Fin 16) (src : WakeSource) (s : State) : Result :=
  let C := c.val
  if s.mbMode C != mbSLEEP then .next s
  else
    let sel := s.get (MB_CTL.WAKESRC C)
    let wakes := match src with
      | .dominant n => decide (40 ≤ n) && sel != 1
      | .frame f _ => (s.mbObj C (s.get (MB_CFG.WAKEOBJ C))).accepts f && sel != 0
          && (!f.fdf || (s.on (MB_CFG.FDEN C) && !f.rtr))
      | .txRequest => s.get (MB_TXSTAT.PEND C) != 0 || !(s.mbus C).tunQ.isEmpty
    if !wakes then .next s
    else
      let s := (s.set (MB_CTL.MODE C) mbNORMAL).raise Kind.MB_WAKE (mbAddr C 0)
      let s := match src with | .frame f ago => (s.mbAck C).mbReceive C f ago | _ => s
      .next (s.mbOffer C)

/-- A frame arrives from the tunnel (R281): dropped where the queue of 16 is full; one of a form that the
controller does not send is discarded (R261). -/
def State.mbFromTunnel (s : State) (c : Nat) (ws : List Word) : State :=
  if !s.mbSendable c ws then s
  else if 16 ≤ (s.mbus c).tunQ.length then s.raise Kind.MB_TUN_DROP (mbAddr c 0)
  else (s.setTunQ c ((s.mbus c).tunQ ++ [ws])).mbOffer c

end Sys2Proof.Machine
end

