-- ==== Sys2Proof/Machine/Votes.lean ====
section
/-! DEFINITION. Chapter 13, the vote groups: definitions, copies on their way to the voter, the vote
slots and the evaluation (R422 to R424). -/

namespace Sys2Proof.Machine

/-- The definition of group `g`. -/
def State.voteGroup (s : State) (g : Nat) : VoteGroup := Tab.get VoteGroup.none s.red.groups g

/-- The fields of a group's definition, as `RED_VGCFG` lays them out (R429). -/
def VoteGroup.outNode (x : VoteGroup) : Nat := x.cfg / 2 ^ 32 % 2 ^ 16
def VoteGroup.outCh (x : VoteGroup) : Nat := x.cfg / 2 ^ 16 % 2 ^ 16
def VoteGroup.win (x : VoteGroup) : Nat := x.cfg / 4 % 2 ^ 14
def VoteGroup.nomaj (x : VoteGroup) : Bool := x.cfg.testBit 1
def VoteGroup.en (x : VoteGroup) : Bool := x.cfg.testBit 0

/-- The index of a source node in its group. -/
def VoteGroup.source (x : VoteGroup) (node : Nat) : Option Nat :=
  if node = x.src0 then some 0 else if node = x.src1 then some 1 else if node = x.src2 then some 2 else Option.none

/-- VOTE_GROUP_COMMIT (R422): a write of `RED_VGCFG` commits the definition to the selected group. -/
def State.writeVgcfg (s : State) (v : Word) : State :=
  let s := (((s.set RED_VGCFG.OUTNODE (wbits v 47 32)).set RED_VGCFG.OUTCH (wbits v 31 16)).set
    RED_VGCFG.WIN (wbits v 15 2)).set RED_VGCFG.NOMAJ (wbits v 1 1)
  let s := s.set RED_VGCFG.EN (wbits v 0 0)
  let g := VoteGroup.mk (s.get RED_VGSRC.SRC0) (s.get RED_VGSRC.SRC1) (s.get RED_VGSRC.SRC2) v.toNat
  { s with red := { s.red with groups := Tab.put VoteGroup.none s.red.groups (s.get RED_VGSEL.GROUP) g } }

/-- VOTE_GROUP_COMMIT. -/
def execVoteGroupCommit (v : Word) (s : State) : Result := .next (s.writeVgcfg v)

/-- The check that R424 adds to R138 for a VOTE on channel `ch` with entry `e`. -/
def State.voteOk (s : State) (ch : Nat) (e : Entry) : Bool :=
  let g := s.voteGroup e.vgroup
  e.vgroup != 0 && g.en && (ch != g.outCh || g.outNode == s.node)
    && (ch == g.outCh || decide (e.extent ≤ 512))

/-- Put copy `c` of source `i` in a slot. -/
def VoteSlot.put (x : VoteSlot) (i : Nat) (c : VoteCopy) : VoteSlot :=
  match i with
  | 0 => { x with c0 := some c }
  | 1 => { x with c1 := some c }
  | _ => { x with c2 := some c }

/-- The copy of source `i`. -/
def VoteSlot.copy (x : VoteSlot) (i : Nat) : Option VoteCopy :=
  match i with
  | 0 => x.c0
  | 1 => x.c1
  | _ => x.c2

/-- A vote cell from `node` reaches the voter (R424): a new VSEQ begins the source's copy anew; a copy
for a seventeenth group is dropped and reported once, whatever its cells. -/
def State.voteArrive (s : State) (node : Nat) (ws : List Word) : State :=
  let w0 := ws.getD 0 0
  let g := wbits w0 31 24
  let grp := s.voteGroup g
  match (if g = 0 || !grp.en || grp.outNode != s.node then none else grp.source node) with
  | none => s
  | some i =>
    let vseq := wbits w0 15 8
    let cidx := wbits w0 7 0
    let data := (ws.drop 2).take (wbits w0 36 32 + 1)
    let slot := (s.red.slots.find? (fun (x : VoteSlot) => x.group == g)).getD (.mk g none none none)
    let fresh : VoteCopy := .mk vseq (wbits w0 23 16) (ws.getD 1 0).toNat [] []
    let c := match slot.copy i with
      | some c => if c.vseq = vseq then c else fresh
      | none => fresh
    let c := { c with
      words := ((List.range data.length).zip data).foldl
        (fun (t : Tab Word) p => (t.erase (18 * cidx + p.1)).ins (18 * cidx + p.1) p.2) c.words
      cells := if c.cells.contains cidx then c.cells else cidx :: c.cells }
    let others := s.red.slots.filter (fun (x : VoteSlot) => x.group != g)
    if 16 ≤ others.length then
      if s.red.dropped = some (g, i, vseq) then s
      else { s with red := { s.red with dropped := some (g, i, vseq) } }.raise Kind.RED_VOTE_FULL g
    else { s with red := { s.red with slots := others ++ [slot.put i c] } }

/-- A copy is intact (R424): all its cells have arrived, and its words are the extent's. -/
def VoteCopy.intact (c : VoteCopy) (extent : Nat) : Bool :=
  c.words.length == extent && (List.range (ceilDiv extent 18)).all (fun k => c.cells.contains k)

/-- Record an evaluation in `RED_VGSTAT`. -/
def State.voteStat (s : State) (outcome present vseq dissent : Nat) : State :=
  (((s.set RED_VGSTAT.OUTCOME outcome).set RED_VGSTAT.PRESENT present).set RED_VGSTAT.VSEQ vseq).set
    RED_VGSTAT.DISSENT dissent

/-- The evaluation of group `g` at instant `iv` by a VOTE on its output channel (R424). -/
def State.voteEvaluate (s : State) (g ch : Nat) (e : Entry) (iv : Nat) : State :=
  let grp := s.voteGroup g
  let slot := (s.red.slots.find? (fun (x : VoteSlot) => x.group == g)).getD (.mk g none none none)
  let s := { s with red := { s.red with slots := s.red.slots.filter (fun (x : VoteSlot) => x.group != g) } }
  let used := (List.range 3).filterMap (fun i => (slot.copy i).bind (fun c =>
    if c.intact e.extent && decide ((dt c.instant iv).natAbs ≤ 64 * grp.win) then some (i, c) else none))
  let present := used.foldl (fun n u => n + 2 ^ u.1) 0
  let vseq := match used with | [] => 0 | u :: _ => u.2.vseq
  let data := fun (c : VoteCopy) => c.words.map (fun p => p.2)
  let write := fun (s : State) (c : VoteCopy) => s.putChan 27 0 ch e 0 (data c)
  let none_ := fun (s : State) =>
    if grp.nomaj then s.putChan 27 0 ch e 0 (List.replicate e.extent 0) else s
  let fails := fun (s : State) => s.inc RED_CNT.VOTEFAIL
  match used with
  | [a, b, c] =>
    let ab := data a.2 == data b.2
    let ac := data a.2 == data c.2
    let bc := data b.2 == data c.2
    if ab && ac then (write s a.2).voteStat 1 present vseq 3
    else if ab || ac || bc then
      let d := if ab then c.1 else if ac then b.1 else a.1
      ((write s (if bc then b.2 else a.2)).voteStat 2 present vseq d).raise Kind.RED_VOTE_MINORITY (d * 256 + g)
    else (fails ((none_ s).voteStat 5 present vseq 3)).raise Kind.DIVERGE g
  | [a, b] =>
    if data a.2 == data b.2 then ((write s a.2).voteStat 3 present vseq 3).raise Kind.RED_VOTE_SHORT g
    else
      let loser := if a.2.claim < b.2.claim then a.1 else b.1
      let s := write s (if a.2.claim < b.2.claim then b.2 else a.2)
      (fails (s.voteStat 4 present vseq loser)).raise Kind.RED_VOTE_CONFLICT (loser * 256 + g)
  | _ => (fails ((none_ s).voteStat 6 present vseq 3)).raise Kind.RED_VOTE_LOST g

/-- The payload of cell `k` of a copy of `ws` (R423). -/
def State.voteCellWords (s : State) (g vseq : Nat) (ws : List Word) (k iv : Nat) : List Word :=
  let part := (ws.drop (18 * k)).take 18
  [word (pack [(7, 8), (0, 3), (part.length - 1, 5), (g, 8), (s.eclaim, 8), (vseq, 8), (k, 8)]), word iv] ++ part

/-- The words of a vote's source channel have been read: a copy goes to the voter, locally where this hub
is the voter (R423). -/
def State.voteCopies (s : State) (e : Entry) (iv : Nat) (ws : List Word) : State :=
  let grp := s.voteGroup e.vgroup
  let vseq := (s.red.vseq + 1) % 256
  let cells := (List.range (ceilDiv e.extent 18)).map (fun k => s.voteCellWords e.vgroup vseq ws k iv)
  let s := { s with red := { s.red with vseq := vseq } }
  if grp.outNode = s.node then cells.foldl (fun s c => s.voteArrive s.node (pad20 c)) s
  else { s with red := { s.red with
    voteCells := s.red.voteCells ++ cells.map (fun c => s.ctrl cTT grp.outNode c) } }

/-- A VOTE action on channel `ch` at instant `iv` (R423, R424): at the voter, on the output channel, the
evaluation; else the channel is read for a copy. -/
def State.vote (s : State) (ch : Nat) (e : Entry) (iv : Nat) : State :=
  if ch = (s.voteGroup e.vgroup).outCh then s.voteEvaluate e.vgroup ch e iv
  else
    match s.readChan 27 0 ch e 0 e.extent (Purpose.vote iv) false with
    | (s, .words ws) => s.voteCopies e iv ws
    | (s, _) => s

end Sys2Proof.Machine
end

