-- ==== Sys2Proof/Machine/Firing.lean ====
section
/-! DEFINITION. Chapter 04, the second part: the sweep, the dispatch of firings, the actions and their
effects, deadlines and output hold. -/

namespace Sys2Proof.Machine

/-! ### Registers (R142, R147, R155) -/

/-- A write of `SEQ_CFG` (R142): a reserved LEAD leaves the register unchanged. -/
def State.writeSeqCfg (s : State) (v : Word) : State :=
  if wbits v 15 0 < 128 then s.raise Kind.SEQ_CONFIG 0
  else (s.set SEQ_CFG.RUNMAX (wbits v 39 16)).set SEQ_CFG.LEAD (wbits v 15 0)

/-- Clear RUN (R155): every undispatched firing is withdrawn. -/
def State.clearRun (s : State) : State :=
  s.seq.wheel.foldl (fun s f => s.withdraw f.entry) (s.set SEQ_CTL.RUN 0)

/-- A write of `SEQ_CTL`. -/
def State.writeSeqCtl (s : State) (v : Word) : State :=
  let s := s.set SEQ_CTL.LANE_EN (wbits v 15 8)
  if v.getLsbD 0 then s.set SEQ_CTL.RUN 1 else s.clearRun

/-- A write of `SEQ_HOLD`: writing 1 ends a tenant's output hold (R147). -/
def State.writeSeqHold (s : State) (v : Word) : State :=
  s.each 16 (fun n s =>
    if v.getLsbD n then (s.setBit SEQ_HOLD.TENANT n false).endLevel Kind.SEQ_HOLD n else s)

/-! ### Actions in flight (R125, R137, R138) -/

/-- Replace an action by its number. -/
def State.putAct (s : State) (a : Act) : State :=
  { s with seq := { s.seq with acts := s.seq.acts.map (fun (x : Act) => if x.id == a.id then a else x) } }

/-- Whether an action's path still leads to its effect: its frame, its operation or its timed command
is on the way, or a TARIFF or a VOTE awaits its instant. -/
def State.actUnderWay (s : State) (a : Act) : Bool :=
  !a.waiting &&
    (match a.e.act with
      | 1 => s.chp.any (fun p => p.2.latches.any (fun (l : Latch) => l.act == a.id)
          || (match p.2.frame with | some f => f.act == some a.id | none => false))
      | 4 | 5 => true
      | _ => s.tbl.ops.any (fun (o : Op) => o.act == some a.id) || s.seq.timed.any (fun (t : Timed) => t.act == a.id))

/-- The canned actions that are open: handed on, with their effect to come (DEDUCED); at most 32 are (R138). -/
def State.openActs (s : State) : Nat :=
  (s.seq.acts.filter (fun (a : Act) => a.e.act != 0 && s.actUnderWay a)).length

/-! ### MOVE (R125, R170, R221, R236, R274, R388) -/

/-- What a MOVE does when it begins. -/
inductive MoveStart where
  /-- An operation of the table port is open. -/
  | opened
  /-- Nothing is moved, and the effect point is now. -/
  | nothing
  /-- Nothing is moved, and the effect point never comes. -/
  | never
  deriving DecidableEq, Repr

/-- The types of channel that MOVE takes (R125). -/
def movable (e : Entry) : Bool :=
  e.type == tCHAIN || e.type == tSTREAM || e.type == tMBUS || e.type == tTUNNEL

/-- A MOVE on channel `ch` begins: nothing can be moved while the home is lost (R54) or requester 0 masked
(R75). -/
def State.beginMove (s : State) (p : Purpose) (ch : Nat) (e : Entry) : State × MoveStart :=
  if (e.type = tMBUS && decide (e.index < 512)) || (e.type = tTUNNEL && decide (0x8000 ≤ e.index)) then (s, .nothing)
  else if !s.homeUp || !s.alive 0 then (s, .never)
  else if e.type = tCHAIN then (s.openOp 27 0 false ch e 0 e.extent [] p false, .opened)
  else if e.type = tSTREAM then
    if s.on (BAY_STREAM.AUTO e.bay e.tenon) && s.get (BAY_STREAM.CH e.bay e.tenon) == ch then
      (s.raise Kind.TEN_STREAM_ABORT
        (2 * 65536 + e.bay * 256 + s.physical e.bay e.tenon * 16 + e.tenon), .never)
    else
      let s := s.openOp 27 0 (s.on (BAY_STREAM.DIR e.bay e.tenon)) ch e 0 e.points [] p true
      (s.pump e.bay e.tenon, .opened)
  else if e.type = tMBUS then (s.openOp 27 0 false ch e 0 14 [] p false, .opened)
  else (s.openOp 27 0 false ch e 0 (min e.extent 2732) [] p false, .opened)

/-- The last beat of a MOVE's operation: what it read goes to its block.  A tunnel's frame whose word 0 gave
no length that fits is dropped (R388). -/
def State.moveBeat (s : State) (o : Op) : State :=
  let ws := Tab.getList 0 o.data 0 o.count
  if o.entry.type = tCHAIN then s.chainMoved o.entry.port o.entry ws
  else if o.entry.type = tMBUS then s.loadBuffer o.entry.port (o.entry.index - 512) o.ch ws
  else if o.entry.type = tTUNNEL then
    let w := ws.getD 0 0
    if o.count = 1 then (s.inc BRG_CNT.TUNDROP).raise Kind.TUN_CONFIG (o.entry.index % 256)
    else
      let f : TunFrame := .mk o.entry.index (w.getLsbD 15) 0 0 0 0 ((wordBytes (ws.drop 1)).take (wbits w 14 0))
      { s with brg := { s.brg with moveQ := s.brg.moveQ ++ [f] } }
  else s

/-- A closed operation has been seen: it goes, or runs on until its queue has taken its words. -/
def State.retireOp (s : State) (o : Op) : State := (s.putOp { o with purpose := Purpose.drain }).reapOps

/-- MOVE_COMPLETE (R125, R176, R236): the last beat of the oldest MOVE whose operation has closed. -/
def execMoveComplete (s : State) : Result :=
  match s.tbl.ops.find? (fun (o : Op) => o.closed && !o.failed && (match o.purpose with | .move _ => true | .alone => true | _ => false)) with
  | none => .next s
  | some o =>
    let s := (s.moveBeat o).retireOp o
    match o.purpose with
    | .move id => .next (s.actEffect id)
    | _ => .next s

/-! ### Performing an action (R138) -/

/-- A one-shot entry that its dispatch left DONE is MISSED when the action is not performed. -/
def State.undone (s : State) (i : Nat) : State :=
  if (s.entry i).state = eDONE then s.entryState i eMISSED else s

/-- The check of R138 fails. -/
def State.badAction (s : State) (a : Act) : State :=
  ((s.actEffect a.id).undone a.entry).raise Kind.SEQ_BAD_ACTION a.entry

/-- The channel and tenant part of the check of R138. -/
def channelOk (ch tenant : Nat) (e : Entry) : Bool :=
  decide (ch < 0xFFF0) && e.valid && (tenant == 0 || e.tenant == tenant)

/-- The effect of a TARIFF or of a VOTE (R125). -/
def State.tariffOrVote (s : State) (a : Act) : State :=
  match a.chan with
  | none => (s.requestTariff (a.e.arg % 32) (a.e.param % 4)).actEffect a.id
  | some (ch, e) => (s.vote ch e a.instant).actEffect a.id

/-- A TARIFF or a VOTE that has been checked lands on its instant, or at once where that has passed
(R125, R137). -/
def State.landAct (s : State) (a : Act) : State :=
  if 0 < dt a.instant s.ticks then s.putAct a else s.tariffOrVote a

/-- The TARIFF or VOTE that awaits its instant and lands first. -/
def State.nextLanding (s : State) : Option Act :=
  minBy (fun (a : Act) => (dt a.instant s.ticks).toNat * 2 ^ 32 + a.entry)
    (s.seq.acts.filter (fun (a : Act) => !a.waiting && (a.e.act == 4 || a.e.act == 5)))

/-- The word of a DISCRETE action has been read: its timed command leaves (R142). -/
def State.timeDiscrete (s : State) (id : Nat) (w : Word) : State :=
  match s.act id with
  | none => s
  | some a =>
    match a.chan with
    | none => s
    | some (_, e) => { s with seq := { s.seq with timed := s.seq.timed ++
        [.mk a.id a.entry a.instant e.bay e.index w.toNat] } }

/-- The canned-action unit performs an action: it checks the channel, then hands the action on.  A
TARIFF and a VOTE land on their instant; a LATCH and a DISCRETE leave as timed commands; a MOVE opens its
operation.  A lookup that has to wait leaves the action waiting. -/
def State.performAct (s : State) (a : Act) : State :=
  let a := { a with waiting := false }
  let ch := a.e.arg
  if a.e.act = 4 then
    let f := ch % 32
    if a.e.tenant = 0 || s.get (FEED_CFG.TENANT f) = a.e.tenant then
      s.landAct a
    else s.badAction a
  else if 0xFFF0 ≤ ch then s.badAction a
  else
    match s.lookup ch with
    | none => s.putAct { a with waiting := true }
    | some (s, e) =>
      let a := { a with chan := some (ch, e) }
      let s := s.putAct a
      if !channelOk ch a.e.tenant e then s.badAction a
      else
        match a.e.act with
        | 1 =>
          if e.type != tCHAIN then s.badAction a
          else
            let r := s.chainLatch e.port (.mk a.id a.instant e.claim)
            if r.2 then r.1 else r.1.endAct a.id
        | 2 =>
          if !movable e then s.badAction a
          else
            let r := s.beginMove (Purpose.move a.id) ch e
            match r.2 with
            | .opened => r.1
            | .nothing => r.1.actEffect a.id
            | .never => r.1.endAct a.id
        | 3 =>
          if e.type != tDISCRETE then s.badAction a
          else
            match s.readChan 27 0 ch e 0 1 (Purpose.discrete a.id) false with
            | (s, .gone) => s.endAct a.id
            | (s, .words ws) => s.timeDiscrete a.id (ws.getD 0 0)
            | (s, .waits _) => s
        | _ => if s.voteOk ch e then s.landAct a else s.badAction a

/-! ### Deadlines (R144 to R147) -/

/-- The number of ticks from now to the first tick at which an action's deadline has passed (R144). -/
def State.missIn (s : State) (a : Act) : Option Nat :=
  if !a.timedOut then none
  else if a.e.trigkind != 0 && s.phState a.e.domain != phTRACK then none
  else if a.e.dlkind = 1 then
    some ((dt (a.instant + 16 * a.e.dlval) s.ticks + 1).toNat)
  else
    let dl := if a.fwd then (a.target + a.e.dlval + 1) % 2 ^ 48
      else (a.target + 2 ^ 48 - a.e.dlval + 2 ^ 48 - 1) % 2 ^ 48
    match (s.dom a.e.domain).eff with
    | none => none
    | some m => if reached a.fwd m dl s.ticks then some 0 else cross a.fwd m dl s.ticks (2 ^ 46)

/-- A miss is recorded, and policy HOLD takes its tenant into output hold (R146, R147). -/
def State.miss (s : State) (i : Nat) (e : Eph) : State :=
  let s := ((s.set SEQ_LASTMISS.ENTRY i).set SEQ_LASTMISS.POLICY e.policy).inc SEQ_COUNT.MISS
  let s := s.raise Kind.SEQ_MISS (e.policy * 2 ^ 18 + i)
  if e.policy = 2 then (s.setBit SEQ_HOLD.TENANT e.tenant true).raiseLevel Kind.SEQ_HOLD e.tenant else s

/-- A LATCH still queued at its port is taken back. -/
def State.dropLatch (s : State) (id : Nat) : State :=
  { s with chp := s.chp.foldl (fun t x =>
      Tab.put Chp.reset t x.1 { x.2 with latches := x.2.latches.filter (fun (l : Latch) => l.act != id) }) s.chp }

/-- A DISCRETE action whose pins have not changed is taken back. -/
def State.dropTimed (s : State) (id : Nat) : State :=
  let s := s.dropOps (fun o => o.purpose == Purpose.discrete id)
  { s with seq := { s.seq with timed := s.seq.timed.filter (fun (t : Timed) => t.act != id) } }

/-- Whether the effect of a dispatched action is under way, so that a miss lets it run to its end (R146): a
MOVE's beats or a LATCH's frame; a TARIFF, a VOTE and a DISCRETE have their effect at one instant. -/
def State.actBegun (s : State) (a : Act) : Bool :=
  !a.waiting && (a.e.act == 2
    || (a.e.act == 1 && !(s.chp.any (fun p => p.2.latches.any (fun (l : Latch) => l.act == a.id)))))

/-- The deadline of a dispatched action passes (R146). -/
def State.missAct (s : State) (a : Act) : State :=
  let s := s.miss a.entry a.e
  if a.e.policy = 1 || s.actBegun a then
    let a := { a with noDl := true }
    let s := s.putAct a
    if a.waiting || s.actUnderWay a then s else s.actEffect a.id
  else (((s.dropLatch a.id).dropTimed a.id).actEffect a.id).undone a.entry

/-- Entry `i` as the action that its dispatch at `instant` would make of it. -/
def State.actOf (s : State) (i instant : Nat) (noDl : Bool) : Act :=
  let e := s.entry i
  .mk s.seq.nextAct i { e with count := (e.count + 1) % 4096 } instant e.target (s.fwd e.domain) none true noDl

/-- The deadline of a queued firing passes before its instant has come (R144, R146). -/
def State.missFiring (s : State) (f : Firing) : State :=
  let e := s.entry f.entry
  let s := s.miss f.entry e
  if e.policy = 1 then
    s.setWheel (s.seq.wheel.map (fun (g : Firing) => if g.entry = f.entry then { g with missed := true } else g))
  else (s.withdraw f.entry).missEntry f.entry (s.fwd e.domain)

/-- The deadlines that are still to pass: when, counted from now, and of which firing or action. -/
def State.deadlines (s : State) : List (Nat × (Firing ⊕ Act)) :=
  s.seq.acts.filterMap (fun (a : Act) => (s.missIn a).map (fun n => (n, .inr a)))
    ++ s.seq.wheel.filterMap (fun (f : Firing) =>
      (s.missIn (s.actOf f.entry f.instant f.missed)).map (fun n => (n, .inl f)))

/-- DEADLINE_MISS (R144, R146): of the earliest deadline to pass, at its tick. -/
def execDeadlineMiss (s : State) : Result :=
  match minBy (fun (p : Nat × (Firing ⊕ Act)) => p.1) s.deadlines with
  | none => .next s
  | some (n, .inr a) => .next ((s.advance n).missAct a)
  | some (n, .inl f) => .next ((s.advance n).missFiring f)

/-- HOLD_RELEASE (R147). -/
def execHoldRelease (v : Word) (s : State) : Result := .next (s.writeSeqHold v)

/-- RUN_CLEAR (R155): a write of `SEQ_CTL` with RUN = 0. -/
def execRunClear (v : Word) (s : State) : Result := .next (s.writeSeqCtl (v &&& ~~~1#48))

/-! ### Dispatch (R137, R138, R145, R147) -/

/-- How a firing comes to its dispatch: from the queue; overdue, `gone` where its instant is not
found any more (R145); or by FIRE (R141). -/
inductive Cause137 where
  | queued
  | overdue (gone : Bool)
  | fire
  deriving DecidableEq, Repr

/-- Dispatch entry `i` with its instant: suppressed in output hold, missed where its deadline has
passed, else captured and handed on.  A canned action beyond the 32nd waits (R138), and a PROG firing
waits for a lane (R139). -/
def State.dispatch (s : State) (i instant : Nat) (c : Cause137) : State :=
  let missed := s.seq.wheel.any (fun (f : Firing) => f.entry == i && f.missed)
  let s := s.withdraw i
  let e := s.entry i
  let fwd := s.fwd e.domain
  if e.act != 4 && s.bit SEQ_HOLD.TENANT e.tenant then
    (s.inc SEQ_COUNT.SUPPRESS).missEntry i fwd
  else
    let a := s.actOf i instant (c == .fire || missed)
    let late := c == .overdue true && e.dlkind == 1 || s.missIn a == some 0
    if late && e.policy != 1 then (s.miss i e).missEntry i fwd
    else
      let s := match c with
        | .overdue _ => if e.dlkind = 0 then (s.inc SEQ_COUNT.LATE).raise Kind.SEQ_LATE i else s
        | _ => s
      let s := (s.setEntry i a.e).moveEntryOn i fwd
      let s := if late then s.miss i e else s
      let a := if late then { a with noDl := true } else a
      let room := decide (s.openActs < 32)
      let s := { s with seq := { s.seq with acts := s.seq.acts ++ [a], nextAct := s.seq.nextAct + 1 } }
      if e.act != 0 && room then s.performAct a else s

/-- When and in which order a queued firing is dispatched: ticks from now to its instant less its
lead, then its instant, then its entry (R137). -/
def State.firingKey (s : State) (f : Firing) : Nat :=
  let d := dt f.instant s.ticks
  (d - s.leadOf f).toNat * 2 ^ 96 + (d + 2 ^ 48).toNat * 2 ^ 32 + f.entry

/-- A canned action that has waited for one of the 32 to close, and may go on now (R138). -/
def State.nextWaiting (s : State) : Option Act :=
  if 32 ≤ s.openActs then none
  else s.seq.acts.find? (fun (a : Act) => a.waiting && a.e.act != 0
    && (a.e.act == 4 || (s.lookup a.e.arg).isSome))

/-- The firing of the queue that is dispatched next, while the sequencer runs (R137, R155). -/
def State.nextFiring (s : State) : Option Firing :=
  if s.on SEQ_CTL.RUN then minBy s.firingKey s.seq.wheel else none

/-- The ticks from now to the dispatch of a queued firing. -/
def State.dispatchIn (s : State) (f : Firing) : Nat := (dt f.instant s.ticks - s.leadOf f).toNat

/-- The TARIFF or VOTE that lands no later than the next dispatch. -/
def State.landsFirst (s : State) : Option Act :=
  s.nextLanding.filter (fun (a : Act) =>
    s.nextFiring.all (fun f => decide ((dt a.instant s.ticks).toNat ≤ s.dispatchIn f)))

/-- A queued firing is dispatched: its entry is read, and one with an uncorrectable error is rewritten and
its firing withdrawn (R129). -/
def State.dispatchRead (s : State) (f : Firing) (ue : Bool) : State :=
  let r := s.touchEntry f.entry ue
  if ue || s.seq.bad.contains f.entry then r else r.dispatch f.entry f.instant .queued

/-- The firings of the entries for which `p` holds whose dispatch is due in this tick or before are
dispatched, in the order of R137, ahead of what else this tick brings (R154). -/
def State.dispatchDueOf (s : State) (p : Nat → Bool) (fuel : Nat) : State :=
  match fuel with
  | 0 => s
  | fuel + 1 =>
    match (if s.on SEQ_CTL.RUN then
        minBy s.firingKey (s.seq.wheel.filter (fun (f : Firing) => p f.entry && s.dispatchDue f)) else none) with
    | none => s
    | some f => (s.dispatchRead f false).dispatchDueOf p fuel

/-- DISPATCH (R137): a dispatch that has waited goes on; else a TARIFF or a VOTE lands, or the next firing
of the queue reaches its instant less its lead, whichever comes first.  `ue` says that the entry holds an
uncorrectable error when it is read (R129). -/
def execDispatch (ue : Bool) (s : State) : Result :=
  match s.nextWaiting with
  | some a => .next (s.performAct a)
  | none =>
    match s.landsFirst with
    | some a => .next ((s.advance (dt a.instant s.ticks).toNat).tariffOrVote a)
    | none =>
      match s.nextFiring with
      | none => .next s
      | some f =>
        let s := s.advance (s.dispatchIn f)
        .next (s.dispatchRead f ue)

/-! ### The sweep (R133 to R135, R145) -/

/-- Enqueue a firing; a full queue leaves the entry ARMED (R135), and so does a LATCH whose channel's lookup
has to wait (R59). -/
def State.enqueue (s : State) (i instant : Nat) : State :=
  if 16384 ≤ s.seq.wheel.length then
    if s.seq.fullSaid then s
    else ({ s with seq := { s.seq with fullSaid := true } }).raise Kind.SEQ_WHEEL_FULL i
  else
    let q := (s.entryState i eQUEUED).setWheel (s.seq.wheel ++ [.mk i instant none false])
    if (s.entry i).act != 1 then q
    else match q.lookup (s.entry i).arg with
      | none => s
      | some (q, c) =>
        let port := if c.valid && c.type == tCHAIN then some c.port else none
        q.setWheel (q.seq.wheel.map (fun (f : Firing) => if f.entry = i then { f with port := port } else f))

/-- The instant of an overdue phase entry, and whether it is not found any more (R145). -/
def State.overdueAt (s : State) (e : Eph) (m : Model) : Nat × Bool :=
  let t0 := (s.ticks + 2 ^ 48 - 1048576) % 2 ^ 48
  match cross (s.fwd e.domain) m e.target t0 1048576 with
  | some o => ((t0 + o) % 2 ^ 48, false)
  | none => (s.ticks, true)

/-- The model under which an ARMED phase entry is evaluated now: its domain tracks in a permitted direction,
and a REV entry has its NEXT (R131, R134). -/
def State.evaluates (s : State) (e : Eph) : Option Model :=
  if s.phState e.domain != phTRACK || !permits e.dir (s.fwd e.domain) || (e.trigkind = 2 && !e.nextSet) then none
  else (s.dom e.domain).eff

/-- The visit of an ARMED entry (R134). -/
def State.visit (s : State) (i : Nat) : State :=
  let e := s.entry i
  let h := s.get SEQ_HORIZON.TICKS
  if e.state != eARMED then s
  else if e.trigkind = 0 then
    if dt e.trig s.ticks ≤ 0 then s.dispatch i e.trig (.overdue false)
    else if dt e.trig s.ticks ≤ h then s.enqueue i e.trig
    else s
  else
    match s.evaluates e with
    | none => s
    | some m =>
      if s.passed e.domain e.target then
        let r := s.overdueAt e m
        s.dispatch i r.1 (.overdue r.2)
      else
        match cross (s.fwd e.domain) m e.target s.ticks h with
        | some o => s.enqueue i ((s.ticks + o) % 2 ^ 48)
        | none => s

/-- The ARMED entries of domain `d` that are passed now, each with its instant (R132, R145). -/
def State.passedEntries (s : State) (d : Nat) : List (Nat × Nat × Bool) :=
  s.seq.eph.filterMap (fun x =>
    let e := x.2
    if e.state = eARMED && e.trigkind != 0 && e.domain == d then
      match s.evaluates e with
      | some m => if s.passed d e.target then some (x.1, s.overdueAt e m) else none
      | none => none
    else none)

/-- The passed entries of a domain are dispatched in this tick, the earliest instant first (R137, R148). -/
def State.dispatchPassed (s : State) (d fuel : Nat) : State :=
  match fuel with
  | 0 => s
  | fuel + 1 =>
    match (if s.on SEQ_CTL.RUN then
        minBy (fun (x : Nat × Nat × Bool) => (dt x.2.1 s.ticks + 2 ^ 48).toNat * 2 ^ 32 + x.1) (s.passedEntries d) else none) with
    | none => s
    | some x => (s.dispatch x.1 x.2.1 (.overdue x.2.2)).dispatchPassed d fuel

/-- The ticks of a sweep pass: 4 entries a sequencer clock of 125/64 tick (R133). -/
def passTicks (limit : Nat) : Nat := ceilDiv (ceilDiv (limit + 1) 4 * 125) 64

/-- The sweep visits the listed entries of [a, b), ascending; the others are FREE (R133). -/
def State.sweepSpan (s : State) (a b : Nat) : State :=
  ((s.seq.eph.map (fun x => x.1)).filter (fun i => inSpan i a b)).foldl
    (fun s i => (s.touchEntry i false).visit i) s

/-- The pass is over: the next one begins at entry 0 (R133). -/
def State.endPass (s : State) (limit : Nat) : State :=
  ({ s with seq := { s.seq with fullSaid := false, sweepAt := 0 } }).set SEQ_STAT.SWEEP (passTicks limit)

/-- SWEEP_VISIT of entry `e` (R133, R134): the sweep goes on in ascending order up to it, through the end of
the pass where it is past it.  `ue` says that the entry holds an uncorrectable error (R129). -/
def execSweepVisit (e : Fin 262144) (ue : Bool) (s : State) : Result :=
  let limit := s.get SEQ_SCAN.LIMIT
  if !s.on SEQ_CTL.RUN || limit < e.val then .next s
  else
    let s := if s.seq.sweepAt ≤ e.val then s else (s.sweepSpan s.seq.sweepAt (limit + 1)).endPass limit
    let s := s.sweepSpan s.seq.sweepAt e.val
    let s := (s.touchEntry e.val ue).visit e.val
    .next (if e.val = limit then s.endPass limit else { s with seq := { s.seq with sweepAt := e.val + 1 } })

/-! ### Effects (R139, R140, R142) -/

/-- Whether lane `k` takes a new program: idle and enabled (R139). -/
def State.laneFree (s : State) (k : Nat) : Bool :=
  s.get (SEQ_LANE.STATE k) == 0 && s.bit SEQ_CTL.LANE_EN k

/-- Whether lane `k` may take a waiting PROG firing: it is named, or none is and no lower lane is
free (R139). -/
def State.laneTakes (s : State) (k : Nat) (a : Act) : Bool :=
  a.waiting && a.e.act == 0 && (a.e.param % 16 == k + 1
    || (a.e.param % 16 == 0 && (List.range k).all (fun j => !s.laneFree j)))

/-- PROGRAM_START (R139, R159): its effect point is its first instruction. -/
def execProgramStart (k : Fin 8) (s : State) : Result :=
  if !s.laneFree k.val then .next s
  else
    match s.seq.acts.find? (s.laneTakes k.val) with
    | none => .next s
    | some a =>
      let s := s.actEffect a.id
      let e : Eng := { Eng.reset with
        regs := Tab.putList 0 [] 0 [word a.entry, word a.instant, word a.e.trig, word a.e.count]
        pc := a.e.arg % 16384, ready := s.now * 64, entry := a.entry, tenant := a.e.tenant, act := a.id
        started := s.now, runmax := s.get SEQ_CFG.RUNMAX }
      let s := s.setEngine k.val e
      .next (((s.set (SEQ_LANE.STATE k.val) 1).set (SEQ_LANE.ENTRY k.val) a.entry).setBit SEQ_STAT.BUSY k.val true)

/-- LANE_RUNMAX (R140). -/
def execLaneRunmax (k : Fin 8) (s : State) : Result :=
  let e := s.engine k.val
  if s.get (SEQ_LANE.STATE k.val) = 0 || e.runmax = 0 then .next s
  else .next ((s.waitUntil (e.started + e.runmax + 1)).stopLane k.val 1)

/-- TIMED_COMMAND (R142, R143): the next timed command reaches its instant, or arrives late; of those
due in one tick the higher entry comes last. -/
def execTimedCommand (s : State) : Result :=
  match minBy (fun (t : Timed) => (dt t.instant s.ticks).toNat * 2 ^ 32 + t.entry) s.seq.timed with
  | none => .next s
  | some t =>
    let s := s.advance (dt t.instant s.ticks).toNat
    let s := { s with seq := { s.seq with timed := s.seq.timed.erase t } }
    .next ((s.drivePins t.bay (s.discretePins t.bay t.mask) t.value).actEffect t.act)

end Sys2Proof.Machine
end

