-- ==== Sys2Proof/Machine/Macs.lean ====
section
/-! DEFINITION. Chapter 12, the links of the Ethernet MACs: their rates in each mode, and what follows where a
link goes down (R331, R395, R396). -/

namespace Sys2Proof.Machine

/-- A MAC's record. -/
def State.macRec (s : State) (m : Nat) : Mac := Tab.get Mac.reset s.brg.macs m
def State.setMac (s : State) (m : Nat) (x : Mac) : State :=
  { s with brg := { s.brg with macs := Tab.put Mac.reset s.brg.macs m x } }

/-- Whether MAC `m` runs in this mode (R395): in Recovery only ETH4. -/
def State.macRuns (s : State) (m : Nat) : Bool :=
  s.on (MAC_CTL.EN m) && (s.mode != mRecovery || m == 4) && !s.mgt.booting

/-- Whether the MAC runs at the reduced rate (R395). -/
def State.macReduced (s : State) (m : Nat) : Bool :=
  s.mode == mCommission || s.mode == mRecovery || s.on (MAC_CTL.TEST m)

/-- Whether a link of MAC `m` can come up at a rate (R395, R396). -/
def State.macRate (s : State) (m rate : Nat) : Bool :=
  if m < 4 then
    if s.macReduced m then rate == 3
    else match s.get (MAC_CFG.SPEED m) with
      | 1 => rate == 4
      | 2 => rate == 3
      | _ => rate == (if (s.macRec m).lower then 3 else 4)
  else if s.macReduced m then rate == 1
  else if s.on (MAC_CFG.PCS m) then rate == 2 else rate == 1 || rate == 2

/-- Whether a MAC carries frames. -/
def State.macLinked (s : State) (m : Nat) : Bool := s.macRuns m && s.on (MAC_STAT.LINK m)

/-- A MAC's link goes down (R331, R396, R398). -/
def State.macDown (s : State) (m : Nat) : State :=
  if !s.on (MAC_STAT.LINK m) then s
  else
    let s := (((s.set (MAC_STAT.LINK m) 0).set (MAC_STAT.RATE m) 0).set (MAC_STAT.LPI m) 0).raiseLevel Kind.MAC_LINK_DOWN m
    s.setMac m { s.macRec m with
      hold := some (s.now + s.get XBAR_PORTHOLD.TICKS), lower := false, tryAt := s.now }

/-- A link at a rate that MAC `m` no longer runs goes down (R395, R396). -/
def State.macJudge (s : State) (m : Nat) : State :=
  if s.macRuns m && s.macRate m (s.get (MAC_STAT.RATE m)) then s else s.macDown m

/-- Bit times of a rate: a byte takes 125, 25 / 2, 5 / 4 or 1 / 2 ticks. -/
def byteTicks (rate len : Nat) : Nat :=
  match rate with
  | 1 => 125 * len
  | 2 => 25 * len / 2
  | 3 => 5 * len / 4
  | _ => len / 2

end Sys2Proof.Machine
end

