-- ==== Sys2Proof/Machine/Crypt.lean ====
section
/-! DEFINITION. Chapter 09, the seal of a ring port (R307, R308): SHA-384 and HMAC, AES-256 in Galois/counter
mode, the key of an epoch, and a wire cell as it is sealed and opened.  The ciphers are those of the standards
the rules name. -/

namespace Sys2Proof.Machine

/-! ### SHA-384 and HMAC (R307) -/

/-- The eighty round constants. -/
def shaConstants : List (BitVec 64) :=
  [0x428a2f98d728ae22, 0x7137449123ef65cd, 0xb5c0fbcfec4d3b2f, 0xe9b5dba58189dbbc]
  ++ [0x3956c25bf348b538, 0x59f111f1b605d019, 0x923f82a4af194f9b, 0xab1c5ed5da6d8118]
  ++ [0xd807aa98a3030242, 0x12835b0145706fbe, 0x243185be4ee4b28c, 0x550c7dc3d5ffb4e2]
  ++ [0x72be5d74f27b896f, 0x80deb1fe3b1696b1, 0x9bdc06a725c71235, 0xc19bf174cf692694]
  ++ [0xe49b69c19ef14ad2, 0xefbe4786384f25e3, 0x0fc19dc68b8cd5b5, 0x240ca1cc77ac9c65]
  ++ [0x2de92c6f592b0275, 0x4a7484aa6ea6e483, 0x5cb0a9dcbd41fbd4, 0x76f988da831153b5]
  ++ [0x983e5152ee66dfab, 0xa831c66d2db43210, 0xb00327c898fb213f, 0xbf597fc7beef0ee4]
  ++ [0xc6e00bf33da88fc2, 0xd5a79147930aa725, 0x06ca6351e003826f, 0x142929670a0e6e70]
  ++ [0x27b70a8546d22ffc, 0x2e1b21385c26c926, 0x4d2c6dfc5ac42aed, 0x53380d139d95b3df]
  ++ [0x650a73548baf63de, 0x766a0abb3c77b2a8, 0x81c2c92e47edaee6, 0x92722c851482353b]
  ++ [0xa2bfe8a14cf10364, 0xa81a664bbc423001, 0xc24b8b70d0f89791, 0xc76c51a30654be30]
  ++ [0xd192e819d6ef5218, 0xd69906245565a910, 0xf40e35855771202a, 0x106aa07032bbd1b8]
  ++ [0x19a4c116b8d2d0c8, 0x1e376c085141ab53, 0x2748774cdf8eeb99, 0x34b0bcb5e19b48a8]
  ++ [0x391c0cb3c5c95a63, 0x4ed8aa4ae3418acb, 0x5b9cca4f7763e373, 0x682e6ff3d6b2b8a3]
  ++ [0x748f82ee5defb2fc, 0x78a5636f43172f60, 0x84c87814a1f0ab72, 0x8cc702081a6439ec]
  ++ [0x90befffa23631e28, 0xa4506cebde82bde9, 0xbef9a3f7b2c67915, 0xc67178f2e372532b]
  ++ [0xca273eceea26619c, 0xd186b8c721c0c207, 0xeada7dd6cde0eb1e, 0xf57d4f7fee6ed178]
  ++ [0x06f067aa72176fba, 0x0a637dc5a2c898a6, 0x113f9804bef90dae, 0x1b710b35131c471b]
  ++ [0x28db77f523047d84, 0x32caab7b40c72493, 0x3c9ebe0a15c9bebc, 0x431d67c49c100d4c]
  ++ [0x4cc5d4becb3e42b6, 0x597f299cfc657e2a, 0x5fcb6fab3ad6faec, 0x6c44198c4a475817]

/-- The initial hash value of SHA-384. -/
def shaStart : List (BitVec 64) :=
  [0xcbbb9d5dc1059ed8, 0x629a292a367cd507, 0x9159015a3070dd17, 0x152fecd8f70e5939,
   0x67332667ffc00b31, 0x8eb44a8768581511, 0xdb0c2e0d64f98fa7, 0x47b5481dbefa4fa4]

/-- The padded message: its bytes, a one bit, zeros, and its length in bits in 16 bytes. -/
def shaPadded (m : List Byte) : List Byte :=
  m ++ [0x80] ++ List.replicate ((239 - m.length % 128) % 128) 0 ++ toBytes 16 (8 * m.length)

/-- The message schedule of one block of 128 bytes. -/
def shaSchedule (b : List Byte) : List (BitVec 64) :=
  (List.range 64).foldl (fun ws j =>
    let a := ws.getD (j + 1) 0
    let e := ws.getD (j + 14) 0
    ws ++ [(e.rotateRight 19 ^^^ e.rotateRight 61 ^^^ e >>> 6) + ws.getD (j + 9) 0
      + (a.rotateRight 1 ^^^ a.rotateRight 8 ^^^ a >>> 7) + ws.getD j 0])
    ((List.range 16).map (fun j => BitVec.ofNat 64 (ofBytes ((b.drop (8 * j)).take 8))))

/-- One round over the eight working variables. -/
def shaRound (v : List (BitVec 64)) (kw : BitVec 64) : List (BitVec 64) :=
  match v with
  | [a, b, c, d, e, f, g, h] =>
    let t := h + (e.rotateRight 14 ^^^ e.rotateRight 18 ^^^ e.rotateRight 41) + ((e &&& f) ^^^ (~~~e &&& g)) + kw
    let u := (a.rotateRight 28 ^^^ a.rotateRight 34 ^^^ a.rotateRight 39)
      + ((a &&& b) ^^^ (a &&& c) ^^^ (b &&& c))
    [t + u, a, b, c, d + t, e, f, g]
  | v => v

/-- The hash value after one more block. -/
def shaBlock (h : List (BitVec 64)) (b : List Byte) : List (BitVec 64) :=
  List.zipWith (· + ·) h
    ((List.zipWith (· + ·) shaConstants (shaSchedule b)).foldl shaRound h)

/-- SHA-384 of a message, 48 bytes. -/
def sha384 (m : List Byte) : List Byte :=
  let p := shaPadded m
  (((List.range (p.length / 128)).foldl (fun h i => shaBlock h ((p.drop (128 * i)).take 128)) shaStart).take 6
    ).flatMap (fun w => toBytes 8 w.toNat)

/-- HMAC-SHA-384 under a key of at most 128 bytes. -/
def hmacSha384 (key m : List Byte) : List Byte :=
  let k := key ++ List.replicate (128 - key.length) 0
  sha384 (k.map (· ^^^ 0x5c) ++ sha384 (k.map (· ^^^ 0x36) ++ m))

/-! ### AES-256 in Galois/counter mode (R308) -/

/-- The S-box, 32 entries a row, the first in the top byte. -/
def aesBox : List (BitVec 256) :=
  [0x637c777bf26b6fc53001672bfed7ab76ca82c97dfa5947f0add4a2af9ca472c0,
   0xb7fd9326363ff7cc34a5e5f171d8311504c723c31896059a071280e2eb27b275,
   0x09832c1a1b6e5aa0523bd6b329e32f8453d100ed20fcb15b6acbbe394a4c58cf,
   0xd0efaafb434d338545f9027f503c9fa851a3408f929d38f5bcb6da2110fff3d2,
   0xcd0c13ec5f974417c4a77e3d645d197360814fdc222a908846eeb814de5e0bdb,
   0xe0323a0a4906245cc2d3ac629195e479e7c8376d8dd54ea96c56f4ea657aae08,
   0xba78252e1ca6b4c6e8dd741f4bbd8b8a703eb5664803f60e613557b986c11d9e,
   0xe1f8981169d98e949b1e87e9ce5528df8ca1890dbfe6426841992d0fb054bb16]

def subByte (b : Byte) : Byte :=
  ((aesBox.getD (b.toNat / 32) 0) >>> (8 * (31 - b.toNat % 32))).setWidth 8

/-- Multiplication by x in the field of AES. -/
def xtime (b : Byte) : Byte := (b <<< 1) ^^^ (if b.msb then 0x1b else 0)

/-- The fifteen round keys as sixty words of four bytes. -/
def aesKeyWords (key : List Byte) : List (List Byte) :=
  (List.range 52).foldl (fun ws j =>
    let t := ws.getD (j + 7) []
    let t := if j % 8 = 0 then
        ((t.drop 1 ++ t.take 1).map subByte).modifyHead (· ^^^ ((1 : Byte) <<< (j / 8)))
      else if j % 8 = 4 then t.map subByte else t
    ws ++ [List.zipWith (· ^^^ ·) (ws.getD j []) t])
    ((List.range 8).map (fun j => (key.drop (4 * j)).take 4))

def roundKey (ks : List (List Byte)) (r : Nat) : List Byte := ((ks.drop (4 * r)).take 4).flatten

/-- SubBytes and ShiftRows over a block in column order. -/
def aesShift (b : List Byte) : List Byte :=
  (List.range 16).map (fun j => subByte (b.getD (5 * j % 16) 0))

/-- MixColumns over a block. -/
def aesMix (b : List Byte) : List Byte :=
  (List.range 16).map (fun j =>
    let x := fun (n : Nat) => b.getD (j / 4 * 4 + (j + n) % 4) 0
    xtime (x 0) ^^^ xtime (x 1) ^^^ x 1 ^^^ x 2 ^^^ x 3)

/-- One block under the round keys. -/
def aesBlock (ks : List (List Byte)) (b : List Byte) : List Byte :=
  let mixed := (List.range 13).foldl (fun b r =>
    List.zipWith (· ^^^ ·) (aesMix (aesShift b)) (roundKey ks (r + 1)))
    (List.zipWith (· ^^^ ·) b (roundKey ks 0))
  List.zipWith (· ^^^ ·) (aesShift mixed) (roundKey ks 14)

/-- Multiplication in the field of the tag, bit 0 of the standard being the most significant. -/
def tagMul (x y : BitVec 128) : BitVec 128 :=
  ((List.range 128).foldl (fun (z : BitVec 128 × BitVec 128) i =>
    (if x.getMsbD i then z.1 ^^^ z.2 else z.1,
      (z.2 >>> 1) ^^^ (if z.2.getLsbD 0 then 0xe1 <<< 120 else 0))) (0, y)).1

/-- The counter block `n` under a 96-bit IV. -/
def counterBlock (ks : List (List Byte)) (iv : List Byte) (n : Nat) : List Byte :=
  aesBlock ks (iv ++ toBytes 4 n)

/-- Counter mode over whole blocks: its own inverse. -/
def aesCounter (key iv m : List Byte) : List Byte :=
  let ks := aesKeyWords key
  List.zipWith (· ^^^ ·) m ((List.range ((m.length + 15) / 16)).flatMap (fun i => counterBlock ks iv (i + 2)))

/-- The tag of a ciphertext of whole blocks with no additional data. -/
def aesTag (key iv c : List Byte) : BitVec 128 :=
  let ks := aesKeyWords key
  let h := BitVec.ofNat 128 (ofBytes (aesBlock ks (List.replicate 16 0)))
  let y := (List.range (c.length / 16)).foldl (fun y i =>
    tagMul (y ^^^ BitVec.ofNat 128 (ofBytes ((c.drop (16 * i)).take 16))) h) 0
  tagMul (y ^^^ BitVec.ofNat 128 (8 * c.length)) h ^^^ BitVec.ofNat 128 (ofBytes (counterBlock ks iv 1))

/-! ### Cells on the wire (R39, R293, R308, R312) -/

/-- The 128 bytes of a cell. -/
def cellBytes (c : Cell) : List Byte :=
  toBytes 8 (pack [(c.node.toNat, 16), (c.f1.toNat, 16), (c.f2.toNat, 16), (c.kind.toNat, 3), (c.cls.toNat, 2),
    (c.wrap.toNat, 2), (c.ten.toNat, 4), (c.nm1.toNat, 5)]) ++ wordBytes (pad20 c.words)

/-- The cell that 128 bytes spell. -/
def cellOfBytes (bs : List Byte) : Cell :=
  let h := BitVec.ofNat 64 (ofBytes (bs.take 8))
  { node := h.extractLsb' 48 16, f1 := h.extractLsb' 32 16, f2 := h.extractLsb' 16 16,
    kind := h.extractLsb' 13 3, cls := h.extractLsb' 11 2, wrap := h.extractLsb' 9 2,
    ten := h.extractLsb' 5 4, nm1 := h.extractLsb' 0 5,
    words := (List.range 20).map (fun j => BitVec.ofNat 48 (ofBytes ((bs.drop (8 + 6 * j)).take 6))) }

/-- The CRC-32 of a cell. -/
def cellCrc (c : Cell) : BitVec 32 := crc32 (cellBytes c)

/-- A ring port's record. -/
def State.rport (s : State) (p : Nat) : RPort := Tab.get RPort.reset s.ring p
def State.setRport (s : State) (p : Nat) (x : RPort) : State :=
  { s with ring := Tab.put RPort.reset s.ring p x }

/-- The ring key K_R, from its six registers (R310). -/
def State.ringKey (s : State) : List Byte :=
  toBytes 32 (pack ((List.range 6).map (fun k => (s.get (RING_KEY.KEY k), if k = 5 then 16 else 48))))

/-- The key of epoch `e` for the direction from hub `x` to hub `y`, and its SALT (R307). -/
def epochKey (ring : List Byte) (x y : Nat) (nx ny : Nat) (e : Nat) : List Byte × List Byte :=
  let h := hmacSha384 ring (toBytes 2 x ++ toBytes 2 y ++ toBytes 12 nx ++ toBytes 12 ny ++ toBytes 4 e)
  (h.take 32, (h.drop 32).take 4)

/-- The key and SALT with which port `p` sends (`out`) or receives; none while it is not sealed (R307). -/
def State.sealKey (s : State) (p : Nat) (out : Bool) : Option (List Byte × List Byte) :=
  let r := s.rport p
  match r.nonce, r.peer with
  | some n, some (node, m) =>
    if s.get (RINGP_STAT.SEALST p) ≠ 2 then none
    else if out then some (epochKey s.ringKey s.node node n.toNat m r.epoch)
    else some (epochKey s.ringKey node s.node m n.toNat r.epoch)
  | _, _ => none

/-- The IV of the cell in slot `n` of sub-link `k`, slots counted from the start of the epoch (R308). -/
def sealIv (salt : List Byte) (k n : Nat) : List Byte := salt ++ toBytes 8 (k * 2 ^ 62 + n % 2 ^ 62)

/-- The most significant 32 bits of the tag. -/
def sealTag (key iv c : List Byte) : BitVec 32 := (aesTag key iv c).extractLsb' 96 32

/-- A cell as it goes on the wire and the 32 bits that follow it: in the clear with its CRC, or sealed with its
tag; which slot it takes is left open (R293, R308). -/
def State.onWire (s : State) (p k : Nat) (c : Cell) : State × Cell × BitVec 32 :=
  match s.sealKey p true with
  | none => (s, c, cellCrc c)
  | some (key, salt) =>
    let iv := sealIv salt k (Config.txSlot s.free)
    let bs := aesCounter key iv (cellBytes c)
    (s.draw, cellOfBytes bs, sealTag key iv bs)

/-- What a received wire cell spells, and whether the bits after it are its tag (R308): the cell as it stands on
a port that is not sealed. -/
def State.offWire (s : State) (p k n : Nat) (c : Cell) (tag : BitVec 32) : Cell × Bool :=
  match s.sealKey p false with
  | none => (c, true)
  | some (key, salt) =>
    let iv := sealIv salt k n
    (cellOfBytes (aesCounter key iv (cellBytes c)), tag == sealTag key iv (cellBytes c))

end Sys2Proof.Machine
end

