-- ==== Sys2Proof/Machine/CycOps.lean ====
section
/-! DEFINITION. Chapter 11, what other chapters use of the cycle matrix: the rows of the table, which
of them select a basic cycle, the spans of windows and sync slots, and the node map of R316. -/

namespace Sys2Proof.Machine

/-- A valid row of the cycle-matrix table (R340): its number, its fields and its reserved bits. -/
structure Row where
  idx   : Nat
  hb    : Bool
  sub   : Nat
  src   : Nat
  owner : Nat
  dest  : Nat
  rep   : Nat
  phase : Nat
  cells : Nat
  start : Nat
  rsvd  : Bool
  deriving DecidableEq, Repr

/-- Row `r` of a bank, whether VALID or not. -/
def rowOf (t : Tab Nat) (r : Nat) : Row :=
  let w0 := Tab.get 0 t (3 * r)
  let w1 := Tab.get 0 t (3 * r + 1)
  let w2 := Tab.get 0 t (3 * r + 2)
  { idx := r, hb := w0.testBit 46, sub := bits w0 43 42, src := bits w0 41 37, owner := bits w0 31 16,
    dest := bits w0 15 0, rep := bits w1 22 20, phase := bits w1 19 14, cells := bits w1 13 0,
    start := bits w2 16 0,
    rsvd := bits w0 45 44 != 0 || bits w0 36 32 != 0 || bits w1 47 23 != 0 || bits w2 47 17 != 0 }

/-- The VALID rows of a bank, in row order. -/
def validRows (t : Tab Nat) : List Row :=
  t.filterMap (fun kv => if kv.1 % 3 = 0 && kv.2.testBit 47 then some (rowOf t (kv.1 / 3)) else none)

/-- The rows that run the ring (R339). -/
def State.rows (s : State) : List Row := validRows s.cyc.active

/-- Whether a row selects basic cycle `c` (R341). -/
def Row.selects (r : Row) (c : Nat) : Bool := c % 2 ^ r.rep == r.phase

/-- The window length WLEN of R341. -/
def Row.wlen (r : Row) : Nat := ceilDiv (33 * (r.cells + 1)) 4

/-- The basic cycle CYC and the one before it. -/
def State.cycNow (s : State) : Nat := s.get CYC_STAT.CYC
def State.cycPrev (s : State) : Nat := (s.cycNow + s.matrixLen - 1) % s.matrixLen

/-- This hub's own rows that select the running basic cycle: OWNER is the guardian slot base (R426). -/
def State.ownRows (s : State) : List Row :=
  s.rows.filter (fun r => r.owner == s.gslot && r.selects s.cycNow)

/-- SSLOT, KERF and SPAN. -/
def State.sslot (s : State) : Nat := s.get CYC_CFG.SSLOT
def State.kerf (s : State) : Nat := s.get CYC_CFG.KERF
def State.span (s : State) : Nat := s.get CYC_SPAN.TICKS

/-- The core ports on which a row's windows leave (R341): `SUB` of AE and of BW. -/
def Row.outs (r : Row) : List Nat := [r.sub, 12 + r.sub]

/-- Whether egress core port `o` may start no arbitrated cell now (R324, R338): inside one of the
hub's own windows, or within the kerf before a window or before the own sync slot. -/
def State.outShut (s : State) (o : Nat) : Bool :=
  let off := s.cyc.offset
  let k := s.kerf
  s.ownRows.any (fun r => r.outs.contains o && decide (r.start ≤ off + k) && decide (off < r.start + r.wlen))
  || (s.on CYC_CTL.SYNC && (o == 0 || o == 12)
      && (let j := s.get CYC_CTL.SLOT * s.sslot
          (decide (j ≤ off + k) && decide (off ≤ j)) || decide (s.bc + j ≤ off + k)))

/-- Whether input core port `i` gives its cell time to a TT cell (R324). -/
def State.inShut (s : State) (i : Nat) : Bool :=
  s.ownRows.any (fun r => r.src == i && inSpan s.cyc.offset r.start (r.start + r.wlen))

/-- Whether an arrival in a row's span counts for the row now (R353). -/
def State.rowTakes (s : State) (r : Row) : Bool :=
  let lo := r.start - s.kerf
  let hi := r.start + r.wlen + s.span
  (r.selects s.cycNow && inSpan s.cyc.offset lo hi)
  || (r.selects s.cycPrev && inSpan (s.cyc.offset + s.bc) lo hi)

/-- The node that a cell shows as its sender (R318). -/
def shownSender (c : Cell) : Option Nat :=
  if c.kind = kREAD then some (wbits (c.words.getD 0 0) 47 32)
  else if c.kind = kRESP ∨ c.kind = kCTRL then some c.f1.toNat
  else if c.kind = kBWRITE ∨ c.kind = kORPHAN then some c.node.toNat
  else none

/-- The node map (R316). -/
def State.present (s : State) (n : Nat) : Bool :=
  n == s.node || s.rows.isEmpty || s.xbar.seenNow.contains n || s.xbar.seenPrev.contains n

/-- A valid TT cell on sub-link `k` reached or passed the hub: its owner counts as present (R316).  The
owner is the shown sender where it owns a row whose span holds the arrival, else the one owner of such
rows of the cell's destination.  DEDUCED. -/
def State.noteSeen (s : State) (k : Nat) (c : Cell) : State :=
  let rs := s.rows.filter (fun r => r.sub == k && s.rowTakes r)
  let owner := match shownSender c with
    | some n => if rs.any (fun r => r.owner == n) then some n else none
    | none =>
      match (rs.filter (fun r => r.dest == c.node.toNat)).map (fun r => r.owner) with
      | [] => none
      | n :: rest => if rest.all (· == n) then some n else none
  match owner with
  | none => s
  | some n => if s.xbar.seenNow.contains n then s
    else { s with xbar := { s.xbar with seenNow := n :: s.xbar.seenNow } }

/-- Whether the table expects TT cells on AW and BE in basic cycle `c` (R348). -/
def State.ttExpected (s : State) (c : Nat) : Bool :=
  s.rows.any (fun r => r.selects c && r.dest == 0xFFFF && r.owner != s.node)

/-- Whether the hub's lanes run at the full rate and cells other than LINK cells may leave it
(R288, R297). -/
def State.cellsLeave (s : State) : Bool := s.mode == mRun || s.mode == mShadow || s.mode == mHold

/-- The ring port and the sub-link of a core port below 16 (R14). -/
def cpPort (cp : Nat) : Nat := cp / 4
def cpSub (cp : Nat) : Nat := cp % 4

/-- A wire cell leaves on ring egress core port `cp` (R293, R308). -/
def State.sendRing (s : State) (cp : Nat) (c : Cell) : State :=
  let w := s.onWire (cpPort cp) (cpSub cp) c
  w.1.emit (.ring cp w.2.1 w.2.2)

/-- A LINK cell leaves port `p` on sub-link 0 (R297, R308). -/
def State.emitLink (s : State) (p : Nat) (c : Cell) : State :=
  let w := s.onWire p 0 c
  w.1.emit (.link p w.2.1 w.2.2)

end Sys2Proof.Machine
end

