-- ==== Sys2Proof/Machine/XbarOps.lean ====
section
/-! DEFINITION. Chapter 10, the switch core: ports and routes, input queues and crosspoints, tenant
quotas, cells held for a ring port that is down, matching and choice, the spare buffer bank. -/

namespace Sys2Proof.Machine

/-! ### Ports and routes -/

/-- The other port of the same ring (R284, R285). -/
def otherPort (p : Nat) : Nat := if p % 2 = 0 then p + 1 else p - 1

/-- Whether sub-link `k` of port `p` is UP (R296). -/
def State.subUp (s : State) (p k : Nat) : Bool := s.bit (RINGP_STAT.SUBUP p) k

/-- Whether any sub-link of a port is UP. -/
def State.portUp (s : State) (p : Nat) : Bool := s.get (RINGP_STAT.SUBUP p) != 0

/-- The sub-link on which a cell leaves: the selected one, or the next UP in ascending order modulo 4;
the selected one where none is UP (R287). -/
def State.pickSub (s : State) (p k : Nat) : Nat :=
  ((List.range 4).map (fun i => (k + i) % 4)).find? (s.subUp p) |>.getD k

/-- Where a cell that would leave port `p` on sub-link `k` leaves: a wrapped port turns it onto the
other port of the ring with its wrap count raised, and a cell that has been wrapped twice is dropped
there, which is told by the port (R302, R303). -/
def State.routeFrom (s : State) (fuel p k : Nat) (c : Cell) : Except Nat (Nat × Cell) :=
  match fuel with
  | 0 => .error p
  | fuel + 1 =>
    if s.on (RINGP_STAT.WRAP p) then
      if 2 ≤ c.wrap.toNat then .error p
      else s.routeFrom fuel (otherPort p) k { c with wrap := c.wrap + 1 }
    else .ok (4 * p + s.pickSub p k, c)

/-- Where a cell that would leave port `p` on sub-link `k` leaves. -/
def State.route (s : State) (p k : Nat) (c : Cell) : Except Nat (Nat × Cell) := s.routeFrom 4 p k c

/-- A cell is dropped at a wrap point (R303). -/
def State.wrapDrop (s : State) (p : Nat) : State := (s.inc (RINGP_CNT.WRAPDROP p)).raise Kind.WRAP_DROP p

/-- Path and sub-link of a cell that this hub originates (R286): port by f[1:0], sub-link by f[3:2]. -/
def flowPort (f : Nat) : Nat :=
  match f % 4 with
  | 0 => 0
  | 1 => 3
  | 2 => 1
  | _ => 2

/-- The flow key of R286. -/
def Cell.flow (c : Cell) : Nat := (c.node ^^^ c.f1).toNat

/-- The core port that serves an arriving or local cell (R14, R25): CTRL cells go to the block their
FORMAT names. -/
def localCp (c : Cell) : Nat :=
  if c.kind = kRESP then 17
  else if c.kind = kCTRL then
    match wbits (c.words.getD 0 0) 47 40 with
    | 1 => 27
    | 2 | 3 | 5 => 31
    | 8 => 30
    | _ => 29
  else if c.kind = kTUNNEL then 18
  else
    let ch := c.f1.toNat
    if ch < 0xFFF0 then 28
    else match ch with
      | 0xFFFE | 0xFFFA => 27
      | 0xFFFC => 30
      | 0xFFFB => 19 + (c.f2.toNat / 1280) / 4 % 8
      | _ => 31

/-! ### Input queues and crosspoints -/

/-- The cells in the input queue of core port `i`, and how many places they take (R320). -/
def State.inq (s : State) (i : Nat) : List QCell := Tab.get [] s.xbar.inq i
def State.inqFull (s : State) (i : Nat) : Bool :=
  decide (32 ≤ ((s.inq i).filter (fun q => !q.copy)).length)

/-- The cells of crosspoint (i, o), in arrival order. -/
def State.xp (s : State) (i o : Nat) : List QCell := Tab.get [] s.xbar.xp (32 * i + o)

def State.setInq (s : State) (i : Nat) (qs : List QCell) : State :=
  { s with xbar := { s.xbar with inq := Tab.put [] s.xbar.inq i qs } }
def State.setXp (s : State) (i o : Nat) (qs : List QCell) : State :=
  { s with xbar := { s.xbar with xp := Tab.put [] s.xbar.xp (32 * i + o) qs } }

/-- Whether crosspoint (i, o) has a place for a cell of class `cls` (R321). -/
def State.room (s : State) (i o : Nat) (cls : BitVec 2) : Bool :=
  let qs := s.xp i o
  decide (qs.length < 8) &&
    (cls = cCTL || decide ((qs.filter (fun q => decide (2 ≤ q.cell.cls.toNat))).length < 7))

/-- The use U_n of a tenant (R327). -/
def State.use (s : State) (n : Nat) : Nat := s.get (XBAR_TSTAT.ADMITTED n) + s.get (XBAR_TSTAT.BUFFERED n)

/-- OVER clears when the use falls below the quota (R327). -/
def State.judgeOver (s : State) (n : Nat) : State :=
  if s.on (XBAR_TSTAT.OVER n) && decide (s.use n < s.get (XBAR_TQUOTA.CELLS n))
  then (s.setB (XBAR_TSTAT.OVER n) false).endLevel Kind.OVER_QUOTA n else s

/-- A cell leaves the input queues and crosspoints: an originated one no longer counts (R327). -/
def State.leaves (s : State) (q : QCell) : State :=
  match q.own with
  | none => s
  | some n => (s.set (XBAR_TSTAT.BUFFERED n) (s.get (XBAR_TSTAT.BUFFERED n) - 1)).judgeOver n

/-- QUOTA_WRITE (R327): the new quota applies from the next tick; below the use it sets OVER.  A
reserved CLASS refuses the write (R12). -/
def State.writeQuota (s : State) (n : Nat) (v : Word) : State :=
  if wbits v 25 24 < 2 then s else
  let cells := wbits v 15 0
  let old := (s.oldQuota n).getD
    (.mk s.now (s.get (XBAR_TQUOTA.CLASS n)) (s.get (XBAR_TQUOTA.CELLS n)) (s.on (XBAR_TSTAT.OVER n)))
  let s := { s with xbar := { s.xbar with oldQuota := Tab.put none s.xbar.oldQuota n (some old) } }
  let s := ((s.set (XBAR_TQUOTA.CLASS n) (wbits v 25 24)).set (XBAR_TQUOTA.TBLW n) (wbits v 23 16)).set
    (XBAR_TQUOTA.CELLS n) cells
  if cells < s.use n then (s.setB (XBAR_TSTAT.OVER n) true).raiseLevel Kind.OVER_QUOTA n
  else (s.setB (XBAR_TSTAT.OVER n) false).endLevel Kind.OVER_QUOTA n

/-- QUOTA_WRITE. -/
def execQuotaWrite (n : Fin 16) (v : Word) (s : State) : Result := .next (s.writeQuota n.val v)

/-! ### Ring ports that are down (R330) -/

/-- Whether a port's cells are held: it is not wrapped and no sub-link of it is UP. -/
def State.holding (s : State) (p : Nat) : Bool := !s.portUp p && !s.on (RINGP_STAT.WRAP p)

/-- Start PORT_HOLD of a port whose cells are held, where none runs. -/
def State.startHold (s : State) (p : Nat) : State :=
  if s.holding p && (Tab.get none s.xbar.hold p).isNone then
    { s with xbar := { s.xbar with
      hold := Tab.put none s.xbar.hold p (some (s.now + s.get XBAR_PORTHOLD.TICKS)) } }
  else s

/-- End PORT_HOLD of a port. -/
def State.endHold (s : State) (p : Nat) : State :=
  { s with xbar := { s.xbar with hold := Tab.put none s.xbar.hold p none } }

/-- Move the cells `qs` of crosspoint (i, o), oldest first, to the crosspoints that `route` names, in
order and as room allows; those without room stay (R330). -/
def State.moveCells (s : State) (i o : Nat) (qs kept : List QCell) : State :=
  match qs with
  | [] => s.setXp i o kept
  | q :: rest =>
    match s.route (cpPort o) (cpSub o) q.cell with
    | .error p => ((s.leaves q).wrapDrop p).moveCells i o rest kept
    | .ok (o', c) =>
      if o' = o ∨ kept.any (fun k => k.cell.cls == q.cell.cls) ∨ !s.room i o' q.cell.cls then
        s.moveCells i o rest (kept ++ [q])
      else
        let s := s.setXp i o' (s.xp i o' ++ [{ q with cell := c, out := o', old := false }])
        (s.inc XBAR_HOLDCNT.MOVED).moveCells i o rest kept

/-- Give the cells in the input queue of `i` that are bound for a ring sub-link the sub-link they leave
on now (R287, R302). -/
def State.rerouteIn (s : State) (i : Nat) (qs kept : List QCell) : State :=
  match qs with
  | [] => s.setInq i kept
  | q :: rest =>
    if 16 ≤ q.out then s.rerouteIn i rest (kept ++ [q])
    else match s.route (cpPort q.out) (cpSub q.out) q.cell with
      | .error p => ((s.leaves q).wrapDrop p).rerouteIn i rest kept
      | .ok (o', c) => s.rerouteIn i rest (kept ++ [{ q with cell := c, out := o' }])

/-- Move the cells bound for the ring core ports that are not UP or are wrapped (R302, R330). -/
def State.rehome (s : State) : State :=
  s.each 32 (fun i s =>
    let s := s.rerouteIn i (s.inq i) []
    s.each 16 (fun o s =>
      if (s.subUp (cpPort o) (cpSub o) && !s.on (RINGP_STAT.WRAP (cpPort o))) || (s.xp i o).isEmpty
        || s.holding (cpPort o) then s
      else s.moveCells i o (s.xp i o) []))

/-- Whether a held cell has expired (R330): CTL after a basic cycle, PRIO after PRIOAGE. -/
def State.expired (s : State) (q : QCell) : Bool :=
  (q.cell.cls = cCTL && decide (s.bc < s.now - q.born))
  || (q.cell.cls = cPRIO && decide (s.get XBAR_PORTHOLD.PRIOAGE < s.now - q.born))

/-- Take the cells of port `p`'s crosspoints for which `f` holds out of the core; each counts in `cnt`. -/
def State.discardXp (s : State) (p : Nat) (f : QCell → Bool) (cnt : Field) : State :=
  s.each 32 (fun i s => s.each 4 (fun k s =>
    let o := 4 * p + k
    let gone := (s.xp i o).filter f
    if gone.isEmpty then s
    else gone.foldl (fun s q => (s.leaves q).inc cnt) (s.setXp i o ((s.xp i o).filter (fun q => !f q)))))

/-- A sub-link of a port is UP again: expired cells are dropped and the rest goes on (R330). -/
def State.portReturns (s : State) (p : Nat) : State :=
  if (Tab.get none s.xbar.hold p).isNone then s.rehome
  else ((s.discardXp p s.expired XBAR_HOLDCNT.EXPIRED).endHold p).rehome

/-- PORT_HOLD of a ring port ends: the held cells are flushed (R330). -/
def State.holdEnds (s : State) (p : Nat) : State :=
  let held := fun (k : Nat) => (List.range 32).foldl (fun n i => n + (s.xp i (4 * p + k)).length) 0
  let counts := (List.range 4).map (fun k => (4 * p + k, held k))
  let s := (s.discardXp p (fun _ => true) XBAR_HOLDCNT.FLUSHED).endHold p
  counts.foldl (fun s cn => if cn.2 = 0 then s
    else s.raise Kind.XBAR_HOLD_FLUSH (min cn.2 0xFFFF * 2 ^ 16 + cn.1)) s

/-- Whether core port `o` belongs to a port whose cells are held. -/
def State.outHeld (s : State) (o : Nat) : Bool := decide (o < 16) && s.holding (cpPort o)

/-- Put a cell into the input queue of core port `i` for egress `o` (R320). -/
def State.queueCell (s : State) (i o : Nat) (c : Cell) (own : Option Nat) (copy : Bool) : State :=
  let s := s.setInq i (s.inq i ++ [.mk c o s.now own copy false])
  if s.outHeld o then s.startHold (cpPort o) else s

/-! ### Matching and choice -/

/-- The element of `xs` that comes first from `ptr` onward, modulo 32. -/
def firstFrom (ptr : Nat) (xs : List Nat) : Option Nat := minBy (fun x => (x + 32 - ptr) % 32) xs

/-- Whether input `i` holds a cell for output `o` with room in (i, o). -/
def State.wants (s : State) (i o : Nat) : Bool :=
  (s.inq i).any (fun q => q.out == o && s.room i o q.cell.cls)

/-- One iteration of request, grant and accept (R322): the matches it makes. -/
def State.iteration (s : State) (ins outs : List Nat) : List (Nat × Nat) :=
  let grants := outs.filterMap (fun o =>
    (firstFrom (Tab.get 0 s.xbar.gptr o) (ins.filter (fun i => s.wants i o))).map (fun i => (o, i)))
  ins.filterMap (fun i =>
    (firstFrom (Tab.get 0 s.xbar.aptr i) ((grants.filter (fun g => g.2 == i)).map (fun g => g.1))).map
      (fun o => (i, o)))

/-- Three iterations over the free inputs and outputs; the pointers move in the first (R322). -/
def State.matching (s : State) (ins outs : List Nat) : State × List (Nat × Nat) :=
  let rest := fun (ms : List (Nat × Nat)) =>
    (ins.filter (fun i => ms.all (fun m => m.1 != i)), outs.filter (fun o => ms.all (fun m => m.2 != o)))
  let m1 := s.iteration ins outs
  let r1 := rest m1
  let m2 := m1 ++ s.iteration r1.1 r1.2
  let r2 := rest m2
  let m3 := m2 ++ s.iteration r2.1 r2.2
  (m1.foldl (fun s m => { s with xbar := { s.xbar with
      gptr := Tab.put 0 s.xbar.gptr m.2 ((m.1 + 1) % 32)
      aptr := Tab.put 0 s.xbar.aptr m.1 ((m.2 + 1) % 32) } }) s, m3)

/-- Take the first element for which `f` holds out of a list. -/
def takeFirst {α : Type} (f : α → Bool) : List α → Option (α × List α)
  | [] => none
  | a :: rest =>
    if f a then some (a, rest)
    else match takeFirst f rest with
      | none => none
      | some (x, r) => some (x, a :: r)

/-- A matched input moves its highest-class cell with room into (i, o) (R322). -/
def State.moveIn (s : State) (i o : Nat) : State :=
  let cands := (s.inq i).filter (fun q => q.out == o && s.room i o q.cell.cls)
  match minBy (fun (q : QCell) => q.cell.cls.toNat) cands with
  | none => s
  | some q =>
    match takeFirst (fun (x : QCell) => x.out == o && x.cell.cls == q.cell.cls) (s.inq i) with
    | none => s
    | some (q, rest) => (s.setInq i rest).setXp i o (s.xp i o ++ [q])

/-- The cells of crosspoint (i, o) that the output may read: of a bank that is being drained first
(R332). -/
def State.readable (s : State) (i o : Nat) : List QCell :=
  let qs := s.xp i o
  let olds := qs.filter (fun q => q.old)
  if olds.isEmpty then qs else olds

/-- The class an output serves (R323): CTL, PRIO, BULK; BULK after PRUN PRIO cells in a row. -/
def State.pickClass (s : State) (o : Nat) : Option (BitVec 2) :=
  let has := fun (c : BitVec 2) => (List.range 32).any (fun i => (s.readable i o).any (fun q => q.cell.cls == c))
  let k := s.get (XBAR_FWD.PRUN o)
  if has cCTL then some cCTL
  else if has cBULK && k != 0 && decide (k ≤ Tab.get 0 s.xbar.prioRun o) then some cBULK
  else if has cPRIO then some cPRIO
  else if has cBULK then some cBULK
  else none

/-- An output reads the next cell: of the class of R323 from the next crosspoint that holds it. -/
def State.readOut (s : State) (o : Nat) : Option (State × Nat × QCell) :=
  match s.pickClass o with
  | none => none
  | some cls =>
    let key := 4 * o + cls.toNat
    let ins := (List.range 32).filter (fun i => (s.readable i o).any (fun q => q.cell.cls == cls))
    match firstFrom (Tab.get 0 s.xbar.rr key) ins with
    | none => none
    | some i =>
      let olds := (s.xp i o).any (fun q => q.old)
      match takeFirst (fun (q : QCell) => q.cell.cls == cls && (!olds || q.old)) (s.xp i o) with
      | none => none
      | some (q, rest) =>
        let run := if cls = cPRIO then min 16 (Tab.get 0 s.xbar.prioRun o + 1)
          else if cls = cBULK then 0 else Tab.get 0 s.xbar.prioRun o
        let s := s.setXp i o rest
        let s := { s with xbar := { s.xbar with
          rr := Tab.put 0 s.xbar.rr key ((i + 1) % 32), prioRun := Tab.put 0 s.xbar.prioRun o run } }
        some (s.leaves q, i, q)

/-! ### The spare buffer bank (R332) -/

/-- A request of the spare for bank `b`: accepted only while the spare is idle. -/
def State.requestBank (s : State) (b : Nat) : State :=
  if s.get XBAR_SPARE.STATE = 0 then (s.set XBAR_SPARE.STATE 1).set XBAR_SPARE.SERVES b
  else s.raise Kind.XBAR_NO_SPARE b

/-- BANK_SPARE_GO: a write of `XBAR_SPARE`. -/
def State.writeSpare (s : State) (v : Word) : State :=
  let s := ((s.set XBAR_SPARE.CELIM (wbits v 23 16)).set XBAR_SPARE.AUTO (wbits v 12 12)).set
    XBAR_SPARE.BANK (wbits v 11 8)
  if v.toNat.testBit 13 then s.requestBank (s.get XBAR_SPARE.BANK) else s

/-- BANK_SPARE_GO. -/
def execBankSpareGo (v : Word) (s : State) : Result := .next (s.writeSpare v)

/-- At a matrix boundary an armed spare begins to drain its bank (R332). -/
def State.drainBank (s : State) : State :=
  if s.get XBAR_SPARE.STATE = 1 then
    let b := s.get XBAR_SPARE.SERVES
    (s.each 32 (fun i s => s.each 2 (fun j s =>
      s.setXp i (2 * b + j) ((s.xp i (2 * b + j)).map (fun q => { q with old := true }))))).set
      XBAR_SPARE.STATE 2
  else s

/-- XBAR_SPARE_IN (R332): the old bank is empty and the spare is in service. -/
def execXbarSpareIn (s : State) : Result :=
  let b := s.get XBAR_SPARE.SERVES
  let drained := (List.range 32).all (fun i => (List.range 2).all (fun j =>
    (s.xp i (2 * b + j)).all (fun q => !q.old)))
  .next (if s.get XBAR_SPARE.STATE = 2 && drained
    then (s.set XBAR_SPARE.STATE 3).raise Kind.XBAR_SPARE_IN b else s)

/-- A correctable error in bank `b` (R332): XBAR_BANK_WEAR at CELIM, once in a matrix. -/
def State.bankError (s : State) (b : Nat) : State :=
  let n := Tab.get 0 s.xbar.ceMatrix b + 1
  let s := { s with xbar := { s.xbar with ceMatrix := Tab.put 0 s.xbar.ceMatrix b n } }
  let s := s.inc (XBAR_BANKCE.CE b)
  if s.get XBAR_SPARE.CELIM ≤ n ∧ ¬ s.xbar.worn.contains b then
    let s := ({ s with xbar := { s.xbar with worn := b :: s.xbar.worn } }).raise Kind.XBAR_BANK_WEAR b
    if s.on XBAR_SPARE.AUTO then s.requestBank b else s
  else s

end Sys2Proof.Machine
end

