-- ==== Sys2Proof/Machine/Ring.lean ====
section
/-! DEFINITION. Chapter 09: ring ports, lanes and sub-links, the spare lane, loss of a neighbour and
the wrap, keys and seals; and the entropy pool from which nonces are drawn (R482). -/

namespace Sys2Proof.Machine

/-- A lane's receiver record. -/
def State.rlane (s : State) (p l : Nat) : RLane := Tab.get RLane.reset (s.rport p).lanes l
def State.setRlane (s : State) (p l : Nat) (x : RLane) : State :=
  let r := s.rport p
  s.setRport p { r with lanes := Tab.put RLane.reset r.lanes l x }

/-- The address of a lane's or a position's report (R311). -/
def ringAddr (p l : Nat) : Nat := l * 16 + p

/-! ### The entropy pool and nonces (R482, R306) -/

/-- The source adds entropy to a pool that is not full; how much is left open (R482). -/
def State.refillPool (s : State) : State :=
  if s.on RNG_STATUS.READY && decide (s.get RNG_STATUS.BITS < 384) then
    (s.set RNG_STATUS.BITS (min 384 (s.get RNG_STATUS.BITS + Config.entropyAdded s.free))).draw
  else s

/-- Port `p` takes a fresh nonce, or waits until the pool holds one (R306, R482). -/
def State.takeNonce (s : State) (p : Nat) : State :=
  if s.get RNG_STATUS.BITS < 96 then
    { s with mgt := { s.mgt with
      nonceWait := if s.mgt.nonceWait.contains p then s.mgt.nonceWait else s.mgt.nonceWait ++ [p] } }
  else
    let s := s.set RNG_STATUS.BITS (s.get RNG_STATUS.BITS - 96)
    let r := { s.rport p with nonce := some (Config.entropy s.free) }
    let s := (s.setRport p { r with keyDue := r.peer.isSome }).draw
    { s with mgt := { s.mgt with nonceWait := s.mgt.nonceWait.filter (· != p) } }

/-- Draw a nonce for a port that is to be sealed, once READY is 1: keying begins anew (R306). -/
def State.drawNonce (s : State) (p : Nat) : State :=
  if !s.on (RINGP_CTL.SEAL p) || !s.on RNG_STATUS.READY then s else
  let s := (s.set (RINGP_STAT.SEALST p) 1).setRport p
    { s.rport p with nonce := none, peer := none, keyDue := false, readyAt := some s.cyc.ncyc, sealSaid := false }
  s.refillPool.takeNonce p

/-- Serve the ports that wait for a nonce, ahead of every read of the pool (R482). -/
def State.serveNonces (s : State) : State :=
  if s.mgt.nonceWait.isEmpty then s
  else s.mgt.nonceWait.foldl (fun s p => s.takeNonce p) s.refillPool

/-- Whether a port may carry cells other than LINK cells as far as its seal goes (R306). -/
def State.sealOpen (s : State) (p : Nat) : Bool :=
  !s.on (RINGP_CTL.SEAL p) || (s.get (RINGP_STAT.SEALST p) == 2 && s.on RNG_STATUS.READY)

/-! ### Lanes and sub-links -/

/-- Whether a lane's receiver is LOCKED, DEGRADED or not (R295, R298). -/
def State.locked (s : State) (p l : Nat) : Bool := s.get (RINGP_LANE.STATE p l) != 0

/-- The physical lane of position `q` (`RINGp_RXMAP`). -/
def State.laneOf (s : State) (p q : Nat) : Nat := bits (s.get (RINGP_RXMAP.MAP p)) (4 * q + 3) (4 * q)

/-- The position that physical lane `l` serves. -/
def State.posOf (s : State) (p l : Nat) : Option Nat :=
  (List.range 8).find? (fun q => s.laneOf p q == l)

/-- Map position `q` to physical lane `l`. -/
def State.mapLane (s : State) (p q l : Nat) : State :=
  let m := s.get (RINGP_RXMAP.MAP p)
  s.set (RINGP_RXMAP.MAP p) (m - s.laneOf p q * 16 ^ q + l * 16 ^ q)

/-- LPOS, LSTATE, SREQ and SPOS of the lane-word fields acted on (R290). -/
def lwPos (f : Nat) : Nat := bits f 13 10
def lwState (f : Nat) : Nat := bits f 9 8
def lwSreq (f : Nat) : Bool := f.testBit 6
def lwSpos (f : Nat) : Nat := bits f 3 1

/-- Whether position `q` of a port works: its lane is LOCKED, carries `q`, and its state is at least
`least` (2 UP); a copy on the spare shows DUP (R296). -/
def State.posWorks (s : State) (p q least : Nat) : Bool :=
  let l := s.laneOf p q
  s.locked p l &&
    match (s.rlane p l).acted with
    | none => false
    | some f => lwPos f == q && (decide (least ≤ lwState f) && (lwState f != 3 || l == 8))

/-- The ticks of one codeword and of a superframe (R288, R289, R292). -/
def State.codewordTicks (s : State) : Nat := if s.mode = mCommission then 160 else 80
def State.superTicks (s : State) : Nat := 33 * s.codewordTicks

/-- Whether the codewords of CSEQ `c` on two lanes lie within 160 ticks of one another (R296): superframes
repeat, so it is judged modulo one. -/
def State.alignedAt (s : State) (x y : RLane) (c : Option Nat) : Bool :=
  c.any (fun c =>
    let a := Tab.get 0 x.ats c
    let b := Tab.get 0 y.ats c
    let d := (a % s.superTicks + s.superTicks - b % s.superTicks) % s.superTicks
    a != 0 && b != 0 && (decide (d ≤ 160) || decide (s.superTicks ≤ d + 160)))

/-- Whether the two positions of sub-link `k` align within the deskew, as their last codewords show
(R296). -/
def State.deskewed (s : State) (p k : Nat) : Bool :=
  let x := s.rlane p (s.laneOf p (2 * k))
  let y := s.rlane p (s.laneOf p (2 * k + 1))
  s.alignedAt x y x.cseq || s.alignedAt x y y.cseq

/-- Whether the partner of sub-link `k` shows READY or UP: TT and sync cells may go (R297). -/
def State.subReady (s : State) (p k : Nat) : Bool :=
  s.posWorks p (2 * k) 1 && s.posWorks p (2 * k + 1) 1

/-- Whether LINK cells can go: the lanes of sub-link 0 are LOCKED at both ends, which the partner shows by
READY or UP (R297), and a port to be sealed has an entropy pool that is ready (R306). -/
def State.linkOpen (s : State) (p : Nat) : Bool :=
  s.subReady p 0 && (!s.on (RINGP_CTL.SEAL p) || s.on RNG_STATUS.READY)

/-- A LINK cell leaves port `p`, or waits for the CTL cap (R297, R326). -/
def linkCell (ws : List Word) : Cell :=
  { node := 0, f1 := 0, f2 := 0, kind := kLINK, cls := cCTL, wrap := 0, ten := 0, nm1 := 19, words := pad20 ws }
def State.sendLink (s : State) (p : Nat) (ws : List Word) : State :=
  if !s.linkOpen p then s
  else if s.xbar.ctlUsed < s.get XBAR_CTLCAP.CELLS then
    ({ s with xbar := { s.xbar with ctlUsed := s.xbar.ctlUsed + 1 } }).emitLink p (linkCell ws)
  else s.sendFor (4 * p) 0 (linkCell ws)

/-- What follows from a change of a port's sub-links: cells move, are held or go on (R330), and a port
all of whose sub-links went down retrains with a new nonce (R306). -/
def State.subsChanged (s : State) (p old new_ : Nat) : State :=
  if old = new_ then s
  else if new_ = 0 then
    let s := if s.on (RINGP_CTL.SEAL p) then s.drawNonce p else s
    s.startHold p
  else if old = 0 then s.portReturns p
  else s.rehome

/-- Decide again which sub-links of a port are UP (R296, R306). -/
def State.judgeSubs (s : State) (p : Nat) : State :=
  let may := s.on (RINGP_CTL.EN p) && (!s.on (RINGP_CTL.SEAL p) || s.on RNG_STATUS.READY)
  let up := fun (k : Nat) => may && s.posWorks p (2 * k) 2 && s.posWorks p (2 * k + 1) 2 && s.deskewed p k
  let old := s.get (RINGP_STAT.SUBUP p)
  let new_ := (List.range 4).foldl (fun n k => n + (up k).toNat * 2 ^ k) 0
  let s := s.set (RINGP_STAT.SUBUP p) new_
  let s := s.each 4 (fun k s =>
    if old.testBit k && !new_.testBit k then s.raiseLevel Kind.SUBLINK_DOWN (k * 256 + p)
    else if new_.testBit k then s.endLevel Kind.SUBLINK_DOWN (k * 256 + p) else s)
  let s := if s.on (RINGP_CTL.EN p) then s
    else s.each 4 (fun k s => s.endLevel Kind.SUBLINK_DOWN (k * 256 + p))
  let s := if new_ = 15 then s else s.setRport p { s.rport p with clean := false }
  s.subsChanged p old new_

/-! ### The spare lane (R299, R300) -/

/-- A swap of position `q` is requested. -/
def State.requestLane (s : State) (p q : Nat) : State :=
  ((s.set (RINGP_SWAP.STATE p) 1).set (RINGP_SWAP.RESULT p) 0).setRport p
    { s.rport p with swapPos := q, swapAt := s.cyc.ncyc, backDue := false }

/-- GO (R299): ignored while the swap is not idle (R300). -/
def State.laneGo (s : State) (p q : Nat) : State :=
  if s.get (RINGP_SWAP.STATE p) = 0 then s.requestLane p q else s

/-- CANCEL: back to idle before step 4, ignored after it (R300). -/
def State.laneCancel (s : State) (p : Nat) : State :=
  let st := s.get (RINGP_SWAP.STATE p)
  if st = 1 ∨ st = 2 then s.set (RINGP_SWAP.STATE p) 0 else s

/-- The swap failed (R300). -/
def State.laneFail (s : State) (p : Nat) : State :=
  (s.set (RINGP_SWAP.RESULT p) 2).raise Kind.LANE_SWAP_FAIL (ringAddr p (s.rport p).swapPos)

/-- Whether the swapped position's own lane is LOCKED and not DEGRADED. -/
def State.ownLaneGood (s : State) (p : Nat) : Bool := s.get (RINGP_LANE.STATE p (s.rport p).swapPos) == 1

/-- BACK: the position returns to its own lane at the next boundary, where that lane is good
(R299, R300). -/
def State.laneBack (s : State) (p : Nat) : State :=
  if s.get (RINGP_SWAP.STATE p) ≠ 3 then s
  else if s.ownLaneGood p then s.setRport p { s.rport p with backDue := true }
  else s.laneFail p

/-- A write of `RINGp_SWAP`: POS, then GO, CANCEL and BACK. -/
def State.writeRingSwap (s : State) (p : Nat) (v : Word) : State :=
  let s := s.set (RINGP_SWAP.POS p) (wbits v 2 0)
  let s := if v.toNat.testBit 5 then s.laneGo p (wbits v 2 0) else s
  let s := if v.toNat.testBit 6 then s.laneCancel p else s
  if v.toNat.testBit 7 then s.laneBack p else s

/-- The receiver maps the swapped position to the spare: the swap is done (R299 step 4). -/
def State.mapSpare (s : State) (p : Nat) : State :=
  let q := (s.rport p).swapPos
  let s := ((s.mapLane p q 8).set (RINGP_SWAP.STATE p) 3).set (RINGP_SWAP.RESULT p) 1
  (s.raise Kind.LANE_SWAP (ringAddr p q)).judgeSubs p

/-- The position returns to its own lane, and the swap is idle. -/
def State.mapOwn (s : State) (p : Nat) : State :=
  let q := (s.rport p).swapPos
  let s := (s.mapLane p q q).set (RINGP_SWAP.STATE p) 0
  (s.setRport p { s.rport p with backDue := false }).judgeSubs p

/-- A LOCKED lane is weak: it becomes DEGRADED, and its position asks for the spare (R298 to R300). -/
def State.degrade (s : State) (p l : Nat) : State :=
  let s := (s.set (RINGP_LANE.STATE p l) 2).raiseLevel Kind.LANE_DEGRADED (ringAddr p l)
  match s.posOf p l with
  | none => s
  | some q =>
    if s.get (RINGP_SWAP.STATE p) = 0 then
      (if s.on (RINGP_CTL.AUTOSWAP p) then s.requestLane p q else s)
    else if q = (s.rport p).swapPos then s
    else s.raise Kind.LANE_NO_SPARE (ringAddr p q)

/-- A lane loses its lock (R295, R300); the corrected symbols of the running matrix stay counted. -/
def State.laneDown (s : State) (p l : Nat) : State :=
  let x := s.rlane p l
  let s := s.setRlane p l { RLane.reset with fec := x.fec, tx := x.tx }
  if !s.locked p l then s else
  let s := (s.set (RINGP_LANE.STATE p l) 0).endLevel Kind.LANE_DEGRADED (ringAddr p l)
  let s := s.raiseLevel Kind.LANE_DOWN (ringAddr p l)
  let r := s.rport p
  let s := s.setRport p { r with trainAt := Tab.put 0 r.trainAt l s.cyc.ncyc }
  let st := s.get (RINGP_SWAP.STATE p)
  if st = 2 ∧ s.laneOf p r.swapPos = l then s.mapSpare p
  else if l = 8 ∧ st = 3 ∧ s.locked p r.swapPos then s.mapOwn p
  else (if l = 8 ∧ st = 2 then s.set (RINGP_SWAP.STATE p) 1 else s).judgeSubs p

/-- LANE_DOWN: the lane loses codeword synchronisation. -/
def execLaneDown (p : Fin 4) (l : Fin 9) (s : State) : Result := .next (s.laneDown p.val l.val)

/-- TRAIN_FAIL (R295): a lane of an enabled port has not locked within TRAINTO. -/
def execTrainFail (p : Fin 4) (l : Fin 9) (s : State) : Result :=
  let r := s.rport p.val
  let due := Tab.get 0 r.trainAt l.val + s.get RING_CFG.TRAINTO
  if s.on (RINGP_CTL.EN p.val) && !s.locked p.val l.val && !r.failed.contains l.val && decide (due ≤ s.cyc.ncyc) then
    .next ((s.setRport p.val { r with failed := l.val :: r.failed }).raiseLevel Kind.TRAIN_FAIL (ringAddr p.val l.val))
  else .next s

/-- A lane locks (R295). -/
def State.laneLocks (s : State) (p l : Nat) : State :=
  let r := s.rport p
  let s := (s.set (RINGP_LANE.STATE p l) 1).setRport p { r with failed := r.failed.filter (· != l) }
  (s.endLevel Kind.LANE_DOWN (ringAddr p l)).endLevel Kind.TRAIN_FAIL (ringAddr p l)

/-- Whether field [hi:lo] was the same in four codewords in a row, `h` being the last ones (R291). -/
def fieldSeen (h : List Nat) (hi lo : Nat) : Bool :=
  decide (4 ≤ h.length) && h.all (fun f => bits f hi lo == bits (h.headD 0) hi lo)

/-- The fields a lane acts on after its last codewords: each field that they agree on takes their value,
the others stay; it acts on none before LPOS and LSTATE have been seen (R290, R291). -/
def seenFields (h : List Nat) (old : Option Nat) : Option Nat :=
  let fs := [(13, 10), (9, 8), (7, 7), (6, 6), (5, 5), (3, 1)]
  if old.isSome || (fieldSeen h 13 10 && fieldSeen h 9 8) then
    some (fs.foldl (fun n r =>
      n + bits (if fieldSeen h r.1 r.2 then h.headD 0 else old.getD 0) r.1 r.2 * 2 ^ r.2) 0)
  else old

/-- The lane word of an intact codeword (R291, R295): continuity, lock, and the fields acted on after
four codewords of a locked lane. -/
def State.laneWord (s : State) (p l : Nat) (lw : BitVec 20) : State :=
  let cs := bits lw.toNat 19 14
  let f := bits lw.toNat 13 0 - bits lw.toNat 4 4 * 16 - bits lw.toNat 0 0
  let x := s.rlane p l
  let good := if 32 < cs then 0 else if x.cseq = some ((cs + 32) % 33) then x.good + 1 else 1
  let x := if 32 < cs then { x with cseq := none } else
    { x with cseq := some cs, ats := Tab.put 0 x.ats cs (s.now + 1), bad := x.bad.filter (· != cs) }
  let x := { x with good := min good 4, badRun := 0 }
  let s := if !s.locked p l && 4 ≤ good then s.laneLocks p l else s
  if !s.locked p l then s.setRlane p l x
  else
    let h := (f :: x.hist).take 4
    let s := s.setRlane p l { x with hist := h, acted := seenFields h x.acted }
    if fieldSeen h 6 6 && fieldSeen h 3 1 then
      s.setRport p { s.rport p with dup := if lwSreq f then some (lwSpos f) else none }
    else s

/-- The lane word of a codeword's side bits: that of block `i` carries bit 19 − i (R289). -/
def laneWordOf (side : BitVec 20) : BitVec 20 :=
  BitVec.ofNat 20 ((List.range 20).foldl (fun n i => 2 * n + (side.getLsbD i).toNat) 0)

/-- The lane word that lane `l` of port `p` sends (R290, R297, R299). -/
def State.sentLaneWord (s : State) (p l : Nat) : BitVec 20 :=
  let st := s.get (RINGP_SWAP.STATE p)
  let own := if !s.locked p l then 0 else if s.mode = mCommission ∨ s.mode = mJoin then 1 else 2
  let copy := if l = 8 then (s.rport p).dup else none
  BitVec.ofNat 20 (pack [((s.rlane p l).tx, 6), (copy.getD l, 4), (if copy.isSome then 3 else own, 2),
    ((s.get (RINGP_STAT.SEALST p) == 2).toNat, 1), ((st != 0).toNat, 1), ((decide (2 ≤ st)).toNat, 1),
    (0, 1), ((s.rport p).swapPos, 3), (0, 1)])

/-- The lane sends a codeword beside each that it receives: its lane word leaves, and CSEQ counts (R290). -/
def State.sendLaneWord (s : State) (p l : Nat) : State :=
  let x := s.rlane p l
  (s.emit (.laneWord p l (s.sentLaneWord p l))).setRlane p l { x with tx := (x.tx + 1) % 33 }

/-- A LOCKED lane is judged against the margins (R298). -/
def State.judgeMargin (s : State) (p l : Nat) : State :=
  let weak := decide (s.get (RINGP_LANE.EYE p l) < s.get (RINGP_MARGIN.EYEMIN p))
    || decide (s.get (RINGP_MARGIN.FECMAX p) < (s.rlane p l).fec)
  if s.get (RINGP_LANE.STATE p l) = 1 && weak then s.degrade p l else s

/-- An uncorrectable codeword: it is counted and takes its place in CSEQ; eight in a row lose the lane
(R291, R294, R295). -/
def State.uncorrectable (s : State) (p l : Nat) : State :=
  let s := s.inc (RINGP_LANE.UNCORR p l)
  let x := s.rlane p l
  let c := x.cseq.map (fun c => (c + 1) % 33)
  let x := { x with badRun := x.badRun + 1, good := 0, hist := [], cseq := c
                    bad := match c with | some c => c :: x.bad.filter (· != c) | none => x.bad }
  if x.badRun = 8 then s.laneDown p l else s.setRlane p l x

/-- CODEWORD_RECEIVED (R289 to R291, R295, R298): the eye and the FEC counts, the lane word, the lock,
the margins, and the sub-links that follow. -/
def execCodewordReceived (p : Fin 4) (l : Fin 9) (w : Codeword) (eye : BitVec 8) (s : State) : Result :=
  let pp := p.val
  let ll := l.val
  if !s.on (RINGP_CTL.EN pp) || s.mode == mRecovery then .next s else
  let s := s.set (RINGP_LANE.EYE pp ll) eye.toNat
  let s := match w with
    | .uncorrectable => s.uncorrectable pp ll
    | .good n side =>
      let s := s.addSat (RINGP_LANE.FECCORR pp ll) n
      let x := s.rlane pp ll
      (s.setRlane pp ll { x with fec := x.fec + n }).laneWord pp ll (laneWordOf side)
  .next (((s.judgeMargin pp ll).judgeSubs pp).sendLaneWord pp ll)

/-- LANE_SWAP_GO. -/
def execLaneSwapGo (p : Fin 4) (q : Fin 8) (s : State) : Result :=
  .next ((s.set (RINGP_SWAP.POS p.val) q.val).laneGo p.val q.val)

/-- COPY_LOCKED (R299 step 3): the spare carries the position's blocks. -/
def execCopyLocked (p : Fin 4) (s : State) : Result :=
  let copy := s.locked p.val 8 && (s.rlane p.val 8).acted.any (fun f =>
    lwPos f == (s.rport p.val).swapPos && lwState f == 3)
  .next (if s.get (RINGP_SWAP.STATE p.val) = 1 && copy then s.set (RINGP_SWAP.STATE p.val) 2 else s)

/-- LANE_SWAP_FAIL (R300): step 3 was not reached within TRAINTO. -/
def execLaneSwapFail (p : Fin 4) (s : State) : Result :=
  let due := (s.rport p.val).swapAt + s.get RING_CFG.TRAINTO
  .next (if s.get (RINGP_SWAP.STATE p.val) = 1 && decide (due ≤ s.cyc.ncyc)
    then (s.laneFail p.val).set (RINGP_SWAP.STATE p.val) 0 else s)

/-- LANE_SWAP_BACK. -/
def execLaneSwapBack (p : Fin 4) (s : State) : Result := .next (s.laneBack p.val)

/-- LANE_SWAP_CANCEL. -/
def execLaneSwapCancel (p : Fin 4) (s : State) : Result := .next (s.laneCancel p.val)

/-! ### Enabling and sealing -/

/-- A write of `RINGp_CTL`. -/
def State.writeRingCtl (s : State) (p : Nat) (v : Word) : State :=
  let en := s.on (RINGP_CTL.EN p)
  let sl := s.on (RINGP_CTL.SEAL p)
  let s := ((s.set (RINGP_CTL.SEAL p) (wbits v 3 3)).set (RINGP_CTL.AUTOSWAP p) (wbits v 2 2)).set
    (RINGP_CTL.WRAPEN p) (wbits v 1 1)
  let s := s.set (RINGP_CTL.EN p) (wbits v 0 0)
  let s := if !sl && s.on (RINGP_CTL.SEAL p) then s.drawNonce p
    else if sl && !s.on (RINGP_CTL.SEAL p) then
      ((s.set (RINGP_STAT.SEALST p) 0).setRport p { s.rport p with
        nonce := none, peer := none, keyDue := false, readyAt := none, sealSaid := false }).endLevel
        Kind.SEAL_FAIL p
    else s
  let s := if !en && s.on (RINGP_CTL.EN p) then
      s.setRport p { s.rport p with
        trainAt := Tab.putList 0 [] 0 (List.replicate 9 s.cyc.ncyc), failed := [] }
    else if en && !s.on (RINGP_CTL.EN p) then
      s.each 9 (fun l s => (s.laneDown p l).endLevel Kind.TRAIN_FAIL (ringAddr p l))
    else s
  s.judgeSubs p

/-- Every lane changes its rate with the mode, and so loses its lock (R288). -/
def State.retrainLanes (s : State) : State :=
  s.each 4 (fun p s =>
    let s := s.each 9 (fun l s => s.laneDown p l)
    if s.on (RINGP_CTL.EN p) then
      s.setRport p { s.rport p with
        trainAt := Tab.putList 0 [] 0 (List.replicate 9 s.cyc.ncyc), failed := [] }
    else s)

/-- The payload of a key-exchange cell (R306). -/
def State.keyWords (s : State) (p : Nat) (n : BitVec 96) : List Word :=
  [word (pack [(3, 8), (0, 6), (p, 2), (0, 16), (s.node, 16)]),
   word (n.toNat / 2 ^ 48), word (n.toNat % 2 ^ 48)]

/-- KEY_EXCHANGE_RECEIVED (R306): the partner's node and nonce; with both nonces known epoch 0 is due
(R307). -/
def execKeyExchangeReceived (p : Fin 4) (ws : List Word) (s : State) : Result :=
  if ws.length ≠ 20 then .fault (.illFormed "KEY_EXCHANGE_RECEIVED") else
  if !s.on (RINGP_CTL.SEAL p.val) || wordAt ws 0 / 2 ^ 40 != 3 then .next s else
  let r := s.rport p.val
  let peer := some (wordAt ws 0 % 2 ^ 16, wordAt ws 1 * 2 ^ 48 + wordAt ws 2)
  if r.peer = peer then .next s
  else .next (s.setRport p.val { r with peer := peer, keyDue := r.nonce.isSome })

/-- SEAL_FAIL (R308): the port was not sealed within TRAINTO of READY. -/
def execSealFail (p : Fin 4) (s : State) : Result :=
  let r := s.rport p.val
  match r.readyAt with
  | none => .next s
  | some c =>
    .next (if s.on (RINGP_CTL.SEAL p.val) && s.get (RINGP_STAT.SEALST p.val) == 1 && !r.sealSaid
        && decide (c + s.get RING_CFG.TRAINTO ≤ s.cyc.ncyc)
      then (s.setRport p.val { r with sealSaid := true }).raiseLevel Kind.SEAL_FAIL p.val else s)

/-! ### Basic cycles and matrix boundaries -/

/-- The hub decides at the end of a basic cycle whether a port's partner is lost, and wraps
(R301, R302); `expected` tells whether the cycle expected TT cells on the port (R348). -/
def State.ringCycle (s : State) (p : Nat) (expected : Bool) : State :=
  let r := s.rport p
  let miss := if expected && !r.ttSeen then min 2 (r.ttMiss + 1) else 0
  let good := s.get (RINGP_STAT.SUBUP p) = 15 && (!expected || r.ttSeen)
  let s := s.setRport p { r with ttSeen := false, ttMiss := miss, clean := r.clean && good }
  let lost := s.on (RINGP_CTL.EN p) && (!s.portUp p || miss == 2)
  let s := s.setB (RINGP_STAT.LOST p) lost
  if lost && s.on (RINGP_CTL.WRAPEN p) && !s.on (RINGP_STAT.WRAP p) then
    let s := (s.setB (RINGP_STAT.WRAP p) true).raiseLevel Kind.RING_WRAP p
    ((s.setRport p { s.rport p with clean := false }).rehome).endHold p
  else s

/-- A port that is to be sealed sends its key-exchange cell once per basic cycle until sealed
(R306). -/
def State.keyCycle (s : State) (p : Nat) : State :=
  match (s.rport p).nonce with
  | some n => if s.get (RINGP_STAT.SEALST p) = 1 then s.sendLink p (s.keyWords p n) else s
  | none => s

/-- What a ring port does at a matrix boundary: its swap or return of a lane, the unwrap, the key
epoch, a new count of corrected symbols (R298, R299, R305, R307). -/
def State.ringBoundary (s : State) (p : Nat) : State :=
  let s := if s.get (RINGP_SWAP.STATE p) = 2 then s.mapSpare p
    else if (s.rport p).backDue then
      (if s.ownLaneGood p then s.mapOwn p
       else (s.setRport p { s.rport p with backDue := false }).laneFail p)
    else s
  let s := if s.on (RINGP_STAT.WRAP p) && (s.rport p).clean then
      (((s.setB (RINGP_STAT.WRAP p) false).setB (RINGP_STAT.LOST p) false).endLevel Kind.RING_WRAP p).raise
        Kind.RING_UNWRAP p
    else s
  let r := s.rport p
  let s := if r.keyDue then
      (((s.setRport p { r with keyDue := false, epoch := 0, matrices := 0, sealSaid := false }).set
        (RINGP_STAT.SEALST p) 2).endLevel Kind.SEAL_FAIL p).raise Kind.SEAL_UP p
    else if s.get (RINGP_STAT.SEALST p) = 2 then
      let n := r.matrices + 1
      if s.get RING_CFG.SEALEPOCH ≤ n then s.setRport p { r with epoch := r.epoch + 1, matrices := 0 }
      else s.setRport p { r with matrices := n }
    else s
  let r := s.rport p
  s.setRport p { r with
    clean := s.get (RINGP_STAT.SUBUP p) == 15
    lanes := (List.range 9).foldl (fun t l =>
      Tab.put RLane.reset t l { Tab.get RLane.reset t l with fec := 0 }) r.lanes }

end Sys2Proof.Machine
end

