-- ==== Sys2Proof/Machine/Modes.lean ====
section
/-! DEFINITION. Chapter 16, the modes: transitions, what each mode sets on entry, the hub reset
(R474 to R479). -/

namespace Sys2Proof.Machine

/-- States of a twinned hub, `RED_STAT.STATE` (R406). -/
def rdSOLO : Nat := 0
def rdLISTEN : Nat := 1
def rdACTIVE : Nat := 2
def rdSTANDBY : Nat := 3
def rdSERVING : Nat := 4
def rdRETURNING : Nat := 5

/-- The hub takes mode `m`: all three copies of `MGT_MODE`, PREVMODE, MODE_CHANGE (R475). -/
def State.takeMode (s : State) (m old : Nat) : State :=
  ((s.kpWrite 0 (word m)).set MGT_STAT.PREVMODE old).raise Kind.MODE_CHANGE (old * 16 + m)

/-- Every bay at Hold or Join entry (R198, R479). -/
def State.baysHold (s : State) : State := s.each 32 (fun b s => s.bayHold b)

/-- Every chain port at Hold or Join entry: LATCHes do nothing (R252, R479). -/
def State.chainsHold (s : State) : State := s.each 64 (fun p s => s.dropLatches p)

/-- What the blocks do at the entry of mode `m` from mode `old` (R479). -/
def State.modeSets (s : State) (m old : Nat) : State :=
  if m = mRun ∨ m = mShadow then s.set SEQ_CTL.RUN 1
  else if m = mCommission then
    s.clearRun.retrainLanes
  else if m = mJoin then
    let s := s.clearRun.baysHold.chainsHold
    let s := if old = mCommission then s.retrainLanes else s
    s.each 4 (fun p s => s.drawNonce p)
  else if m = mHold then
    let s := s.clearRun.baysHold.chainsHold
    (s.each 16 (fun c s => s.mbHold c)).feedsHold
  else s

/-- The hub enters mode `m` and sets its blocks as R479 gives; the bays' drivers follow (R196, R198), and a
controller that may send again does (R265), and Ethernet links change their rates (R395). -/
def State.enterMode (s : State) (m : Nat) : State :=
  let s := s.each 32 (fun b s => s.settleBay b)
  let old := s.mode
  let pads := (List.range 32).map (fun b => s.padsOf b)
  let s := (s.takeMode m old).modeSets m old
  let s := ((List.range 32).zip pads).foldl (fun s x => s.settlePads x.1 x.2) s
  (s.each 16 (fun c s => s.mbOffer c)).each 12 (fun m s => s.macJudge m)

/-- Whether a request for Hold or a loss of synchronisation applies: Join, Run and Shadow. -/
def State.operating (s : State) : Bool := s.mode == mJoin || s.mode == mRun || s.mode == mShadow

/-- A request for Hold (R467, R475): taken in Join, Run and Shadow. -/
def State.holdRequested (s : State) (keystone : Bool) : State :=
  if s.operating then
    let s := { s with mgt := { s.mgt with keystoneHold := keystone } }
    s.enterMode mHold
  else s

/-- Whether any ring port is to be sealed while the pool has never been ready (R475). -/
def State.sealWaits (s : State) : Bool :=
  !s.on RNG_STATUS.READY && (List.range 4).any (fun p => s.on (RINGP_CTL.SEAL p))

/-- The address of a twin fault kind (R430). -/
def State.twinAddr (s : State) : Nat := s.get RED_CFG.TWIN * 2 ^ 16

/-- The hub takes a twin state (R406): what it counted and received in the state before is gone, and
chain ports that were taking over stop doing so. -/
def State.redState (s : State) (st : Nat) : State :=
  let s := (s.set RED_STAT.STATE st).endLevel Kind.RED_NO_TWIN s.twinAddr
  let s := { s with red := { s.red with
    listen := 0, stepBack := false, swap := false, matrices := 0, revSeen := none, roundOk := false
    rxWhole := false, walk := none, txCells := [], rx := none, skip := none } }
  { s with chp := Tab.mapVals Chp.reset (fun r => { r with takeover := false }) s.chp }

/-- The hub leaves Join once JOINOK is set: for Run, or with a twin for Shadow and LISTEN (R407, R475). -/
def State.tryLeaveJoin (s : State) : State :=
  if s.mode = mJoin ∧ s.on CYC_STAT.JOINOK ∧ ¬ s.sealWaits then
    if s.get RED_CFG.ROLE = 0 then (s.enterMode mRun).redState rdSOLO
    else (s.enterMode mShadow).redState rdLISTEN
  else s

/-- A hub reset of cause `cause` (R475, R480): what R13 keeps is what has a Reset value of its own
elsewhere, namely the program stores (R190), the nonvolatile ports, the memories outside the hub,
`SUP_LATCH.RSTBY` and the straps as last sampled. -/
def State.hubReset (s : State) (cause : Nat) (toRecovery : Bool) : State :=
  let r : State := { State.reset with
    pending := s.pending, now := s.now, free := s.free, out := s.out, heads := s.heads
    seqStore := s.seqStore, seqUe := s.seqUe, seqWeak := s.seqWeak, seqPast := s.seqPast
    tenStore := s.tenStore, tenUe := s.tenUe, tenWeak := s.tenWeak, tenPast := s.tenPast
    tbl := { Tbl.reset with
      ddr := s.tbl.ddr, host := s.tbl.host, ddrSize := s.tbl.ddrSize, badSlots := s.tbl.badSlots
      weakSlots := s.tbl.weakSlots, retrain0 := s.now, retrain1 := s.now }
    sup := { Sup.reset with periodAt := s.now, ckptAt := s.now }
    mgt := { Mgt.reset with
      toRecovery := toRecovery, resetAt := s.now, bcr := s.mgt.bcr, slots := s.mgt.slots
      images := s.mgt.images } }
  let strap := s.get MGT_STRAP.STRAP
  let r := ((r.set MGT_STAT.RSTCAUSE cause).set MGT_STRAP.STRAP strap).set SUP_LATCH.RSTBY (s.get SUP_LATCH.RSTBY)
  (r.set SPR_CTL.REFSEL (strap % 2)).set SPR_STAT.REFUSE (strap % 2)

end Sys2Proof.Machine
end

