-- ==== Sys2Proof/Machine/Phase.lean ====
section
/-! DEFINITION. Chapter 03: the roles and inputs of the phase domains, source estimation, received and
own samples, the states of a domain and its slips. -/

namespace Sys2Proof.Machine

/-! ### Roles, sources and configuration (R79 to R81, R107, R528) -/

/-- The roles of R79. -/
def State.phRole (s : State) (d : Nat) : Nat := s.get (PH_CTL.ROLE d)

/-- A SOURCE or LOCAL hub reads its encoder. -/
def State.phReads (s : State) (d : Nat) : Bool := decide (2 ≤ s.phRole d)

/-- The encoder kinds of R84. -/
def knNONE : Nat := 0
def knQUAD : Nat := 1
def knSSI : Nat := 2
def knMAINS : Nat := 3
def knLINE : Nat := 4
def State.phKind (s : State) (d : Nat) : Nat := s.get (PH_CFG.KIND d)

/-- The domain loses its phase and goes to `st` (R110, R151): firings withdrawn, waiting lanes told,
the last phase kept; a slip is no longer the domain's state. -/
def State.losePhase (s : State) (d st : Nat) : State :=
  let s := if s.hasPhase d then
      ((s.setDom d { s.dom d with held := s.phaseNow d }).withdrawDomain d).endPhaseWaits d 3
    else s
  ((s.set (PH_STAT.STATE d) st).endLevel Kind.SLIP d).level Kind.PH_STALE d (st == phLOST)

/-- NODE is the current source again, from this basic cycle on (R107). -/
def State.nodeAgain (s : State) (d : Nat) : State :=
  (s.set (PH_STAT.ONALT d) 0).setDom d { s.dom d with srcCycle := s.cyc.ncyc }

/-- A write that changes ROLE (R81). -/
def State.setRole (s : State) (d role : Nat) : State :=
  if role = s.phRole d then s
  else
    let s := s.losePhase d (if role = 0 then phIDLE else phACQUIRE)
    let s := (s.set (PH_CTL.ROLE d) role).endLevel Kind.PH_DEGRADED d
    let p := s.dom d
    (s.setDom d { Ph.reset with
      a := p.a, b := p.b, aFrom := p.aFrom, bFrom := p.bFrom, zFrom := p.zFrom, counter := p.counter
      homeseq := p.homeseq, seqno := p.seqno, ssiOff := p.ssiOff, ssiTm := p.ssiTm, ssiRaw := p.ssiRaw
      edges := p.edges }).nodeAgain d

/-- A SLIPPED domain resumes (R116, R150). -/
def State.resumeDomain (s : State) (d : Nat) : State :=
  ((s.set (PH_STAT.STATE d) phTRACK).endLevel Kind.SLIP d).seqResume d

/-- ACK of a slip (R116): the domain resumes, unless it has slipped in this very tick. -/
def State.ackSlip (s : State) (d : Nat) : State :=
  if s.phState d = phSLIPPED && (s.dom d).slipAt != some s.now then
    (s.setDom d { s.dom d with ackAt := some s.now }).resumeDomain d
  else s

/-- A write of `PHd_CTL`. -/
def State.writePhCtl (s : State) (d : Nat) (v : Word) : State :=
  let s := (s.set (PH_CTL.AUTORES d) (wbits v 6 6)).setRole d (wbits v 1 0)
  if v.getLsbD 7 then s.ackSlip d else s

/-- A write of `PHd_SRC` (R107). -/
def State.writePhSrc (s : State) (d : Nat) (v : Word) : State :=
  ((s.set (PH_SRC.ALT d) (wbits v 31 16)).set (PH_SRC.NODE d) (wbits v 15 0)).nodeAgain d

/-- Whether a write at offset `off` of domain `d` carries no reserved value (R528). -/
def phWriteOk (off : Nat) (v : Word) : Bool :=
  match off with
  | 0x01 => decide (wbits v 3 0 ≤ 4) && wbits v 21 20 != 3
  | 0x05 => v != 0 && !v.msb
  | 0x08 => wbits v 12 8 != 0
  | 0x09 => decide (79 ≤ wbits v 27 16) && decide (8 ≤ wbits v 8 4) && decide (wbits v 8 4 ≤ 24)
      && decide (wbits v 13 9 ≤ 16)
  | _ => true

/-- A refused register write (R528). -/
def State.phConfig (s : State) (d off : Nat) : State := s.raise Kind.PH_CONFIG (off * 256 + d)

/-- ROLE_WRITE (R79, R81). -/
def execRoleWrite (d : Fin 4) (v : Word) (s : State) : Result := .next (s.writePhCtl d.val v)

/-- PH_SRC_WRITE (R107). -/
def execPhSrcWrite (d : Fin 4) (v : Word) (s : State) : Result := .next (s.writePhSrc d.val v)

/-- SLIP_ACK (R116): a write of `PHd_CTL` with ACK = 1 and the other fields as they stand. -/
def execSlipAck (d : Fin 4) (s : State) : Result :=
  .next (s.writePhCtl d.val (word (128 + 64 * s.get (PH_CTL.AUTORES d.val) + s.phRole d.val)))

/-! ### Encoder inputs (R83 to R93) -/

/-- The timestamp of an edge that is accepted in this tick: FILT + 1 equal samples end with it (R83). -/
def State.edgeTime (s : State) (d : Nat) : Nat :=
  (s.ticks + 2 ^ 48 - s.get (PH_CFG.FILT d) - s.get (PH_LAT.TICKS d)) % 2 ^ 48

/-- The counter rounded to the nearest step (R85). -/
def counterPhase (c : Nat) : Nat := (c + 2 ^ 15) / 2 ^ 16 % 2 ^ 48

/-- Set the counter of a domain. -/
def State.setCounter (s : State) (d c t : Nat) : State :=
  s.setDom d { s.dom d with counter := c % 2 ^ 64, edgeAt := some t }

/-- What `PHd_RAW` shows (R119): the counter in steps, the last SSI read or the number of mains edges. -/
def State.phRaw (s : State) (d : Nat) : Nat :=
  match s.phKind d with
  | 1 | 4 => counterPhase (s.dom d).counter
  | 2 => (s.dom d).ssiRaw
  | 3 => (s.dom d).edges
  | _ => 0

/-- From when on an input whose level is accepted in this tick may show another accepted level: its FILT + 1
samples begin after this one (R83). -/
def State.nextLevel (s : State) (d : Nat) : Nat := s.now + s.get (PH_CFG.FILT d) + 1

/-- From when on an input whose rising edge is accepted in this tick may show another one: a low level has
its FILT + 1 samples between (R83). -/
def State.nextRise (s : State) (d : Nat) : Nat := s.now + 2 * (s.get (PH_CFG.FILT d) + 1)

/-- Count an edge (R85, R86): REVDIR inverts its direction. -/
def State.countEdge (s : State) (d : Nat) (fwd : Bool) : State :=
  let inc := s.get (PH_SCALE.INC d)
  let c := (s.dom d).counter
  s.setCounter d (if fwd != s.on (PH_CFG.REVDIR d) then c + inc else c + 2 ^ 64 - inc) (s.edgeTime d)

/-- An encoder error: counted, reported, and part of this cycle's quality (R86, R91, R99). -/
def State.encError (s : State) (d : Nat) : State :=
  ((s.inc (PH_ERRCNT.ENC d)).raise Kind.PH_ENC_ERR d).setDom d { s.dom d with encErr := true }

/-- ENCODER_EDGE (R83, R86, R87): in this tick the inputs A and B have shown these levels for FILT + 1 samples.
A level for which there has been no time since the last accepted one of its input is not accepted. -/
def execEncoderEdge (d : Fin 4) (a b : Bool) (s : State) : Result :=
  let p := s.dom d.val
  let a := if s.now < p.aFrom then p.a else a
  let b := if s.now < p.bFrom then p.b else b
  let s := s.setDom d.val { p with
    a := a, b := b
    aFrom := if p.a = a then p.aFrom else s.nextLevel d.val
    bFrom := if p.b = b then p.bFrom else s.nextLevel d.val }
  if !s.phReads d.val then .next s
  else if s.phKind d.val = knQUAD then
    if p.a != a && p.b != b then .next (s.encError d.val)
    else if p.a != a then .next (s.countEdge d.val (a != b))
    else if p.b != b then .next (s.countEdge d.val (a == b))
    else .next s
  else if s.phKind d.val = knLINE && !p.a && a then
    .next (s.countEdge d.val (!s.on (PH_CFG.DIRB d.val) || b))
  else .next s

/-- A home: HOMESEQ increments and the hub reports it (R88, R89). -/
def State.homed (s : State) (d : Nat) : State :=
  let h := ((s.dom d).homeseq + 1) % 256
  (s.setDom d { s.dom d with homeseq := h, homed := true }).raise Kind.PH_HOMED (h * 256 + d)

/-- The phase word nearest `p` whose angle is 0. -/
def nearestMeridian (p : Nat) : Nat := (p + 2 ^ 23) / 2 ^ 24 * 2 ^ 24 % 2 ^ 48

/-- INDEX_EDGE (R83, R88): a rising edge of Z is accepted in this tick.  A SETPH write of the same tick comes
after it and has set the counter already (R89). -/
def execIndexEdge (d : Fin 4) (s : State) : Result :=
  let D := d.val
  let z := s.get (PH_CFG.ZMODE D)
  let p := s.dom D
  if s.now < p.zFrom then .next s
  else
    let wrote := p.setAt.filter (fun x => x.1 == s.now)
    let ph := counterPhase ((wrote.map (fun x => x.2)).getD p.counter)
    let m := nearestMeridian ph
    let s := s.setDom D { p with zFrom := s.nextRise D }
    if !s.phReads D || (s.phKind D != knQUAD && s.phKind D != knLINE) || z = 0 || (z = 1 && p.zSeen) then
      .next s
    else
      let near := decide ((phDiff ph m).natAbs ≤ s.get (PH_ZTOL.STEPS D))
      let s := s.setDom D { s.dom D with zSeen := true }
      let s := if wrote.isSome then s else s.setCounter D (m * 2 ^ 16) (s.edgeTime D)
      .next (if p.zSeen && near then s else s.homed D)

/-! ### Source estimation (R97 to R99) -/

/-- The filter's model (R98). -/
def Ph.model (p : Ph) : Model := .mk 0 0 0 0 0 0 p.tu p.p p.r p.acc 0

/-- The filter's prediction at ring-time tick `t`. -/
def Ph.predict (p : Ph) (t : Nat) : Nat := p.model.at t

/-- Whether a value lies in the 48-bit signed range. -/
def fits48 (x : Int) : Bool := decide (-(2 ^ 47) ≤ x) && decide (x < 2 ^ 47)

/-- A measurement `m` at ring-time tick `tm` updates the filter (R98). -/
def State.measure (s : State) (d m tm : Nat) : State :=
  let f := s.dom d
  if f.nmeas = 0 then
    s.setDom d { f with nmeas := 1, p := m, r := 0, acc := 0, tu := tm, innov := 0, range := false, measAt := s.now }
  else
    let c := max 1 (dt tm f.tu)
    let pp := f.predict tm
    let rp := f.r + rnd (f.acc * c) (2 ^ 8)
    let e := phDiff m pp
    let p := (((pp : Int) + rnd e (2 ^ s.get (PH_GAIN.KA d))).emod (2 ^ 48)).toNat
    let r := rp + rnd (e * 2 ^ (40 - s.get (PH_GAIN.KB d))) c
    let a := f.acc + rnd (e * 2 ^ (49 - s.get (PH_GAIN.KG d))) (c * c)
    if fits48 r && fits48 a then
      s.setDom d { f with nmeas := f.nmeas + 1, p := p, r := r, acc := a, tu := tm, innov := e, range := false, measAt := s.now }
    else
      (s.setDom d { f with nmeas := 0, range := true, innov := e, measAt := s.now }).raise Kind.PH_RANGE d

/-- ERR of an innovation: ceil(log2(|e| + 1)), at most 31 (R99). -/
def errOf (e : Int) : Nat := min 31 (if e = 0 then 0 else Nat.log2 e.natAbs + 1)

/-- The quality of the sample published now (R99, R102). -/
def State.phQuality (s : State) (d : Nat) : Nat :=
  let f := s.dom d
  let kind := s.phKind d
  let err := errOf f.innov
  let homed := kind == knSSI || kind == knMAINS || f.homed
  let level := if kind = knNONE || f.nmeas < 3 || f.range || decide (f.measAt + s.get (PH_MAXAGE.TICKS d) ≤ s.now) then 0
    else if decide (s.get (PH_CFG.QLIM d) < err) || f.encErr || (s.get (PH_CFG.ZMODE d) != 0 && !homed) then 1
    else 2
  64 * level + 32 * homed.toNat + err

/-- The clock periods of an SSI read (R90). -/
def State.ssiPeriods (s : State) (d : Nat) : Nat :=
  s.get (PH_SSI.MT d) + s.get (PH_SSI.BITS d) + s.get (PH_SSI.PAR d) + 1

/-- The level of PHd_CK (R84, R90): low unless the domain reads an SSI encoder; then high, but for the low
first half of each clock period of a read. -/
def State.phCk (s : State) (d : Nat) : Bool :=
  s.phReads d && s.phKind d == knSSI &&
    (match (s.dom d).ssiRead with
      | some (_, began) =>
        let k := (s.now - began) / s.get (PH_SSI.HALF d)
        decide (2 * s.ssiPeriods d ≤ k) || k % 2 == 1
      | none => true)

/-- Whether an SSI read is due in the running basic cycle: the (EVERY + 1)-th after the last one (R91). -/
def State.ssiIsDue (s : State) (d : Nat) : Bool :=
  match (s.dom d).ssiDue with
  | none => true
  | some n => decide (n + s.get (PH_SSI.EVERY d) + 1 ≤ s.cyc.ncyc)

/-- SSI_READ_START (R90, R91): where a read is due, its first falling clock edge lies at the start of the
running basic cycle; a read whose TM still runs then is skipped. -/
def execSsiReadStart (d : Fin 4) (s : State) : Result :=
  let D := d.val
  let f := s.dom D
  if !s.phReads D || s.phKind D != knSSI || !s.ssiIsDue D then .next s
  else
    let began := s.cyc.startedAt.getD s.now
    let f := { f with ssiDue := some s.cyc.ncyc }
    let s := s.setDom D f
    if f.ssiRead.isSome || decide (began < f.ssiTm) then .next (s.encError D)
    else .next (s.setDom D { f with
      ssiRead := some ((s.ticks + 2 ^ 49 - (s.now - began) - s.get (PH_LAT.TICKS D)) % 2 ^ 48, began) })

/-- Gray code to binary. -/
def grayDecode (n v : Nat) : Nat :=
  (List.range n).foldl (fun acc i => acc ^^^ (v >>> i)) 0 % 2 ^ n

/-- SSI_READ_END (R90 to R92): the read's bits, right-aligned. -/
def execSsiReadEnd (d : Fin 4) (raw : Word) (s : State) : Result :=
  let D := d.val
  match (s.dom D).ssiRead with
  | none => .next s
  | some (tm, began) =>
    let mt := s.get (PH_SSI.MT D)
    let st := s.get (PH_SSI.BITS D)
    let par := s.get (PH_SSI.PAR D)
    let s := s.waitUntil (began + s.ssiPeriods D * 2 * s.get (PH_SSI.HALF D))
    let f := { s.dom D with ssiRead := none, ssiTm := s.now + s.get (PH_SSI.TM D) }
    let s := s.setDom D f
    let v := raw.toNat % 2 ^ (mt + st + par)
    if par = 1 && (List.range 48).foldl (fun x i => x != v.testBit i) false then .next (s.encError D)
    else
      let g := v / 2 ^ par
      let b := if s.on (PH_SSI.GRAY D) then grayDecode (mt + st) g else g
      let s := s.setDom D { f with ssiRaw := b }
      let a := (b % 2 ^ st * 2 ^ (24 - st) + f.ssiOff) % 2 ^ 24
      let pp := f.predict tm
      let e := halfRange 24 a pp
      let m := (((pp : Int) + e).emod (2 ^ 48)).toNat
      let s := if decide (s.get (PH_JUMP.STEPS D) < e.natAbs) && f.nmeas != 0 then s.homed D else s
      .next (s.measure D m tm)

/-- MAINS_EDGE (R93): an accepted rising edge of A; one within half a predicted period of the last
accepted one is ignored. -/
def execMainsEdge (d : Fin 4) (s : State) : Result :=
  let D := d.val
  let f := s.dom D
  if !s.phReads D || s.phKind D != knMAINS || decide (s.now < f.aFrom) then .next s
  else
    let t := s.edgeTime D
    let f := { f with a := true, aFrom := s.nextRise D }
    let early := match f.mainsAt with
      | some t0 => decide (2 ≤ f.nmeas) && decide (0 < f.r) && decide (2 * dt t t0 * f.r < 2 ^ 64)
      | none => false
    if early then .next (s.setDom D f)
    else
      let m := if f.mainsAt.isSome || f.nmeas != 0 then (nearestMeridian (counterPhase f.counter) + 2 ^ 24) % 2 ^ 48 else 0
      let s := s.setDom D { f with mainsAt := some t, counter := m * 2 ^ 16, edges := (f.edges + 1) % 2 ^ 48 }
      .next (s.measure D m t)

/-- SETPH_WRITE (R89): the measured phase equals the written value at this tick; a home. -/
def State.writeSetph (s : State) (d : Nat) (v : Word) : State :=
  if !s.phReads d then s
  else
    let f := s.dom d
    let restart := fun (f : Ph) => { f with nmeas := max 1 f.nmeas, p := v.toNat, tu := s.ticks }
    let s := match s.phKind d with
      | 1 | 4 => s.setCounter d (v.toNat * 2 ^ 16) s.ticks
      | 2 => s.setDom d (restart { f with
          ssiOff := (f.ssiOff + v.toNat % 2 ^ 24 + 2 ^ 24 - f.predict s.ticks % 2 ^ 24) % 2 ^ 24 })
      | _ => s.setDom d (restart { f with counter := v.toNat * 2 ^ 16 })
    let s := s.setDom d { s.dom d with setAt := some (s.now, f.counter) }
    s.homed d

/-- SETPH_WRITE. -/
def execSetphWrite (d : Fin 4) (v : Word) (s : State) : Result := .next (s.writeSetph d.val v)

/-! ### States and slips (R110 to R117) -/

/-- The words of a PHASE channel of domain `d` (R118, R526). -/
def State.writePhaseChannel (s : State) (d : Nat) (m : Model) (corr : Int) : State :=
  s.writeLive 27 (fun (e : Entry) => e.type == tPHASE && e.port == d) (m.words d ++ [BitVec.ofInt 48 corr])

/-- D and X start with a model (R112). -/
def State.startDirection (s : State) (d : Nat) (m : Model) : State :=
  (s.setB (PH_STAT.DIR d) (decide (m.rate < 0))).setDom d { s.dom d with x := m.at s.ticks, xAt := s.ticks }

/-- A slip (R115, R149, R150).  A domain that is SLIPPED, or whose acknowledgement falls in this tick and so
has no effect (R116), keeps SLIP_FROM of the first slip. -/
def State.slip (s : State) (d from_ to_ : Nat) (m : Model) : State :=
  let again := s.phState d == phSLIPPED || (s.dom d).ackAt == some s.now
  let s := s.raiseLevel Kind.SLIP d
  let s := s.set (PH_SLIP_TO.PHASE d) to_
  let s := if again then s else s.set (PH_SLIP_FROM.PHASE d) from_
  let s := (s.set (PH_STAT.STATE d) phSLIPPED).endLevel Kind.PH_STALE d
  let s := s.setDom d { s.dom d with slipAt := some s.now }
  let s := ((s.startDirection d m).endPhaseWaits d 2).seqSlip d (s.get (PH_SLIP_FROM.PHASE d)) to_
  if s.on (PH_CTL.AUTORES d) then s.resumeDomain d else s

/-- The current source of a domain (R107). -/
def State.phSource (s : State) (d : Nat) : Nat :=
  if s.on (PH_STAT.ONALT d) then s.get (PH_SRC.ALT d) else s.get (PH_SRC.NODE d)

/-- Note that a model is the effective one: since when it is held, and whether its source delivers (R107,
R110). -/
def State.noteEffective (s : State) (d : Nat) (m : Model) : State :=
  let f := s.dom d
  s.setDom d { f with
    eff := some m, wrapAt := s.ticks, effAt := ((s.now : Int) + min 0 (dt m.teff s.ticks)).toNat
    srcCycle := if m.node = s.phSource d then s.cyc.ncyc else f.srcCycle }

/-- A model becomes effective in this tick (R114, R118, R136). -/
def State.applyModel (s : State) (d : Nat) (m : Model) : State :=
  let s := s.updateX d
  let st := s.phState d
  let old := if s.hasPhase d then s.phaseNow d else (s.dom d).held
  let hs := (s.dom d).eff.map (fun (e : Model) => e.homeseq)
  let install := fun (s : State) =>
    ((s.noteEffective d m).showModel d m).set
      (PH_STAT.MSEQ d) (s.get (PH_STAT.MSEQ d) + 1)
  if m.level = 0 then
    let s := if st = phTRACK || st = phSLIPPED then s.losePhase d phLOST else s
    ((install s).endLevel Kind.PH_DEGRADED d).writePhaseChannel d m (s.getInt (PH_CORR.CORR d))
  else
    let s := (install s).level Kind.PH_DEGRADED d (m.level == 1)
    let new := m.at s.ticks
    let corr := if st = phACQUIRE then 0 else phDiff new old
    let s := s.setInt (PH_CORR.CORR d) corr
    let s := if st = phACQUIRE then
        ((s.set (PH_STAT.STATE d) phTRACK).startDirection d m).seqTrack d
      else if st = phLOST || hs != some m.homeseq || decide (s.get (PH_JUMP.STEPS d) < corr.natAbs) then
        s.slip d old new m
      else
        let s := if 2 ^ 48 ≤ (old : Int) + corr then s.raise Kind.WRAP d
          else if (old : Int) + corr < 0 then s.raise Kind.WRAP (256 + d) else s
        s.updateX d
    (s.recompute d).writePhaseChannel d m corr

/-- MODEL_EFFECTIVE (R104, R114): the next pending model reaches T_eff. -/
def execModelEffective (d : Fin 4) (s : State) : Result :=
  match (s.dom d.val).pend with
  | [] => .next s
  | m :: rest =>
    let s := s.waitTicks m.teff
    .next ((s.setDom d.val { s.dom d.val with pend := rest }).applyModel d.val m)

/-- PH_STALE (R110): one model has been held for MAXAGE. -/
def execPhStale (d : Fin 4) (s : State) : Result :=
  if !s.hasPhase d.val then .next s
  else .next ((s.waitUntil ((s.dom d.val).effAt + s.get (PH_MAXAGE.TICKS d.val))).losePhase d.val phLOST)

/-- PH_FAILOVER (R107): no sample of the current source became effective for two whole basic cycles. -/
def execPhFailover (d : Fin 4) (s : State) : Result :=
  let D := d.val
  let f := s.dom D
  let alt := s.get (PH_SRC.ALT D)
  if s.phRole D != 1 || s.cyc.ncyc < f.srcCycle + 3 || alt = 0 then .next s
  else
    let on := s.on (PH_STAT.ONALT D)
    let new := if on then s.get (PH_SRC.NODE D) else alt
    let s := (s.setB (PH_STAT.ONALT D) (!on)).setDom D { f with srcCycle := s.cyc.ncyc }
    .next (s.raise Kind.PH_FAILOVER (new * 2 ^ 16 + D))

/-- The turning point of a model ahead of tick `t`, as an offset, where it has one. -/
def Model.turnIn (m : Model) (t : Nat) : Option Nat :=
  if m.accel = 0 then none
  else
    let o : Int := (-(m.rate * 2 ^ 9)).fdiv (2 * m.accel) - dt t m.ts
    if 0 < o then some o.toNat else none

/-- The number of ticks from now until the phase lies HYST behind the extreme of the run (R112). -/
def State.flipIn (s : State) (d : Nat) : Option Nat :=
  match (if s.hasPhase d then (s.dom d).eff else none) with
  | none => none
  | some m =>
    let fwd := s.fwd d
    let h := s.get (PH_HYST.STEPS d)
    let better := fun (x y : Nat) => if fwd then decide (0 < phDiff y x) else decide (phDiff y x < 0)
    let goal := fun (x : Nat) => (if fwd then x + 2 ^ 48 - h else x + h) % 2 ^ 48
    let behind := fun (x ph : Nat) => if fwd then decide ((h : Int) ≤ phDiff x ph) else decide ((h : Int) ≤ phDiff ph x)
    let x := (s.dom d).x
    if behind x (m.at s.ticks) then some 0
    else
      let t := (m.turnIn s.ticks).getD 0
      match cross (!fwd) m (goal x) s.ticks t with
      | some n => some n
      | none =>
        let peak := [t, t + 1].foldl (fun x o =>
          let ph := m.at ((s.ticks + o) % 2 ^ 48)
          if better x ph then ph else x) x
        (cross (!fwd) m (goal peak) ((s.ticks + t) % 2 ^ 48) (2 ^ 46)).map (fun n => t + n)

/-- DIRECTION_CHANGE (R112, R148, R154): the phase leaves the hysteresis band against D; what is due in that
tick is dispatched before, what has been passed since the turning point after it. -/
def execDirectionChange (d : Fin 4) (s : State) : Result :=
  let D := d.val
  let s := s.updateX D
  match s.flipIn D with
  | none => .next s
  | some n =>
    let s := ((s.advance n).updateX D).dispatchDueOf (fun i =>
      (s.entry i).trigkind != 0 && (s.entry i).domain == D) 16384
    let x := (s.dom D).x
    let s := s.withdrawDomain D
    let s := (s.setB (PH_STAT.DIR D) (s.fwd D)).set (SEQ_RUNFROM.PHASE D) x
    let s := s.setDom D { s.dom D with x := s.phaseNow D, xAt := s.ticks }
    .next ((s.rearm D x false).dispatchPassed D 262144)

/-- SIDEREAL_WRAP (R96): the phase passes the wrap through motion, at the first tick after the last one
looked at; at once where that tick has gone by. -/
def execSiderealWrap (d : Fin 4) (reverse : Bool) (s : State) : Result :=
  let D := d.val
  let f := s.dom D
  match (if s.hasPhase D then f.eff else none) with
  | none => .next s
  | some m =>
    match crossing (!reverse) false m (if reverse then 2 ^ 48 - 1 else 0) f.wrapAt (2 ^ 32) with
    | none => .next s
    | some n =>
      let t := (f.wrapAt + n) % 2 ^ 48
      let s := s.waitTicks t
      .next ((s.setDom D { s.dom D with wrapAt := t }).raise Kind.WRAP (D + 256 * reverse.toNat))

/-- RUNFROM_MOVE (R132). -/
def execRunfromMove (d : Fin 4) (s : State) : Result :=
  .next (if s.hasPhase d.val then s.moveRunfrom d.val else s)

/-! ### Samples (R100 to R108) -/

/-- Insert a pending model in the order of T_eff (R104). -/
def insertModel (now : Nat) (m : Model) : List Model → List Model
  | [] => [m]
  | x :: rest => if dt m.teff now < dt x.teff now then m :: x :: rest else x :: insertModel now m rest

/-- An accepted sample (R104, R105): it waits for its T_eff, or is applied late in this tick.  `false`
where 16 are pending already. -/
def State.takeSample (s : State) (d : Nat) (m : Model) : State × Bool :=
  let f := s.dom d
  if 16 ≤ f.pend.length then
    ((s.inc (PH_ERRCNT.REJ d)).raise Kind.PH_SAMPLE_BAD (m.node * 2 ^ 16 + d), false)
  else if dt m.teff s.ticks ≤ 0 then
    (((s.inc (PH_ERRCNT.LATE d)).raise Kind.PH_LATE (m.node * 2 ^ 16 + d)).applyModel d m, true)
  else (s.setDom d { f with pend := insertModel s.ticks m f.pend }, true)

/-- The model that the payload words of a sample spell (R101). -/
def modelOf (ws : List Word) : Model :=
  let w := fun i => ws.getD i 0
  .mk (wbits (w 0) 39 36) (wbits (w 0) 31 24) (wbits (w 0) 23 16) (wbits (w 0) 15 0) (wbits (w 1) 47 24)
    (wbits (w 1) 15 0) (w 2).toNat (w 3).toNat (w 4).toInt (w 5).toInt (wbits (w 6) 47 40)

/-- FORMAT, LEVEL and reserved fields of a received sample are in order (R103). -/
def sampleOk (ws : List Word) : Bool :=
  let w := fun i => ws.getD i 0
  wbits (w 0) 47 40 == 1 && wbits (w 0) 23 22 != 3 && wbits (w 0) 35 34 == 0 && wbits (w 1) 23 16 == 0
    && wbits (w 6) 39 0 == 0 && (ws.drop 7).all (fun x => x == 0)

/-- A received sample that is rejected (R103, R106). -/
def State.rejectSample (s : State) (k : Kind) (d node : Nat) : State :=
  (s.inc (PH_ERRCNT.REJ d)).raise k (node * 2 ^ 16 + d)

/-- A phase sample reaches the hub (R103 to R106). -/
def State.receiveSample (s : State) (ws : List Word) : State :=
  let d := wbits (ws.getD 0 0) 33 32
  let m := modelOf ws
  if s.phRole d != 1 then s
  else if !sampleOk ws then s.rejectSample Kind.PH_SAMPLE_BAD d m.node
  else if m.node = 0 || m.node != s.phSource d then s.rejectSample Kind.PH_FOREIGN d m.node
  else if (s.dom d).lastKey = some (m.node, m.seqno, m.ts) then s
  else
    let m' := if m.gen = s.gen then some m
      else if s.cyc.prevGen = some m.gen then some (m.shift s.cyc.epochOff s.gen) else none
    match m' with
    | none => s.rejectSample Kind.PH_SAMPLE_BAD d m.node
    | some x =>
      let r := s.takeSample d x
      if r.2 then r.1.setDom d { r.1.dom d with lastKey := some (m.node, m.seqno, m.ts) } else r.1

/-- SAMPLE_RECEIVED (R103): the payload of a phase-sample cell. -/
def execSampleReceived (ws : List Word) (s : State) : Result :=
  if ws.length = 20 then .next (s.receiveSample ws) else .fault (.illFormed "SAMPLE_RECEIVED")

/-- What the start of a basic cycle does to domain `d` (R97 to R100, R108): the counter of QUAD and LINE
is measured; a sample is made, applied here, and of a SOURCE waits for its window. -/
def State.phaseCycle (s : State) (d : Nat) : State :=
  if !s.phReads d then s
  else
    let f := s.dom d
    let kind := s.phKind d
    let s := if kind = knQUAD || kind = knLINE then
        if s.get (PH_SCALE.INC d) = 0 then s.raise Kind.PH_RANGE d
        else (s.measure d (counterPhase f.counter) (f.edgeAt.getD s.ticks)).setDom d
          { (s.measure d (counterPhase f.counter) (f.edgeAt.getD s.ticks)).dom d with edgeAt := none }
      else s
    let f := s.dom d
    let m : Model := { f.model with
      kind := kind, seqno := f.seqno, quality := s.phQuality d, node := s.node, apply := s.get (PH_APPLY.TICKS d)
      gen := s.gen, ts := s.ticks, phase := f.predict s.ticks
      rate := f.r + rnd (f.acc * dt s.ticks f.tu) (2 ^ 8), homeseq := f.homeseq }
    let s := s.setDom d { f with
      encErr := false, seqno := (f.seqno + 1) % 256
      sample := if s.phRole d = 2 then some m else none }
    (s.takeSample d m).1

/-- A change of ring time by `off` into generation `g` moves every ring-time value of the domains
(R106). -/
def State.shiftPhases (s : State) (off : Int) (g : Nat) : State :=
  let mv := fun (t : Nat) => shiftTicks t off
  s.each 4 (fun d s =>
    if s.phRole d = 0 then s else
    let f := s.dom d
    let s := s.setDom d { f with
      eff := f.eff.map (fun (m : Model) => m.shift off g), pend := f.pend.map (fun (m : Model) => m.shift off g)
      tu := mv f.tu, edgeAt := f.edgeAt.map mv, mainsAt := f.mainsAt.map mv, xAt := mv f.xAt, wrapAt := mv f.wrapAt
      ssiRead := f.ssiRead.map (fun r => (mv r.1, r.2)) }
    match (s.dom d).eff with
    | some m => s.showModel d m
    | none => s)

end Sys2Proof.Machine
end

