-- ==== Sys2Proof/Machine/Cycle.lean ====
section
/-! DEFINITION. Chapter 11: the cycle-matrix table, time-triggered cells, guardians, synchronisation,
ring time and link delays.  The start of a basic cycle and the matrix boundary stand in `Boundary`. -/

namespace Sys2Proof.Machine

/-! ### Cycle position and ring time -/

/-- SSTATE (R372). -/
def ssLISTEN : Nat := 1
def ssCOLDSTART : Nat := 2
def ssINTEGRATE : Nat := 3
def ssSYNCED : Nat := 4
def State.sstate (s : State) : Nat := s.get CYC_STAT.SSTATE

/-- Set the cycle position; the running cycle and, where it is the first, its boundary count as
taken (R367). -/
def State.setPosition (s : State) (mseq cyc offset : Nat) : State :=
  let s := (s.set CYC_STAT.MSEQ mseq).set CYC_STAT.CYC cyc
  let s := ({ s with cyc := { s.cyc with offset := 0 } }).movePosition offset
  let key := s.cycKey
  { s with cyc := { s.cyc with started := some key, ended := some key, bnd := some s.mseq } }

/-- Ring time changes by `off` ticks into generation `g`: every trigger that a block holds in ring time
keeps its distance from now (R362, R365). -/
def State.retime (s : State) (off : Int) (g : Nat) : State :=
  let s := (s.set CYC_TICKS.TICKS (shiftTicks s.ticks off)).set CYC_GEN.GEN g
  let s := (s.shiftSeq off).shiftPhases off s.gen
  { s with chp := Tab.mapVals Chp.reset (fun r => { r with
      latches := r.latches.map (fun (l : Latch) => { l with instant := shiftTicks l.instant off }) }) s.chp }

/-- Adopt the label GEN:TICKS that a sync cell carries (R362, R366, R367). -/
def State.adopt (s : State) (g ticks : Nat) : State :=
  let off := dt ticks s.ticks
  let s := { s with cyc := { s.cyc with prevGen := some s.gen, epochOff := off } }
  s.retime off g

/-- Re-epoch by `off` (R365). -/
def State.reEpoch (s : State) (off : Int) : State :=
  let s := { s with cyc := { s.cyc with prevGen := some s.gen, epochOff := off } }
  let s := s.retime off (s.gen + 1)
  s.raise Kind.EPOCH s.gen

/-! ### The cycle-matrix table (R339 to R344) -/

/-- Words of PENDING as window 0xFFFD reads them (R339, R342). -/
def State.readPending (s : State) (w : Nat) : Word :=
  let r := w / 16
  let i := w % 16
  if i < 3 then word (Tab.get 0 s.cyc.pend (3 * r + i))
  else if i = 15 ∧ r = 0 then word (s.cyc.am + s.cyc.amPend.toNat * 2 ^ 47)
  else 0

/-- Why a VALID row fails its own checks of R343. -/
def State.rowBad (s : State) (r : Row) : Bool :=
  let k := s.kerf
  r.rsvd || decide (r.src < 16) || r.owner == 0 || r.owner == 0xFFFF || r.dest == 0 || r.cells == 0
  || decide (6 < r.rep) || decide (s.matrixLen < 2 ^ r.rep) || decide (2 ^ r.rep ≤ r.phase)
  || decide (r.start < 16 * s.sslot + k)
  || decide (s.bc < r.start + r.wlen + k) || decide (s.bc < s.span + r.wlen + k)

/-- Whether two rows that share a sub-link and a basic cycle lie less than KERF apart (R343). -/
def State.rowsClash (s : State) (a b : Row) : Bool :=
  let common := a.phase % 2 ^ min a.rep b.rep == b.phase % 2 ^ min a.rep b.rep
  a.sub == b.sub && common &&
    decide (b.start < a.start + a.wlen + s.kerf) && decide (a.start < b.start + b.wlen + s.kerf)

/-- Whether `r` is the row that takes a basic cycle beyond 64 rows (R343). -/
def State.rowOver (s : State) (r : Row) (before : List Row) : Bool :=
  (List.range s.matrixLen).any (fun c =>
    r.selects c && decide (64 ≤ (before.filter (fun b => b.selects c)).length))

/-- The first failing row: rows are checked in ascending order, each against those before it
(R343). -/
def State.firstBad (s : State) (before rest : List Row) : Option Nat :=
  match rest with
  | [] => none
  | r :: rest =>
    if s.rowBad r || before.any (fun b => s.rowsClash b r) || s.rowOver r before then some r.idx
    else s.firstBad (before ++ [r]) rest

/-- `CYC_CFG` as a word. -/
def State.cycCfg (s : State) : Nat :=
  pack [(0, 8), (s.get CYC_CFG.KERF, 8), (0, 1), (s.sslot, 7), (0, 4), (s.get CYC_CFG.MEXP, 3), (s.bc, 17)]

/-- The bytes of words `k` to `k + n − 1` of a bank. -/
def bankBytes (t : Tab Nat) (k n : Nat) : List Byte := (Tab.getList 0 t k n).flatMap (fun w => toBytes 6 w)

/-- The table check word (R344). -/
def State.tableCrc (s : State) : Nat := (crc32 (toBytes 6 s.cycCfg ++ bankBytes s.cyc.active 0 12288)).toNat

/-- Activate PENDING (R342 to R344, R351): where a check fails, ACTIVE stays and the activation is
cancelled. -/
def State.activate (s : State) : State :=
  let s := { s with cyc := { s.cyc with amPend := false } }
  match s.firstBad [] (validRows s.cyc.pend) with
  | some r => s.raise Kind.TABLE_BAD r
  | none =>
    let s := { s with cyc := { s.cyc with
      active := s.cyc.pend, grdNode := s.gslot
      grdSlot := if s.on CYC_CTL.SYNC then some (s.get CYC_CTL.SLOT) else none } }
    (s.set CYC_TCRC.TCRC s.tableCrc).raise Kind.TABLE_SWAP (s.mseq % 2 ^ 16)

/-- A write of the activation word (R342). -/
def State.writeActivation (s : State) (v : Word) : State :=
  let s := { s with cyc := { s.cyc with am := wbits v 31 0, amPend := true } }
  if s.mode = mCommission ∨ s.mode = mJoin then s.activate else s

/-- ACTIVATION_WRITE. -/
def execActivationWrite (v : Word) (s : State) : Result := .next (s.writeActivation v)

/-- Words written to PENDING from word `w` on (R339). -/
def State.writePending (s : State) (w : Nat) (ws : List Word) : State :=
  match ws with
  | [] => s
  | v :: rest =>
    let s := if w % 16 < 3 then
        { s with cyc := { s.cyc with pend := Tab.put 0 s.cyc.pend (3 * (w / 16) + w % 16) v.toNat } }
      else if w = 15 then s.writeActivation v else s
    s.writePending (w + 1) rest

/-- A `CYC_CFG` value that uses a reserved value (R336). -/
def cycCfgReserved (v : Word) : Bool :=
  let bc := wbits v 16 0
  decide (bc < 4000) || decide (128000 < bc) || bc % 8 != 0 || decide (wbits v 39 32 < 16)
    || decide (wbits v 30 24 < 16) || decide (64 < wbits v 30 24) || wbits v 19 17 == 7

/-- A write of `CYC_CFG` (R336): refused outside Commission and with a reserved value; accepted, the
basic cycle ends and the next tick is a matrix boundary. -/
def State.writeCycCfg (s : State) (v : Word) : State :=
  if s.mode ≠ mCommission ∨ cycCfgReserved v then s.raise Kind.CYC_CONFIG 0
  else
    let m := s.mseq
    let s := ((s.set CYC_CFG.KERF (wbits v 39 32)).set CYC_CFG.SSLOT (wbits v 30 24)).set CYC_CFG.MEXP (wbits v 19 17)
    let s := (s.set CYC_CFG.BC (wbits v 16 0)).advance 1
    let s := (s.set CYC_STAT.MSEQ (m + 1)).set CYC_STAT.CYC 0
    let s := { s with cyc := { s.cyc with offset := 0, startedAt := none } }
    s.set CYC_TCRC.TCRC s.tableCrc

/-- CYC_CFG_WRITE. -/
def execCycCfgWrite (v : Word) (s : State) : Result := .next (s.writeCycCfg v)

/-! ### Time-triggered cells (R341, R345 to R349, R351, R352) -/

/-- The guardian of port `p` trips (R352). -/
def State.tripGuard (s : State) (p : Nat) : State :=
  let s := { s with cyc := { s.cyc with grdGood := Tab.put 0 s.cyc.grdGood p 0 } }
  (s.setBit CYC_GUARD.TRIP p true).raiseLevel Kind.GUARD_TRIP p

/-- Whether TT and sync cells may go on sub-link `k` of port `p`: it is UP at both ends, or the partner of a
hub in Run shows READY (R297, R306). -/
def State.ttLink (s : State) (p k : Nat) : Bool :=
  s.cellsLeave && (s.subUp p k || (s.mode == mRun && s.subReady p k)) && s.sealOpen p

/-- Whether a TT cell may leave on sub-link `k` of port `p`: TT cells of a lost or wrapped port are discarded
(R302). -/
def State.pathOpen (s : State) (p k : Nat) : Bool :=
  s.ttLink p k && !s.on (RINGP_STAT.WRAP p) && !s.on (RINGP_STAT.LOST p)

/-- Whether the hub may insert a cell of its own there; the guardian and a stop of insertion leave transit
alone (R351, R352, R361). -/
def State.ttOpen (s : State) (p k : Nat) : Bool :=
  s.pathOpen p k && !s.cyc.stopped && !s.bit CYC_GUARD.TRIP p

/-- A TT cell of this hub leaves on one of its two sub-links. -/
def State.sendTt (s : State) (cp : Nat) (c : Cell) : State :=
  if s.ttOpen (cpPort cp) (cpSub cp) then s.sendRing cp c else s

/-- A TT cell in transit goes on (R285, R345). -/
def State.passTt (s : State) (cp : Nat) (c : Cell) : State :=
  if s.pathOpen (cpPort cp) (cpSub cp) then s.sendRing cp c else s

/-- A cell as the hub originates it: a unicast cell to an absent node goes as ORPHAN (R317). -/
def State.originate (s : State) (c : Cell) : State × Cell :=
  let k := c.kind
  if (k = kWRITE ∨ k = kREAD ∨ k = kCTRL ∨ k = kTUNNEL) ∧ c.node ≠ 0xFFFF#16 ∧ ¬ s.present c.node.toNat then
    (s.raise Kind.NODE_ABSENT (c.node.toNat * 2 ^ 16 + c.f1.toNat),
      { c with kind := kORPHAN, node := BitVec.ofNat 16 s.node })
  else (s, c)

/-- The payload of the next heartbeat (R349). -/
def State.heartbeatWords (s : State) : List Word :=
  [word (pack [(4, 8), (s.mode, 3), (0, 5), (s.eclaim, 8), (s.cyc.hseq, 8), (s.node, 16)]),
   word (pack [(s.mseq, 32), (0, 10), (s.cycNow, 6)]),
   word (pack [(s.get RED_CFG.TWIN, 16), (0, 32)]),
   word (s.get CYC_TCRC.TCRC)]

/-- The payload of the phase-sample cell of domain `d` (R101). -/
def sampleWords (d : Nat) (m : Model) : List Word :=
  [word (pack [(1, 8), (m.kind, 4), (0, 2), (d, 2), (m.seqno, 8), (m.quality, 8), (m.node, 16)]),
   word (pack [(m.apply, 24), (0, 8), (m.gen, 16)]), word m.ts, word m.phase,
   BitVec.ofInt 48 m.rate, BitVec.ofInt 48 m.accel, word (m.homeseq * 2 ^ 40)]

/-- Whether row `r` carries the heartbeat: the lowest-numbered own row with HB = 1 and DEST = 0xFFFF of
the cycle (R349). -/
def State.carriesHeartbeat (s : State) (r : Row) : Bool :=
  r.hb && r.dest == 0xFFFF &&
    (s.ownRows.filter (fun x => x.hb && x.dest == 0xFFFF)).all (fun x => decide (r.idx ≤ x.idx))

/-- The phase samples that wait for a broadcast window of CP27 (R100). -/
def State.takeSamples (s : State) (r : Row) : State × List Cell :=
  if r.src = 27 ∧ r.dest = 0xFFFF then
    let ds := (List.range 4).filterMap (fun d => (s.dom d).sample.map (fun m => (d, m)))
    let cells := ds.map (fun x => s.ctrl cTT 0xFFFF (sampleWords x.1 x.2))
    (ds.foldl (fun s x => s.setDom x.1 { s.dom x.1 with sample := none }) s, cells)
  else (s, [])

/-- The mirror and vote cells that wait for a window of CP29 to `DEST` (R418, R423); at most `n`. -/
def State.takeMirror (s : State) (r : Row) (n : Nat) : State × List Cell :=
  if r.src = 29 then
    let mine := fun (c : Cell) => c.node.toNat == r.dest
    let votes := (s.red.voteCells.filter mine).take n
    let tx := (s.red.txCells.filter mine).take (n - votes.length)
    ({ s with red := { s.red with
      voteCells := votes.foldl (fun l c => l.erase c) s.red.voteCells
      txCells := tx.foldl (fun l c => l.erase c) s.red.txCells } }, votes ++ tx)
  else (s, [])

/-! ### Policing and second copies (R347, R353) -/

/-- The path of an arrival port: ring A or B (R347). -/
def pathB (p : Nat) : Bool := decide (2 ≤ p)

/-- A TT cell or a sync cell is dropped by policing (R353). -/
def State.police (s : State) (p k : Nat) : State :=
  (s.inc CYC_TTCNT.POLICE).raise Kind.TT_POLICE (k * 256 + p)

/-- Whether an arriving TT cell passes policing (R353). -/
def State.ttAllowed (s : State) (p k : Nat) : Bool :=
  (p == 1 || p == 2) && s.rows.any (fun r => r.sub == k && s.rowTakes r)

/-- Whether a TT cell delivered here is a second copy, which consumes the entry it matches; else it is
stored (R347). -/
def State.secondCopy (s : State) (crc : Nat) (b : Bool) : State × Bool :=
  let other := fun (e : DupEntry) => e.crc == crc && e.pathB != b
  if s.cyc.dups.any other then
    (({ s with cyc := { s.cyc with dups := s.cyc.dups.eraseP other } }).inc CYC_TTCNT.DUP, true)
  else
    let e : DupEntry := .mk crc b s.cyc.ncyc
    if 4096 ≤ s.cyc.dups.length then
      (({ s with cyc := { s.cyc with dups := s.cyc.dups.drop 1 ++ [e] } }).raise Kind.TT_DUP_OVF 0, false)
    else ({ s with cyc := { s.cyc with dups := s.cyc.dups ++ [e] } }, false)

/-! ### Sync cells (R354 to R361, R366, R367, R370) -/

/-- The payload of this hub's sync cell (R354). -/
def State.syncWords (s : State) (tx : Nat) : List Word :=
  let st := match s.cyc.mySteer with
    | some x => if 0 < halfRange 32 x.apply s.mseq then some x else none
    | none => none
  [word (pack [(2, 8), ((s.sstate == ssCOLDSTART).toNat, 1), (st.isSome.toNat, 1), (0, 2), (s.get CYC_CTL.SLOT, 4),
      (0, 16), (s.node, 16)]),
   word (pack [(s.mseq, 32), (0, 10), (s.cycNow, 6)]),
   word (pack [(s.gen, 16), (s.get CYC_TCRC.TCRC, 32)]), word tx, 0,
   (match st with | some x => BitVec.ofInt 48 x.off | none => 0),
   (match st with | some x => word (pack [(x.apply, 32), (x.stseq, 8), (0, 8)]) | none => 0)]

/-- A sync hub sends its sync cell at the start of its slot of this basic cycle (R354); a guardian that
holds another slot trips (R351, R352). -/
def State.sendSync (s : State) : State :=
  if !s.on CYC_CTL.SYNC || !s.cellsLeave || s.cyc.stopped then s
  else if s.cyc.grdSlot ≠ some (s.get CYC_CTL.SLOT) then (s.tripGuard 0).tripGuard 3
  else
    let c := s.ctrl cCTL 0xFFFF (s.syncWords (s.ticks + s.get CYC_CTL.SLOT * s.sslot))
    (s.sendTt 0 c).sendTt 12 c

/-- The local timer, in 1/256 tick (R355). -/
def State.localTimer (s : State) : Nat := s.now * 256 % 2 ^ 48

/-- How far the first byte arrived from now on the local timer, 1/256 tick. -/
def State.arrivedAt (s : State) (arrival : BitVec 48) : Int := halfRange 48 arrival.toNat s.localTimer

/-- Stop TT and sync insertion and listen again (R361, R370). -/
def State.toListen (s : State) : State :=
  let s := { s with cyc := { s.cyc with stopped := true, listening := false, listenCnt := 0, observing := false } }
  (s.set CYC_STAT.SSTATE ssLISTEN).set CYC_STAT.JOINOK 0

/-- SYNC_LOST (R361): insertion stops, and Run and Shadow return to Join (R475, R478). -/
def State.syncLost (s : State) : State :=
  let s := (s.raiseLevel Kind.SYNC_LOST 0).toListen
  if s.mode = mRun ∨ s.mode = mShadow then s.enterMode mJoin else s

/-- The hub is synchronised (R368, R369): insertion may go on, and the cause of SYNC_LOST ends. -/
def State.synced (s : State) : State :=
  let s := { s with cyc := { s.cyc with stopped := false } }
  (s.set CYC_STAT.SSTATE ssSYNCED).endLevel Kind.SYNC_LOST 0

/-- A sync cell: its fields as signed and unsigned numbers. -/
structure SyncCell where
  cs     : Bool
  sf     : Bool
  slot   : Nat
  node   : Nat
  mseq   : Nat
  cyc    : Nat
  gen    : Nat
  tcrc   : Nat
  ticks  : Nat
  corr   : Int
  stoff  : Int
  apply  : Nat
  stseq  : Nat
  deriving DecidableEq, Repr

/-- The sync cell that the payload words spell (R354). -/
def syncOf (ws : List Word) : SyncCell :=
  let w := fun i => ws.getD i 0
  { cs := (w 0).getLsbD 39, sf := (w 0).getLsbD 38, slot := wbits (w 0) 35 32, node := wbits (w 0) 15 0
    mseq := wbits (w 1) 47 16, cyc := wbits (w 1) 5 0, gen := wbits (w 2) 47 32, tcrc := wbits (w 2) 31 0
    ticks := (w 3).toNat, corr := (w 4).toInt, stoff := (w 5).toInt, apply := wbits (w 6) 47 16
    stseq := wbits (w 6) 15 8 }

/-- The hub integrates on a sync cell whose first byte arrived `late` ticks ago (R367). -/
def State.integrate (s : State) (x : SyncCell) (delay : Int) (late : Nat) : State :=
  let s := s.setPosition x.mseq x.cyc (x.slot * s.sslot + (delay.tdiv 256).toNat + late)
  let s := s.adopt x.gen (shiftTicks (x.ticks + late) (delay.tdiv 256))
  let s := { s with cyc := { s.cyc with
    observing := false, valid := false, devs := [], csum := 0, slew := 0, slewWin := 0, overLim := 0, noSync := 0
    listening := false, corrected := true } }
  s.set CYC_STAT.SSTATE ssINTEGRATE

/-- Record a steering announcement: of those that a basic cycle brings, that of the lowest sync slot
(R363). -/
def State.noteSteer (s : State) (x : SyncCell) : State :=
  if x.sf && x.stseq != s.get CYC_STEERST.STSEQ && s.cyc.steerSlot.all (fun k => decide (x.slot < k)) then
    ({ s with cyc := { s.cyc with
      steer := some (.mk x.stseq x.stoff x.apply), steerSlot := some x.slot } }).set CYC_STEERST.STSEQ x.stseq
  else s

/-- Compare the label of a sync cell with ring time, and keep that of the matrix's lowest slot (R366). -/
def State.noteLabel (s : State) (x : SyncCell) (delay late : Int) : State :=
  let own := (s.ticks : Int) * 256 + late
  let diff := (BitVec.ofInt 56 ((x.ticks : Int) * 256 + delay - own)).toInt
  let bad := x.gen != s.gen || decide (512 < diff.natAbs)
  let s := if bad then ({ s with cyc := { s.cyc with labelDue := true } }).raise Kind.CYC_LABEL x.node else s
  let lower := match s.cyc.label with | none => true | some (k, _, _) => decide (x.slot ≤ k)
  if lower then { s with cyc := { s.cyc with label := some (x.slot, x.gen, rnd diff (2 ^ 8)) } } else s

/-- The deviation of a sync cell (R357), 1/256 tick. -/
def State.deviation (s : State) (x : SyncCell) (delay late : Int) : Int :=
  let cycles := (BitVec.ofInt 38 ((x.mseq * s.matrixLen + x.cyc : Nat) - (s.mseq * s.matrixLen + s.cycNow : Nat) : Int)).toInt
  let a := (s.cyc.offset : Int) * 256 + s.cyc.frac + late - cycles * s.bc * 256
  a - ((x.slot * s.sslot * 256 : Nat) + delay)

/-- What an accepted sync cell brings to a hub that is not listening (R357, R366, R368, R369). -/
def State.measureSync (s : State) (x : SyncCell) (delay late : Int) : State :=
  let s := { s with cyc := { s.cyc with
    devs := s.cyc.devs ++ [(x.slot, s.deviation x delay late)]
    rxSlots := x.slot :: s.cyc.rxSlots, anyNoCs := s.cyc.anyNoCs || !x.cs
    csOther := s.cyc.csOther || x.slot != s.get CYC_CTL.SLOT } }
  let s := if s.sstate = ssINTEGRATE ∧ x.tcrc ≠ s.get CYC_TCRC.TCRC then
      ({ s with cyc := { s.cyc with valid := false } }).raise Kind.TABLE_MISMATCH x.node
    else s
  (s.noteLabel x delay late).noteSteer x

/-- A sync cell goes on to the next hub with its delays added to CORR (R285, R356); the residence time is
not fixed by the spec. -/
def State.forwardSync (s : State) (p k : Nat) (c : Cell) (x : SyncCell) : State :=
  let corr := x.corr + s.get (CYC_LINKDLY.DELAY p) + Config.residence s.free
  let c := { c with words := c.words.set 4 (BitVec.ofInt 48 corr) }
  let s := s.draw
  match s.route (otherPort p) k c with
  | .error q => s.wrapDrop q
  | .ok (cp, c) =>
    if s.ttLink (cpPort cp) (cpSub cp) then s.sendRing cp c else s

/-- SYNC_CELL_RECEIVED (R303, R304, R353, R357, R367, R370): the cell, and the local timer at its first
byte. -/
def execSyncCellReceived (port sub : Fin 4) (cell : Cell) (arrival : BitVec 48) (s : State) : Result :=
  if cell.words.length ≠ 20 then .fault (.illFormed "SYNC_CELL_RECEIVED") else
  let p := port.val
  let x := syncOf cell.words
  if cell.f1.toNat = s.node && cell.wrap.toNat != 1 then .next s
  else if cell.wrap.toNat = 1 then .next (s.forwardSync p sub.val cell x)
  else
    let seen := if pathB p then s.cyc.seenB else s.cyc.seenA
    if seen.contains x.slot then .next (s.police p sub.val)
    else
      let first := !s.cyc.seenA.contains x.slot && !s.cyc.seenB.contains x.slot
      let s := if pathB p then { s with cyc := { s.cyc with seenB := x.slot :: s.cyc.seenB } }
        else { s with cyc := { s.cyc with seenA := x.slot :: s.cyc.seenA } }
      let delay := x.corr + s.get (CYC_LINKDLY.DELAY p)
      let late := s.arrivedAt arrival
      let s := s.forwardSync p sub.val cell x
      if !first then .next s
      else
        let s := if s.sstate = ssCOLDSTART && x.cs && decide (x.node < s.node) then
            let s := s.toListen
            if s.mode = mRun ∨ s.mode = mShadow then s.enterMode mJoin else s
          else s
        if s.sstate = ssLISTEN then
          .next (if s.mode = mJoin then s.integrate x delay (-late / 256).toNat else s)
        else .next (s.measureSync x delay late)

/-- Sort numbers in ascending order. -/
def insertInt (x : Int) : List Int → List Int
  | [] => [x]
  | y :: rest => if x ≤ y then x :: y :: rest else y :: insertInt x rest
def sortInts (xs : List Int) : List Int := xs.foldr insertInt []

/-- The trimmed mean of R358, toward zero. -/
def trimmedMean (ds : List Int) : Int :=
  let n := ds.length
  let k := if 7 ≤ n then 2 else if 4 ≤ n then 1 else 0
  let m := ((sortInts ds).drop k).take (n - 2 * k)
  (m.foldl (· + ·) 0).tdiv (n - 2 * k : Nat)

/-- `x` held between −b and b. -/
def clampInt (b x : Int) : Int := max (-b) (min b x)

/-- OFFSET_CORRECTION (R358, R361): at the end of the sync window plus SPAN, once in each basic
cycle. -/
def execOffsetCorrection (s : State) : Result :=
  if s.cyc.corrected || s.sstate == ssLISTEN then .next s else
  let s := s.advance (16 * s.sslot + s.span - s.cyc.offset)
  let own : List Int := if s.on CYC_CTL.SYNC then [0] else []
  let ds := s.cyc.devs.map (fun d => d.2) ++ own
  let n := ds.length
  let none_ := s.cyc.rxSlots.isEmpty && !s.on CYC_CTL.SYNC && s.sstate != ssCOLDSTART
  let avg := trimmedMean ds
  let lim := decide (((s.get CYC_LIMIT.SYNCLIM * 256 : Nat) : Int) < (avg.natAbs : Int))
  let excess := n != 0 && lim
  let s := { s with cyc := { s.cyc with
    corrected := true
    overLim := if excess then s.cyc.overLim + 1 else 0
    noSync := if none_ then s.cyc.noSync + 1 else 0
    valid := s.cyc.valid && n != 0 && !lim } }
  let s := s.set CYC_STAT.NSYNC n
  let s : State := if n = 0 then s else
    let c := clampInt (64 * 256) (-avg)
    let s := { s with cyc := { s.cyc with
      slew := s.cyc.slew + c, slewWin := s.bc - s.kerf - s.cyc.offset, csum := s.cyc.csum + c } }
    let s := s.setInt CYC_OFFS.DEV avg
    if n < 4 then s.raise Kind.SYNC_FEW n else s
  .next (if 2 ≤ s.cyc.overLim ∨ 2 ≤ s.cyc.noSync then s.syncLost else s)

/-! ### Link delays (R355) -/

def State.linkDelay (s : State) (p : Nat) : LinkDelay := Tab.get LinkDelay.none s.cyc.links p
def State.setLinkDelay (s : State) (p : Nat) (x : LinkDelay) : State :=
  { s with cyc := { s.cyc with links := Tab.put LinkDelay.none s.cyc.links p x } }

/-- The payload of a link-delay cell. -/
def linkDelayWords (resp : Bool) (exch t1 t2 t3 : Nat) : List Word :=
  [word (pack [(5, 8), (resp.toNat, 1), (0, 23), (exch, 8), (0, 8)]), word t1, word t2, word t3]

/-- A port asks for its link's delay, once per matrix; a port to be sealed carries only key-exchange cells
before (R306). -/
def State.askDelay (s : State) (p : Nat) : State :=
  if !s.linkOpen p || !s.sealOpen p || !s.on (RINGP_CTL.EN p) then s else
  let x := s.linkDelay p
  let e := (x.exch + 1) % 256
  (s.setLinkDelay p { x with exch := e, t1 := some s.localTimer }).sendLink p
    (linkDelayWords false e s.localTimer 0 0)

/-- LINK_DELAY_RECEIVED (R355): a request is answered; the response to the open request yields a result,
and `CYC_LINKDLYp` the mean of the last eight. -/
def execLinkDelayReceived (p : Fin 4) (ws : List Word) (arrival : BitVec 48) (s : State) : Result :=
  if ws.length ≠ 20 then .fault (.illFormed "LINK_DELAY_RECEIVED") else
  let w := fun i => wordAt ws i
  let e := bits (w 0) 15 8
  if bits (w 0) 47 40 ≠ 5 then .next s
  else if !(w 0).testBit 39 then
    .next (if s.sealOpen p.val then s.sendLink p.val (linkDelayWords true e (w 1) arrival.toNat s.localTimer) else s)
  else
    let x := s.linkDelay p.val
    if x.t1 = some (w 1) ∧ e = x.exch then
      let r := (halfRange 48 arrival.toNat (w 1) - halfRange 48 (w 3) (w 2)).tdiv 2
      let rs := (r :: x.results).take 8
      let s := s.setLinkDelay p.val { x with t1 := none, results := rs }
      .next (s.setInt (CYC_LINKDLY.DELAY p.val) ((rs.foldl (· + ·) 0).tdiv rs.length))
    else .next s

/-! ### Steering (R363) -/

/-- A write of `CYC_STEERREQ`: only the steering hub, which is a sync hub, announces. -/
def State.steerRequest (s : State) (v : Word) : State :=
  if s.on CYC_CTL.STEER && s.on CYC_CTL.SYNC then
    let st : Steer := .mk ((s.get CYC_STEERST.STSEQ + 1) % 256) v.toInt ((s.mseq + 2) % 2 ^ 32)
    ({ s with cyc := { s.cyc with mySteer := some st, steer := some st } }).set CYC_STEERST.STSEQ st.stseq
  else s

/-- STEER_REQUEST. -/
def execSteerRequest (v : Word) (s : State) : Result := .next (s.steerRequest v)

end Sys2Proof.Machine
end

