-- ==== Sys2Proof/Machine/Eth.lean ====
section
/-! DEFINITION. Chapter 12, what a MAC reads in a frame: EtherType, IPv4, TCP and UDP checksums, the
frame check sequence, and the PTP event messages (R399, R400). -/

namespace Sys2Proof.Machine

/-- Byte `i` of a frame, and the big-endian half-word there. -/
def byteAt (bs : List Byte) (i : Nat) : Nat := (bs.getD i 0).toNat
def halfAt (bs : List Byte) (i : Nat) : Nat := byteAt bs i * 256 + byteAt bs (i + 1)

/-- Where the payload starts and its EtherType, past one 802.1Q tag (R399). -/
def etherType (bs : List Byte) : Nat × Nat :=
  if halfAt bs 12 = 0x8100 then (18, halfAt bs 16) else (14, halfAt bs 12)

/-- The ones' complement sum of big-endian half-words; an odd last byte is the high one. -/
def onesSum : List Byte → Nat → Nat
  | [], acc => acc
  | [a], acc => let x := acc + a.toNat * 256; x % 65536 + x / 65536
  | a :: b :: rest, acc => let x := acc + a.toNat * 256 + b.toNat; onesSum rest (x % 65536 + x / 65536)

/-- An IPv4 packet in a frame: where its header starts, the header's length, the total length, the
protocol, and whether it is a fragment; `none` where the frame carries none. -/
structure Ip where
  at_   : Nat
  hlen  : Nat
  total : Nat
  proto : Nat
  frag  : Bool
  fits  : Bool
  deriving DecidableEq, Repr

/-- The IPv4 packet of a frame without its FCS (R399). -/
def ipOf (bs : List Byte) : Option Ip :=
  let (p, ty) := etherType bs
  if ty ≠ 0x0800 then none
  else
    let hlen := byteAt bs p % 16 * 4
    let total := halfAt bs (p + 2)
    some { at_ := p, hlen := hlen, total := total, proto := byteAt bs (p + 9)
           frag := halfAt bs (p + 6) % 2 ^ 14 != 0
           fits := byteAt bs p / 16 == 4 && decide (20 ≤ hlen) && decide (hlen ≤ total)
             && decide (p + total ≤ bs.length) }

/-- `n` bytes of a frame from byte `i`. -/
def span (bs : List Byte) (i n : Nat) : List Byte := (bs.drop i).take n

/-- The sum of the pseudo-header and the segment of a TCP or UDP packet. -/
def l4Sum (bs : List Byte) (x : Ip) : Nat :=
  let len := x.total - x.hlen
  onesSum (span bs (x.at_ + x.hlen) len) (onesSum (span bs (x.at_ + 12) 8 ++ toBytes 2 x.proto ++ toBytes 2 len) 0)

/-- Whether a packet carries a TCP or UDP segment whose checksum counts (R399). -/
def Ip.hasL4 (x : Ip) : Bool := x.fits && !x.frag && (x.proto == 6 || x.proto == 17)

/-- The header check IP of R389: 0 not checked, 1 good, 2 bad. -/
def ipCheck (bs : List Byte) : Nat :=
  match ipOf bs with
  | none => 0
  | some x => if x.fits && onesSum (span bs x.at_ x.hlen) 0 == 0xFFFF then 1 else 2

/-- The TCP or UDP check L4 of R389; a UDP checksum of zero is good. -/
def l4Check (bs : List Byte) : Nat :=
  match ipOf bs with
  | none => 0
  | some x =>
    if !x.hasL4 then 0
    else if x.proto = 17 ∧ halfAt bs (x.at_ + x.hlen + 6) = 0 then 1
    else if l4Sum bs x = 0xFFFF then 1 else 2

/-- Put a half-word into a frame at byte `i`. -/
def putHalf (bs : List Byte) (i v : Nat) : List Byte :=
  (bs.set i (BitVec.ofNat 8 (v / 256))).set (i + 1) (BitVec.ofNat 8 v)

/-- Insert the IPv4 header checksum, and a TCP or UDP checksum, into a frame without its FCS; a UDP
checksum of zero is written as 0xFFFF (R399). -/
def insertChecks (bs : List Byte) : List Byte :=
  match ipOf bs with
  | none => bs
  | some x =>
    if !x.fits then bs else
    let bs := putHalf bs (x.at_ + 10) 0
    let bs := putHalf bs (x.at_ + 10) (0xFFFF - onesSum (span bs x.at_ x.hlen) 0)
    if !x.hasL4 then bs
    else
      let o := x.at_ + x.hlen + (if x.proto = 17 then 6 else 16)
      let bs := putHalf bs o 0
      let c := 0xFFFF - l4Sum bs x
      putHalf bs o (if x.proto = 17 ∧ c = 0 then 0xFFFF else c)

/-- One step of the frame check sequence of IEEE 802.3, least significant bit first. -/
def fcsBit (crc : BitVec 32) (bit : Bool) : BitVec 32 :=
  if crc.getLsbD 0 != bit then (crc >>> 1) ^^^ 0xEDB88320#32 else crc >>> 1

/-- The four bytes of the frame check sequence of IEEE 802.3. -/
def fcsBytes (bs : List Byte) : List Byte :=
  let c := bs.foldl (fun crc b => (List.range 8).foldl (fun c i => fcsBit c (b.getLsbD i)) crc) 0xFFFFFFFF#32
    ^^^ 0xFFFFFFFF#32
  (List.range 4).map (fun i => BitVec.ofNat 8 (c.toNat / 2 ^ (8 * i)))

/-- A frame with its FCS as a MAC with TXCK = 1 sends it (R399). -/
def withChecks (bs : List Byte) : List Byte :=
  let body := bs.take (bs.length - 4)
  if (ipOf body).isNone then bs else
  let body := insertChecks body
  body ++ fcsBytes body

/-- messageType and sequenceId of a PTP event message: types 0 to 3, at EtherType 0x88F7 or in UDP to
port 319 over IPv4 (R400). -/
def ptpEvent (bs : List Byte) : Option (Nat × Nat) :=
  let (p, ty) := etherType bs
  let at_ := if ty = 0x88F7 then some p
    else match ipOf bs with
      | some x => if x.fits && !x.frag && x.proto == 17 && halfAt bs (x.at_ + x.hlen + 2) == 319
          then some (x.at_ + x.hlen + 8) else none
      | none => none
  match at_ with
  | none => none
  | some q => if byteAt bs q % 16 < 4 then some (byteAt bs q % 16, halfAt bs (q + 30)) else none

end Sys2Proof.Machine
end

