-- ==== Sys2Proof/Machine/Bridge.lean ====
section
/-! DEFINITION. Chapter 12: the host bridge with its windows, the tunnels, and the Ethernet MACs. -/

namespace Sys2Proof.Machine

/-! ### Words in host memory (R376, R377) -/

/-- The bytes of a word's location. -/
def hostBytes (packd di : Bool) (v : Word) : List Byte :=
  let b := toBytes 6 v.toNat
  match packd, di with
  | false, false => [0, 0] ++ b
  | false, true => b.reverse ++ [0, 0]
  | true, false => b
  | true, true => b.reverse

/-- Bytes a word's location takes. -/
def wordSize (packd : Bool) : Nat := if packd then 6 else 8

/-- The word that the bytes of a location hold. -/
def hostWord (packd di : Bool) (bs : List Byte) : Word :=
  let d := if packd then bs else if di then bs.take 6 else bs.drop 2
  word (ofBytes (if di then d.reverse else d))

/-- The words of consecutive locations. -/
def hostWords (packd di : Bool) (n : Nat) (bs : List Byte) : List Word :=
  (List.range n).map (fun i => hostWord packd di ((bs.drop (wordSize packd * i)).take (wordSize packd)))

/-- Where the data bytes of a location begin. -/
def dataAt (packd di : Bool) : Nat := if packd || di then 0 else 2

/-! ### Outbound windows (R378 to R382) -/

/-- Whether the PCIe link is up (R394). -/
def State.linkUp (s : State) : Bool := s.on BRG_STAT.LINKUP

/-- Show the READ cells outstanding. -/
def State.showTags (s : State) : State :=
  s.set BRG_STAT.OUTRD (s.brg.tags.filter (fun t => match t.2 with | .busy _ _ _ _ => true | _ => false)).length

/-- The first free one of `n` tags from `t` on. -/
@[irreducible] def freeFrom (m : Tab TagUse) (n t : Nat) : Option Nat :=
  match n with
  | 0 => none
  | n + 1 => if Tab.get TagUse.free m t = TagUse.free then some t else freeFrom m n (t + 1)

/-- A free tag, of 1,024 (R379, R380). -/
def State.freeTag (s : State) : Option Nat := freeFrom s.brg.tags 1024 0

def State.setTag (s : State) (t : Nat) (u : TagUse) : State :=
  ({ s with brg := { s.brg with tags := Tab.put TagUse.free s.brg.tags t u } }).showTags

/-- A READ cell of request `r` goes to CP16 with tag `t`, which waits for its RESP from now on (R379, R380). -/
def State.sendTagged (s : State) (c : OutCell) (r t : Nat) : State :=
  let n := c.cell.nm1.toNat + 1
  let ret := word (s.node * 2 ^ 32 + t)
  let s := s.setTag t (.busy r c.at_ n (s.now + usTicks (s.get BRG_CFG.RDTO)))
  s.sendFor 16 c.fn { c.cell with words := pad20 [ret] }

/-- Hand cells to CP16, those of one function in their order: a READ needs a tag, and what follows it
waits behind it (R379, R381). -/
def State.pumpOut (s : State) (todo kept : List OutCell) : State :=
  match todo with
  | [] => { s with brg := { s.brg with outQ := kept } }
  | c :: rest =>
    if kept.any (fun k => k.fn == c.fn) then s.pumpOut rest (kept ++ [c])
    else match c.req with
      | none => (s.sendFor 16 c.fn c.cell).pumpOut rest kept
      | some r =>
        match s.freeTag with
        | none => s.pumpOut rest (kept ++ [c])
        | some t => (s.sendTagged c r t).pumpOut rest kept

/-- Hand on what may go. -/
def State.pump16 (s : State) : State := s.pumpOut s.brg.outQ []

/-- A cell that a function sends: a broadcast write travels as BWRITE (R313). -/
def State.fnCell (s : State) (fn : Nat) (write : Bool) (node ch w n : Nat) (ws : List Word) : Cell :=
  let bc := write && node == 0xFFFF
  { node := BitVec.ofNat 16 (if bc then s.node else node), f1 := BitVec.ofNat 16 ch, f2 := BitVec.ofNat 16 w
    kind := if bc then kBWRITE else if write then kWRITE else kREAD, cls := s.tenClass fn, wrap := 0
    ten := BitVec.ofNat 4 fn, nm1 := BitVec.ofNat 5 (n - 1), words := pad20 ws }

/-- Cut `n` words from number `i` of a window into cells of up to twenty. -/
def chunks (fuel i n : Nat) : List (Nat × Nat) :=
  match fuel with
  | 0 => []
  | fuel + 1 => if n = 0 then [] else (i, min n 20) :: chunks fuel (i + min n 20) (n - min n 20)

/-- The checks of R378 on a request that touches words `i` to `j` of window `n`. -/
def State.owinOk (s : State) (fn n j : Nat) : Bool :=
  s.on (BRG_OWINB.EN n) && s.get (BRG_OWINB.FUNC n) == fn && decide (j ≤ s.get (BRG_OWINB.LASTW n))
    && decide (s.get (BRG_OWINA.WORD n) + s.get (BRG_OWINB.LASTW n) ≤ 0xFFFF)

/-- A refused outbound request (R378). -/
def State.outRefused (s : State) (fn n : Nat) : State :=
  (s.inc BRG_CNT.REFUSED).raise Kind.BRG_OUT_REFUSED (fn * 2 ^ 16 + n)

/-- Whether a BAR2 request is one that PCIe can carry: inside the BAR, and inside one 4 KiB page. -/
def bar2Ok (offset len most : Nat) : Bool :=
  decide (0 < len) && decide (len ≤ most) && decide (offset + len ≤ 2 ^ 25)
    && decide (offset % 4096 + len ≤ 4096)

/-- OUTBOUND_WRITE (R378, R379). -/
def execOutboundWrite (fn : Fin 16) (offset : Nat) (bytes : List Byte) (s : State) : Result :=
  if !bar2Ok offset bytes.length 512 then .fault (.illFormed "OUTBOUND_WRITE")
  else if !s.linkUp then .next s
  else
    let f := fn.val
    let n := offset / 524288
    let o := offset % 524288
    let pk := s.on (BRG_OWINB.PACK n)
    let di := s.on (BRG_OWINB.RULE n)
    let z := wordSize pk
    let i := o / z
    let j := (o + bytes.length - 1) / z
    let whole := decide (o ≤ z * i + dataAt pk di) && decide (z * j + dataAt pk di + 6 ≤ o + bytes.length)
    if !s.owinOk f n j || !whole then .next (s.outRefused f n)
    else
      let lead := List.replicate (o - z * i) (0 : Byte)
      let ws := hostWords pk di (j + 1 - i) (lead ++ bytes ++ List.replicate 8 0)
      let cells := (chunks 512 0 (j + 1 - i)).map (fun c => OutCell.mk f none 0
        (s.fnCell f true (s.get (BRG_OWINA.NODE n)) (s.get (BRG_OWINA.CH n)) (s.get (BRG_OWINA.WORD n) + i + c.1) c.2
          ((ws.drop c.1).take c.2)))
      .next ({ s with brg := { s.brg with outQ := s.brg.outQ ++ cells } }).pump16

/-- OUTBOUND_READ (R378, R379). -/
def execOutboundRead (fn : Fin 16) (offset len : Nat) (s : State) : Result :=
  if !bar2Ok offset len 4096 then .fault (.illFormed "OUTBOUND_READ")
  else if !s.linkUp then .next s
  else
    let f := fn.val
    let n := offset / 524288
    let o := offset % 524288
    let pk := s.on (BRG_OWINB.PACK n)
    let z := wordSize pk
    let i := o / z
    let j := (o + len - 1) / z
    if !s.owinOk f n j then .next ((s.outRefused f n).emit .cplUR)
    else
      let parts := chunks 1024 0 (j + 1 - i)
      let id := s.brg.nextReq
      let r : OutRead := .mk id f pk (s.on (BRG_OWINB.RULE n)) (o - z * i) len [] parts.length false
      let cells := parts.map (fun c => OutCell.mk f (some id) c.1
        (s.fnCell f false (s.get (BRG_OWINA.NODE n)) (s.get (BRG_OWINA.CH n)) (s.get (BRG_OWINA.WORD n) + i + c.1) c.2 []))
      .next ({ s with brg := { s.brg with
        nextReq := id + 1, reads := s.brg.reads ++ [r], outQ := s.brg.outQ ++ cells } }).pump16

/-- Give up the rest of a request: its unsent cells go. -/
def State.dropRead (s : State) (id : Nat) : State :=
  { s with brg := { s.brg with
    reads := s.brg.reads.filter (fun (r : OutRead) => r.id != id)
    outQ := s.brg.outQ.filter (fun (c : OutCell) => c.req != some id) } }

/-- The bytes that a request asked for, out of the words it gathered (R379). -/
def OutRead.bytes (r : OutRead) : List Byte :=
  let n := ceilDiv (r.skip + r.len) (wordSize r.packd)
  (((Tab.getList 0 r.words 0 n).flatMap (hostBytes r.packd r.di)).drop r.skip).take r.len

/-- A request's last RESP is in: it is completed, with UR where any RESP refused it (R379). -/
def State.finishRead (s : State) (r : OutRead) : State :=
  let s := s.dropRead r.id
  s.emit (if r.bad then .cplUR else .cplData r.bytes)

/-- A RESP reaches the bridge (R379, R380). -/
def State.takeResp (s : State) (c : Cell) : State :=
  let tag := c.f2.toNat
  match (if tag < 1024 then Tab.get TagUse.free s.brg.tags tag else TagUse.free) with
  | .busy req at_ n _ =>
    let s := s.setTag tag TagUse.free
    let s := match s.brg.reads.find? (fun (r : OutRead) => r.id == req) with
      | none => s
      | some r =>
        let ok := c.ten = 0
        let r := { r with
          words := if ok then Tab.putList 0 r.words at_ (c.words.take n) else r.words
          left := r.left - 1, bad := r.bad || !ok }
        if r.left = 0 then s.finishRead r
        else { s with brg := { s.brg with
          reads := s.brg.reads.map (fun (x : OutRead) => if x.id == req then r else x) } }
    s.pump16
  | _ => (s.inc BRG_CNT.LATE).raise Kind.BRG_LATE_RESP (tag % 4096)

/-- RESP_ARRIVAL. -/
def execRespArrival (cell : Cell) (s : State) : Result :=
  if cell.words.length = 20 then .next (s.takeResp cell) else .fault (.illFormed "RESP_ARRIVAL")

/-- The tag of a request for which `p` holds goes into quarantine. -/
def TagUse.quarantined (p : Nat → Bool) (until_ : Nat) (u : TagUse) : TagUse :=
  match u with
  | .busy r a n due => if p r then .quarantine until_ else .busy r a n due
  | u => u

/-- Quarantine the tags of the requests for which `p` holds (R380, R382). -/
def State.quarantine (s : State) (p : Nat → Bool) : State :=
  let until_ := s.now + 2 * usTicks (s.get BRG_CFG.RDTO)
  ({ s with brg := { s.brg with tags := s.brg.tags.map (fun (t : Nat × TagUse) => (t.1, t.2.quarantined p until_)) } }).showTags

/-- BRG_RD_TIMEOUT (R380): a READ cell had no RESP within RDTO. -/
def execBrgRdTimeout (tag : Fin 1024) (s : State) : Result :=
  match Tab.get TagUse.free s.brg.tags tag.val with
  | .busy req _ _ due =>
    let s := s.waitUntil due
    match s.brg.reads.find? (fun (r : OutRead) => r.id == req) with
    | none => .next s
    | some r =>
      let s := ((s.dropRead req).quarantine (· == req)).emit .cplCA
      .next (s.raise Kind.BRG_RD_TIMEOUT (r.fn * 2 ^ 16 + tag.val)).pump16
  | _ => .next s

/-- TAG_QUARANTINE_END (R380). -/
def execTagQuarantineEnd (tag : Fin 1024) (s : State) : Result :=
  match Tab.get TagUse.free s.brg.tags tag.val with
  | .quarantine t => .next ((s.waitUntil t).setTag tag.val TagUse.free).pump16
  | _ => .next s

/-- Discard the unsent requests of function `f` and quarantine their tags (R382). -/
def State.discardFn (s : State) (f : Nat) : State :=
  let ids := (s.brg.reads.filter (fun (r : OutRead) => r.fn == f)).map (fun r => r.id)
  let s := ids.foldl (fun s i => s.dropRead i) (s.quarantine (fun r => ids.contains r))
  { s with
    brg := { s.brg with outQ := s.brg.outQ.filter (fun (c : OutCell) => c.fn != f) }
    xbar := { s.xbar with waiting := Tab.modify [] s.xbar.waiting 16 (fun (ws : List WCell) =>
      ws.filter (fun w => !(w.ten == f && (w.cell.kind == kWRITE || w.cell.kind == kREAD || w.cell.kind == kBWRITE)))) } }

/-- FUNCTION_LEVEL_RESET (R382). -/
def execFunctionLevelReset (fn : Fin 16) (s : State) : Result := .next (s.discardFn fn.val)

/-- BRG_LINK_DOWN (R54, R382, R394): a table home in host memory is lost with the link. -/
def execBrgLinkDown (s : State) : Result :=
  let s := (s.setB BRG_STAT.LINKUP false).raiseLevel Kind.BRG_LINK_DOWN 0
  let s := if s.homeSel = 2 then s.loseHome else s
  .next (s.each 16 (fun f s => s.discardFn f))

/-- PCIE_LINK_UP (R394). -/
def execPcieLinkUp (s : State) : Result :=
  .next ((s.setB BRG_STAT.LINKUP true).endLevel Kind.BRG_LINK_DOWN 0)

/-! ### Inbound windows (R383 to R386) -/

/-- An inbound access fails (R384). -/
def State.hostErr (s : State) (k : Nat) : State := (s.inc BRG_CNT.HOSTERR).raise Kind.BRG_HOST_ERR k

/-- Whether window `k` can reach the host: enabled, its function enabled with Bus Master Enable, the
link up (R384, R394). -/
def State.iwinOpen (s : State) (k : Nat) : Bool :=
  s.on (BRG_IWINB.EN k) && s.brg.enabled.testBit (s.get (BRG_IWINB.FUNC k)) && s.linkUp

/-- The host address of word `w` of window `k` (R383). -/
def State.hostAddr (s : State) (k w : Nat) : Nat :=
  s.get (BRG_IWINA.HADDR k) * 65536 + wordSize (s.on (BRG_IWINB.PACK k)) * w

/-- A memory write to the host. -/
def State.writeHost (s : State) (k w : Nat) (ws : List Word) : State :=
  let bs := ws.flatMap (hostBytes (s.on (BRG_IWINB.PACK k)) (s.on (BRG_IWINB.RULE k)))
  let a := s.hostAddr k w
  ({ s with tbl := { s.tbl with host := Tab.putList 0 s.tbl.host a bs } }).emit (.hostWrite a bs)

/-- Show the host reads outstanding. -/
def State.showHost (s : State) : State := s.set BRG_STAT.HOSTRD s.brg.host.length

/-- Issue a read of `n` words of host memory from word `w` of window `k`. -/
def State.readHost (s : State) (k w n : Nat) (use : HostUse) : State :=
  let id := s.brg.nextId
  let r : HostRead := .mk id k use (s.now + usTicks (s.get BRG_CFG.HRDTO))
  (({ s with brg := { s.brg with nextId := id + 1, host := s.brg.host ++ [r] } }).showHost).emit
    (.hostRead id (s.hostAddr k w) (wordSize (s.on (BRG_IWINB.PACK k)) * n))

/-- A READ cell of window `k` (R384): issued, or kept until fewer than 256 are outstanding. -/
def State.inboundRead (s : State) (k : Nat) (c : Cell) : State :=
  if !s.iwinOpen k then s.hostErr k
  else if s.brg.host.length < 256 then s.readHost k c.f2.toNat (c.nm1.toNat + 1) (.window c)
  else { s with brg := { s.brg with inNp := s.brg.inNp ++ [(k, c)] } }

/-- A WRITE to window `k` (R384). -/
def State.inboundWrite (s : State) (k w : Nat) (ws : List Word) : State :=
  if s.iwinOpen k then s.writeHost k w ws else s.hostErr k

/-- INBOUND_ACCESS (R383, R384): a WRITE or READ cell for a channel that binds an inbound window, after
the decode of R30. -/
def execInboundAccess (cell : Cell) (s : State) : Result :=
  if cell.words.length ≠ 20 || 19 < cell.nm1.toNat then .fault (.illFormed "INBOUND_ACCESS")
  else
    let n := cell.nm1.toNat + 1
    let ch := cell.f1.toNat
    let w := cell.f2.toNat
    let t := cell.ten.toNat
    let ws := cell.words.take n
    if cell.kind = kREAD then
      match s.decode false t ch w n Option.none with
      | (s, .refused st) =>
        .next ((s.refuse st ch w).sendFor 16 t (s.respCell (cell.words.getD 0 0) cell.cls st []))
      | (s, .channel e) => .next (match e.iwin with | some k => s.inboundRead k cell | none => s)
      | (s, .window) => .next s
      | (s, .waits) => .next (s.block (.read 17 t ch w n (cell.words.getD 0 0) cell.cls 16 false))
    else if cell.kind = kWRITE || cell.kind = kBWRITE then
      match s.decode (cell.kind == kBWRITE) t ch w n (some ws) with
      | (s, .refused st) => .next (s.refuse st ch w)
      | (s, .channel e) => .next (match e.iwin with | some k => s.inboundWrite k w ws | none => s)
      | (s, .window) => .next s
      | (s, .waits) => .next (s.block (.write (cell.kind == kBWRITE) 17 t ch w ws))
    else .next s

/-- A host read is over: the next READ cell that waits is issued. -/
def State.nextHostRead (s : State) (id : Nat) : State :=
  let s := ({ s with brg := { s.brg with host := s.brg.host.filter (fun (r : HostRead) => r.id != id) } }).showHost
  match s.brg.inNp with
  | [] => s
  | (k, c) :: rest => ({ s with brg := { s.brg with inNp := rest } } : State).inboundRead k c

/-! ### Tunnels (R387 to R393) -/

/-- A frame of tunnel `t` is dropped. -/
def State.tunDrop (s : State) (k : Kind) (t : Nat) : State := (s.inc BRG_CNT.TUNDROP).raise k (t % 256)

/-- The cells of a frame (R389). -/
def State.tunCells (s : State) (f : TunFrame) (fseq : Nat) : List Cell :=
  let t := f.stun
  let len := f.bytes.length
  let hdr := word (pack [(fseq, 8), (f.mbus.toNat, 1), (f.ip, 2), (f.l4, 2), (0, 5), (len, 15), (0, 7), (t, 8)])
  let count := 1 + (if len ≤ 102 then 0 else ceilDiv (len - 102) 114)
  let ten := s.get (BRG_TUN.TENANT t)
  (List.range count).map (fun i =>
    let part := if i = 0 then f.bytes.take 102 else (f.bytes.drop (102 + 114 * (i - 1))).take 114
    let data := (List.range (ceilDiv part.length 6)).map (fun j =>
      word (ofBytes ((((part.drop (6 * j)).take 6) ++ List.replicate 6 (0 : Byte)).take 6)))
    let ws := if i = 0 then [hdr, word f.gen, word f.ticks] ++ data else hdr :: data
    { node := BitVec.ofNat 16 (s.get (BRG_TUN.DNODE t)), f1 := BitVec.ofNat 16 (s.get (BRG_TUN.DCH t)), f2 := BitVec.ofNat 16 i
      kind := kTUNNEL, cls := s.tenClass ten, wrap := 0, ten := BitVec.ofNat 4 ten
      nm1 := BitVec.ofNat 5 (ws.length - 1), words := pad20 ws })

/-- Whether cells of tunnel `t` still wait for the switch core (R390). -/
def State.tunBusy (s : State) (t : Nat) : Bool :=
  (Tab.get [] s.xbar.waiting 16 ++ Tab.get [] s.xbar.waiting 18).any (fun (w : WCell) =>
    w.cell.kind == kTUNNEL && wbits (w.cell.words.getD 0 0) 7 0 == t)

/-- Send a frame on its tunnel at core port `cp`; `ok` tells whether it started or was dropped, so that
the source may let go of it (R388 to R390). -/
def State.sendFrame (s : State) (cp : Nat) (f : TunFrame) : State × Bool :=
  if 255 < f.stun || !s.on (BRG_TUN.EN f.stun) then (s.tunDrop Kind.TUN_DROP f.stun, true)
  else if f.bytes.isEmpty || 16384 < f.bytes.length then (s.tunDrop Kind.TUN_CONFIG f.stun, true)
  else if s.tunBusy f.stun then (s, false)
  else
    let q := Tab.get 0 s.brg.fseq f.stun
    let s := { s with brg := { s.brg with fseq := Tab.put 0 s.brg.fseq f.stun ((q + 1) % 256) } }
    ((s.tunCells f q).foldl (fun s c => s.send cp c) s, true)

/-- TUNNEL_FRAME_SEND (R388 to R390). -/
def execTunnelFrameSend (src : FrameSource) (s : State) : Result :=
  .next (match src with
    | .mac m =>
      match (s.macRec m.val).rxq with
      | [] => s
      | f :: rest =>
        let r := s.sendFrame 18 f
        if r.2 then
          let s' := r.1.setMac m.val { r.1.macRec m.val with rxq := rest }
          if s.on (BRG_TUN.EN f.stun) then s'.inc (MAC_RXCNT.FRAMES m.val) else s'
        else s
    | .mbus c =>
      match (s.mbus c.val).toTun with
      | [] => s
      | ws :: rest =>
        let f : TunFrame := .mk (s.get (MB_TUN.TNUM c.val)) true 0 0 (wordAt ws 1 % 2 ^ 16) (wordAt ws 2) (wordBytes ws)
        let r := s.sendFrame 18 f
        if r.2 then r.1.setMbus c.val { r.1.mbus c.val with toTun := rest } else s
    | .move =>
      match s.brg.moveQ with
      | [] => s
      | f :: rest =>
        let r := s.sendFrame 16 { f with gen := s.gen, ticks := s.ticks }
        if r.2 then { r.1 with brg := { r.1.brg with moveQ := rest } } else s)

/-- Show the reassembly buffers in use. -/
def State.setReasm (s : State) (rs : List Reasm) : State :=
  ({ s with brg := { s.brg with reasm := rs } }).set BRG_STAT.REASM rs.length

/-- Whether a reassembly is complete. -/
def Reasm.complete (r : Reasm) : Bool := decide (r.len ≤ r.frame.bytes.length)

/-- Take a frame's buffer back. -/
def State.freeReasm (s : State) (r : Reasm) : State := s.setReasm (s.brg.reasm.erase r)

/-- A frame enters a MAC's transmit queue; one of a wrong length, and every tunnelled frame in Shadow,
is discarded there (R398).  One for a link that is down is held like those queued before (R330, R331). -/
def State.macQueue (s : State) (m : Nat) (cls : BitVec 2) (bs : List Byte) : State :=
  if s.mode = mShadow ∨ bs.length < 64 ∨ s.get (MAC_CFG.MAXLEN m) < bs.length then s.inc (MAC_TXCNT.DISCARD m)
  else
    let x := s.macRec m
    let hold := if s.on (MAC_STAT.LINK m) || x.hold.isSome then x.hold else some (s.now + s.get XBAR_PORTHOLD.TICKS)
    s.setMac m { x with txq := x.txq ++ [.mk bs cls s.now], hold := hold }

/-- Bytes in a transmit queue and in a receive buffer. -/
def Mac.txBytes (x : Mac) : Nat := x.txq.foldl (fun n (f : TxFrame) => n + f.bytes.length) 0
def Mac.rxBytes (x : Mac) : Nat := x.rxq.foldl (fun n (f : TunFrame) => n + f.bytes.length) 0

/-- The slots of the host ring of window `k` (R393): the lowest channel that binds the window is looked up;
0 where none does.  `none` where the lookup has to wait for a way (R59). -/
def State.ringSlots (s : State) (k : Nat) : Option (State × Nat) :=
  match (List.range 0xFFF0).find? (fun ch => (s.peek ch).valid && (s.peek ch).iwin == some k) with
  | none => some (s, 0)
  | some ch => match s.lookup ch with
    | some (s, e) => some (s, e.points / 2752)
    | none => none

/-- A read for a slot of tunnel `t`'s ring is on its way. -/
def State.ringAsks (s : State) (t : Nat) : Bool :=
  s.brg.host.any (fun (h : HostRead) => match h.use with | .ring u _ => u == t | _ => false)

/-- Deliver a complete frame to the sink of its tunnel (R392, R393); one whose queue lacks room waits. -/
def State.deliver (s : State) (r : Reasm) : State :=
  let t := r.tun
  let i := s.get (BRG_TUN.SIDX t)
  let f := r.frame
  let bs := f.bytes.take r.len
  if r.asking then s else
  match s.get (BRG_TUN.SINK t) with
  | 1 =>
    if f.mbus || 12 ≤ i then (s.freeReasm r).tunDrop Kind.TUN_CONFIG t
    else if 32768 < (s.macRec i).txBytes + bs.length then s
    else (s.freeReasm r).macQueue i (s.tenClass (s.get (BRG_TUN.TENANT t))) bs
  | 2 =>
    if !f.mbus || 16 ≤ i then (s.freeReasm r).tunDrop Kind.TUN_CONFIG t
    else (s.freeReasm r).mbFromTunnel i ((List.range (r.len / 6)).map (fun j => word (ofBytes ((bs.drop (6 * j)).take 6))))
  | 3 =>
    if !s.linkUp then (s.freeReasm r).tunDrop Kind.TUN_DROP t
    else if s.ringAsks t then s
    else match (if s.on (BRG_IWINB.EN i) then s.ringSlots i else some (s, 0)) with
      | none => s
      | some (s, slots) =>
        if slots = 0 then (s.freeReasm r).tunDrop Kind.TUN_CONFIG t
        else if !s.iwinOpen i then ((s.freeReasm r).hostErr i).tunDrop Kind.TUN_DROP t
        else
          let s := s.setReasm (s.brg.reasm.map (fun x => if x == r then { x with asking := true } else x))
          s.readHost i (2752 * Tab.get 0 s.brg.slot t) 1 (.ring t slots)
  | _ => (s.freeReasm r).tunDrop Kind.TUN_DROP t

/-- Deliver every complete frame that can be delivered, oldest first. -/
def State.deliverAll (s : State) : State :=
  (s.brg.reasm.filter Reasm.complete).foldl (fun s r => s.deliver r) s

/-- A partial frame of tunnel `t` is discarded with TUN_REASM (R391). -/
def State.breakReasm (s : State) (t : Nat) : State :=
  match s.brg.reasm.find? (fun r => r.tun == t && !r.complete) with
  | some r => (s.freeReasm r).tunDrop Kind.TUN_REASM t
  | none => s

/-- A TUNNEL cell of tunnel `t` reaches the reassembly (R391). -/
def State.reassemble (s : State) (t : Nat) (c : Cell) : State :=
  let h := c.words.getD 0 0
  let i := c.f2.toNat
  let len := wbits h 29 15
  let q := wbits h 47 40
  if i = 0 then
    let s := s.breakReasm t
    if len = 0 || 16384 < len then s.tunDrop Kind.TUN_REASM t
    else if 64 ≤ s.brg.reasm.length then s.tunDrop Kind.TUN_DROP t
    else
      let f : TunFrame := .mk (wbits h 7 0) (h.getLsbD 39) (wbits h 38 37) (wbits h 36 35) (wordAt c.words 1 % 2 ^ 16)
        (wordAt c.words 2) ((wordBytes (c.words.drop 3)).take (min len 102))
      (s.setReasm (s.brg.reasm ++ [.mk t q f len 1 s.now false])).deliverAll
  else
    match s.brg.reasm.find? (fun r => r.tun == t && !r.complete) with
    | none => s.tunDrop Kind.TUN_REASM t
    | some r =>
      if r.next = i ∧ r.fseq = q then
        let more := (wordBytes (c.words.drop 1)).take (min (r.len - r.frame.bytes.length) 114)
        let r' := { r with next := i + 1, frame := { r.frame with bytes := r.frame.bytes ++ more } }
        (s.setReasm (s.brg.reasm.map (fun x => if x == r then r' else x))).deliverAll
      else s.breakReasm t

/-- A TUNNEL cell for this hub: decoded as a write without its range check, then reassembled (R391). -/
def State.takeTunnel (s : State) (c : Cell) : State :=
  if s.tbl.blocked.any (fun x => match x with | .tunnel d => d.f1 == c.f1 | _ => false) then s.block (.tunnel c)
  else match s.decode false c.ten.toNat c.f1.toNat 0 1 (some []) with
  | (s, .waits) => s.block (.tunnel c)
  | (s, .refused st) => s.refuse st c.f1.toNat c.f2.toNat
  | (s, .window) => s
  | (s, .channel e) => if e.type = tTUNNEL ∧ e.index < 256 then s.reassemble e.index c else s

/-- TUNNEL_CELL_ARRIVAL. -/
def execTunnelCellArrival (cell : Cell) (s : State) : Result :=
  if cell.words.length = 20 then .next (s.takeTunnel cell) else .fault (.illFormed "TUNNEL_CELL_ARRIVAL")

/-- TUN_REASM_TIMEOUT (R391): the partial frame of a tunnel is older than REASMTO. -/
def execTunReasmTimeout (t : Fin 256) (s : State) : Result :=
  match s.brg.reasm.find? (fun r => r.tun == t.val && !r.complete) with
  | none => .next s
  | some r => .next ((s.waitUntil (r.born + usTicks (s.get BRG_CFG.REASMTO))).breakReasm t.val)

/-- Word 0 of a ring slot is in: a free slot takes the frame, data and timestamp first, word 0 last
(R393). -/
def State.fillSlot (s : State) (t slots : Nat) (w0 : Word) : State :=
  match s.brg.reasm.find? (fun r => r.tun == t && r.asking) with
  | none => s
  | some r =>
    let k := s.get (BRG_TUN.SIDX t)
    let s := s.freeReasm r
    if w0.getLsbD 47 then s.tunDrop Kind.TUN_DROP t
    else
      let f := r.frame
      let at_ := 2752 * Tab.get 0 s.brg.slot t
      let bs := f.bytes.take r.len
      let data := (List.range (ceilDiv r.len 6)).map (fun j =>
        word (ofBytes ((((bs.drop (6 * j)).take 6) ++ List.replicate 6 (0 : Byte)).take 6)))
      let s := s.writeHost k (at_ + 1) ([word f.gen, word f.ticks] ++ data)
      let s := s.writeHost k at_ [word (pack [(1, 1), (f.mbus.toNat, 1), (f.ip, 2), (f.l4, 2), (r.fseq, 8), (0, 4),
        (r.len, 15), (0, 7), (f.stun, 8)])]
      { s with brg := { s.brg with slot := Tab.put 0 s.brg.slot t ((Tab.get 0 s.brg.slot t + 1) % slots) } }

/-- A host read failed (R384): no RESP, and a frame that waited for it is dropped. -/
def State.hostFails (s : State) (r : HostRead) : State :=
  let s := (s.nextHostRead r.id).hostErr r.win
  match r.use with
  | .window _ => s
  | .ring t _ =>
    match s.brg.reasm.find? (fun x => x.tun == t && x.asking) with
    | some x => ((s.freeReasm x).tunDrop Kind.TUN_DROP t).deliverAll
    | none => s

/-- HOST_COMPLETION (R384, R386, R393). -/
def execHostCompletion (id : Nat) (answer : HostAnswer) (s : State) : Result :=
  match s.brg.host.find? (fun (r : HostRead) => r.id == id) with
  | none => .next s
  | some r =>
    let pk := s.on (BRG_IWINB.PACK r.win)
    let di := s.on (BRG_IWINB.RULE r.win)
    let n := match r.use with | .window c => c.nm1.toNat + 1 | .ring _ _ => 1
    match answer with
    | .data bs =>
      if bs.length ≠ wordSize pk * n then .fault (.illFormed "HOST_COMPLETION")
      else
        let ws := hostWords pk di n bs
        let s := s.nextHostRead id
        .next (match r.use with
          | .window c => s.sendFor 16 c.ten.toNat (s.respCell (c.words.getD 0 0) c.cls 0 ws)
          | .ring t slots => (s.fillSlot t slots (ws.getD 0 0)).deliverAll)
    | _ => .next (s.hostFails r)

/-- HOST_READ_TIMEOUT (R384). -/
def execHostReadTimeout (id : Nat) (s : State) : Result :=
  match s.brg.host.find? (fun (r : HostRead) => r.id == id) with
  | none => .next s
  | some r => .next ((s.waitUntil r.due).hostFails r)

/-! ### Ethernet MACs (R395 to R401) -/

/-- MAC_FRAME_RECEIVED (R397, R399, R400): the last byte is in; the timestamp is of the first bit after the
SFD. -/
def execMacFrameReceived (m : Fin 12) (f : EthFrame) (s : State) : Result :=
  let M := m.val
  if !s.macLinked M then .next s
  else if !f.fcsOk then .next (s.inc (MAC_DROP.FCS M))
  else if f.bytes.length < 64 || !f.codeOk then .next (s.inc (MAC_DROP.SHORT M))
  else if s.get (MAC_CFG.MAXLEN M) < f.bytes.length then .next (s.inc (MAC_DROP.LONG M))
  else
    let x := s.macRec M
    if 32768 < x.rxBytes + f.bytes.length then .next (s.inc (MAC_DROP.OVF M))
    else
      let body := f.bytes.take (f.bytes.length - 4)
      let on := s.on (MAC_CFG.RXCK M)
      let ip := if on then ipCheck body else 0
      let l4 := if on then l4Check body else 0
      let fr : TunFrame := .mk (s.get (MAC_CFG.TNUM M)) false ip l4 s.gen
        (shiftTicks s.ticks (-(byteTicks (s.get (MAC_STAT.RATE M)) f.bytes.length : Nat))) f.bytes
      let s := s.setMac M { x with rxq := x.rxq ++ [fr] }
      .next (if ip = 2 ∨ l4 = 2 then s.inc (MAC_RXCNT.CKBAD M) else s)

/-- A PTP event message is timestamped; a full queue loses its oldest entry (R400). -/
def State.macStamp (s : State) (m seqid mtype : Nat) : State :=
  let x := s.macRec m
  let e : TxStamp := .mk s.gen s.ticks seqid mtype
  if x.stamps.length < 4 then s.setMac m { x with stamps := x.stamps ++ [e] }
  else (s.setMac m { x with stamps := x.stamps.drop 1 ++ [e] }).raise Kind.MAC_TXTS_OVF m

/-- MAC_FRAME_SENT (R398 to R401): the oldest queued frame goes, out of LPI after the wake time; in Shadow it is
discarded. -/
def execMacFrameSent (m : Fin 12) (s : State) : Result :=
  let M := m.val
  let x := s.macRec M
  match x.txq with
  | [] => .next s
  | f :: rest =>
    if s.mode = mShadow then .next (((s.setMac M { x with txq := rest }).inc (MAC_TXCNT.DISCARD M)).deliverAll)
    else if !s.macLinked M then .next s
    else
      let bs := if s.on (MAC_CFG.TXCK M) then withChecks f.bytes else f.bytes
      let s := if s.on (MAC_STAT.LPI M) then s.advance (usTicks (max (s.get (MAC_LPI.TWSYS M)) (s.get (MAC_LPI.TWPART M))))
        else s
      let s := ((s.setMac M { x with txq := rest, sentAt := s.now }).set (MAC_STAT.LPI M) 0).inc (MAC_TXCNT.SENT M)
      let s := match ptpEvent bs with
        | some (ty, q) => s.macStamp M q ty
        | none => s
      .next ((s.emit (.eth M bs)).deliverAll)

/-- A read of `MACm_TXTS1` removes the entry shown (R400). -/
def State.popStamp (s : State) (m : Nat) : State :=
  let x := s.macRec m
  s.setMac m { x with stamps := x.stamps.drop 1 }

/-- Whether a queued frame has expired (R330, R398). -/
def State.frameExpired (s : State) (f : TxFrame) : Bool :=
  (f.cls = cCTL && decide (s.bc < s.now - f.since))
  || (f.cls = cPRIO && decide (s.get XBAR_PORTHOLD.PRIOAGE < s.now - f.since))

/-- MAC_LINK_UP (R331, R396): expired frames are dropped and the rest goes on. -/
def execMacLinkUp (m : Fin 12) (rate : Fin 5) (s : State) : Result :=
  let M := m.val
  if !s.macRuns M || s.on (MAC_STAT.LINK M) || !s.macRate M rate.val then .next s
  else
    let s := ((s.set (MAC_STAT.LINK M) 1).set (MAC_STAT.RATE M) rate.val).raise Kind.MAC_LINK_UP M
    let s := s.endLevel Kind.MAC_LINK_DOWN M
    let s := if rate.val = 3 && !s.macReduced M && s.get (MAC_CFG.SPEED M) == 0 then s.raise Kind.MAC_FALLBACK M else s
    let x := s.macRec M
    let gone := if x.hold.isSome then x.txq.filter s.frameExpired else []
    let kept := if x.hold.isSome then x.txq.filter (fun f => !s.frameExpired f) else x.txq
    let s := s.setMac M { x with hold := none, txq := kept, sentAt := s.now }
    .next (s.addSat (MAC_TXCNT.EXPIRED M) gone.length).deliverAll

/-- MAC_LINK_DOWN. -/
def execMacLinkDown (m : Fin 12) (s : State) : Result := .next (s.macDown m.val)

/-- PORT_HOLD of a MAC ends: its queued frames are flushed (R331, R398). -/
def State.macHoldEnds (s : State) (m : Nat) : State :=
  let x := s.macRec m
  let n := x.txq.length
  let s := (s.setMac m { x with hold := none, txq := [] }).addSat (MAC_TXCNT.FLUSHED m) n
  (if n = 0 then s else s.raise Kind.MAC_HOLD_FLUSH (min n 0xFFFF * 2 ^ 16 + m)).deliverAll

/-- PORT_HOLD_EXPIRY (R330, R331): of ring port 0 to 3, or of MAC `p − 4`. -/
def execPortHoldExpiry (p : Fin 16) (s : State) : Result :=
  let P := p.val
  match (if P < 4 then Tab.get none s.xbar.hold P else (s.macRec (P - 4)).hold) with
  | none => .next s
  | some t =>
    let s := s.waitUntil t
    .next (if P < 4 then s.holdEnds P else s.macHoldEnds (P - 4))

/-- FALLBACK_PERIOD (R396): ETH0 to ETH3 try the other rate after FBTIME without a link. -/
def execFallbackPeriod (m : Fin 12) (s : State) : Result :=
  let M := m.val
  if 4 ≤ M || !s.macRuns M || s.macReduced M || s.on (MAC_STAT.LINK M) || s.get (MAC_CFG.SPEED M) != 0 then .next s
  else
    let s := s.waitUntil ((s.macRec M).tryAt + msTicks (s.get (MAC_CFG.FBTIME M)))
    .next (s.setMac M { s.macRec M with lower := !(s.macRec M).lower, tryAt := s.now })

/-- LPI_ENTRY (R401): IDLE microseconds have passed without frames. -/
def execLpiEntry (m : Fin 12) (s : State) : Result :=
  let M := m.val
  if !s.on (MAC_CTL.LPIEN M) || !s.macLinked M || !(s.macRec M).txq.isEmpty || s.on (MAC_STAT.LPI M) then .next s
  else
    let s := s.waitUntil ((s.macRec M).sentAt + usTicks (s.get (MAC_LPI.IDLE M)))
    .next (s.set (MAC_STAT.LPI M) 1)

/-- A write of `MACm_CTL`. -/
def State.writeMacCtl (s : State) (m : Nat) (v : Word) : State :=
  let was := s.on (MAC_CTL.EN m)
  let test := s.on (MAC_CTL.TEST m)
  let s := (s.set (MAC_CTL.TEST m) (wbits v 2 2)).set (MAC_CTL.LPIEN m) (wbits v 1 1)
  let s := s.set (MAC_CTL.EN m) (wbits v 0 0)
  let s := if v.toNat.testBit 1 then s else s.set (MAC_STAT.LPI m) 0
  let s := if test != s.on (MAC_CTL.TEST m) then s.macJudge m else s
  if was && !s.on (MAC_CTL.EN m) then (s.macDown m).endLevel Kind.MAC_LINK_DOWN m
  else if !was && s.on (MAC_CTL.EN m) then
    s.setMac m { s.macRec m with lower := false, tryAt := s.now }
  else s

/-- A write of `MACm_CFG`; reserved values refuse it (R12), and a link at a rate no longer allowed goes down. -/
def State.writeMacCfg (s : State) (m : Nat) (v : Word) : State :=
  let n := wbits v 39 25
  if n < 64 || 16384 < n || wbits v 22 21 == 3 || (decide (m < 4) && v.toNat.testBit 20) then s
  else
    ([(MAC_CFG.TNUM m, wbits v 47 40), (MAC_CFG.MAXLEN m, n), (MAC_CFG.TXCK m, wbits v 24 24),
      (MAC_CFG.RXCK m, wbits v 23 23), (MAC_CFG.SPEED m, wbits v 22 21), (MAC_CFG.PCS m, wbits v 20 20),
      (MAC_CFG.FBTIME m, wbits v 19 10)].foldl (fun (s : State) f => s.set f.1 f.2) s).macJudge m

/-- A write of `BRG_TUNt`: the ring returns to slot 0 (R393); a reserved SINK refuses the write (R12). -/
def State.writeTun (s : State) (t : Nat) (v : Word) : State :=
  if 3 < wbits v 10 8 then s
  else
    let s := [(BRG_TUN.DNODE t, wbits v 47 32), (BRG_TUN.DCH t, wbits v 31 16), (BRG_TUN.TENANT t, wbits v 15 12),
      (BRG_TUN.EN t, wbits v 11 11), (BRG_TUN.SINK t, wbits v 10 8), (BRG_TUN.SIDX t, wbits v 5 0)].foldl
      (fun (s : State) f => s.set f.1 f.2) s
    { s with brg := { s.brg with slot := Tab.put 0 s.brg.slot t 0 } }

end Sys2Proof.Machine
end

