-- ==== Sys2Proof/Machine/Fault.lean ====
section
/-! DEFINITION. Chapter 15: the fault collector, with its sticky bits, summaries, history, reactions,
interrupts, and the queues of forwarded messages (R457 to R472). -/

namespace Sys2Proof.Machine

/-! ### Messages (R457) -/

/-- The 128 bits of a message. -/
def Msg.raw (m : Msg) : Nat :=
  pack [(m.report.gen, 16), (m.report.ticks, 48), (m.report.kind.src, 8), (m.report.kind.kind, 8), (m.report.addr, 32),
    (m.rept, 16)]

/-- The message of 128 bits. -/
def Msg.ofRaw (r : Nat) : Msg :=
  .mk (.mk (bits r 127 112) (bits r 111 64) (.mk (bits r 63 56) (bits r 55 48)) (bits r 47 16)) (bits r 15 0)

/-- Word `w` of window 0xFFFC (R26, R465). -/
def State.readHistory (s : State) (w : Nat) : Word := recordWord (Tab.get Msg.empty s.flt.history (w / 4)).raw (w % 4)

/-! ### Interrupts (R468, R469) -/

/-- Vector `vec` of function `fn` signals: one message in a basic cycle, else its pending bit; the bit
stays pending too while the vector is masked or the function cannot send. -/
def State.signal (s : State) (fn vec : Nat) : State :=
  let k := 32 * fn + vec
  let open_ := s.linkUp && s.brg.enabled.testBit fn && !s.brg.masked.contains k
  if open_ && Tab.get 0 s.flt.msixLast k != s.cyc.ncyc + 1 then
    { s with flt := { s.flt with
      msixLast := Tab.put 0 s.flt.msixLast k (s.cyc.ncyc + 1)
      msixPend := s.flt.msixPend.filter (· != k) } }.emit (.msix fn vec)
  else if s.flt.msixPend.contains k then s
  else { s with flt := { s.flt with msixPend := s.flt.msixPend ++ [k] } }

/-- The pending vectors signal at the first tick of a basic cycle. -/
def State.signalPending (s : State) : State :=
  s.flt.msixPend.foldl (fun s k => s.signal (k / 32) (k % 32)) s

/-- The interrupts of a recorded message. -/
def State.interrupts (s : State) (k : Kind) : State :=
  let s := if k.cls = 3 then s.signal 0 0 else s
  let classOn := s.bit FLT_IEN.CLASSEN k.cls
  let s := if classOn && s.bit FLT_IEN.SRCEN (k.src - 1) then s.signal 0 k.src else s
  s.each 15 (fun n s => if classOn && s.bit (FLT_VFMASK.SRC (n + 1)) (k.src - 1) then s.signal (n + 1) 0 else s)

/-! ### Recording and reaction (R463 to R467, R470) -/

/-- A recorded message for the collecting hub waits in the forwarding queue; the oldest gives way. -/
def State.queueForward (s : State) (m : Msg) : State :=
  if s.get FLT_FWD.NODE = 0 || m.report.kind.cls < s.get FLT_FWD.CLASSMIN then s
  else if 32 ≤ s.flt.fwdQ.length then
    ({ s with flt := { s.flt with fwdQ := s.flt.fwdQ.drop 1 ++ [m] } }).inc FLT_CNT.FWDDROP
  else { s with flt := { s.flt with fwdQ := s.flt.fwdQ ++ [m] } }

/-- How many messages have been recorded in this tick (R464). -/
def State.slotsUsed (s : State) : Nat := if s.flt.slotTick = s.now then s.flt.slotCount else 0

/-- Record a message; the first record of a critical kind requests Hold, a summary does not (R467). -/
def State.recordMsg (s : State) (m : Msg) (summary : Bool) : State :=
  let total := s.get FLT_HPTR.TOTAL
  let k := m.report.kind
  let s := { s with flt := { s.flt with
    history := Tab.put Msg.empty s.flt.history (total % 32) m, slotTick := s.now, slotCount := s.slotsUsed + 1 } }
  let s := (s.set FLT_HPTR.TOTAL (total + 1)).set FLT_HPTR.NEXT (total + 1)
  let s := (s.interrupts k).queueForward m
  if k.cls = 3 && !summary && k != Kind.SYNC_LOST && s.bit FLT_HOLDEN.SRC (k.src - 1) then s.holdRequested false else s

/-- Record queued summaries, `n` at most (R463). -/
def State.drainN (s : State) (n : Nat) : State :=
  match n with
  | 0 => s
  | n + 1 =>
    match s.flt.summaries with
    | [] => s
    | m :: rest => (({ s with flt := { s.flt with summaries := rest } }).recordMsg m true).drainN n

/-- Record the queued summaries that this tick has room for. -/
def State.drainSummaries (s : State) : State := s.drainN (16 - s.slotsUsed)

/-- The first tick of a basic cycle: every folded source and kind is queued as a summary, in ascending
order (R463). -/
def State.queueSummaries (s : State) : State :=
  { s with flt := { s.flt with
    summaries := s.flt.summaries
      ++ s.flt.fold.map (fun kv => Msg.mk (Tab.get Msg.empty.report s.flt.last kv.1) kv.2)
    recCycle := s.flt.fold.foldl (fun t kv => Tab.put 0 t kv.1 (s.cyc.ncyc + 1)) s.flt.recCycle
    last := []
    fold := [] } }

/-- Set the sticky bit of a kind that some chapter defines (R460). -/
def State.setSticky (s : State) (k : Kind) : State :=
  if k.isDefined then s.setBit (FLT_STK.KIND k.src (k.kind / 48)) (k.kind % 48) true else s

/-- A report reaches the collector (R460, R463, R464); FOLDX counts those that would have been recorded, had
there been a slot. -/
def State.fileReport (s : State) (r : Report) : State :=
  let s := (s.setSticky r.kind).drainSummaries
  let k := r.kind.key
  let first := Tab.get 0 s.flt.recCycle k != s.cyc.ncyc + 1
  if first && decide (s.slotsUsed < 16) then
    ({ s with flt := { s.flt with recCycle := Tab.put 0 s.flt.recCycle k (s.cyc.ncyc + 1) } }).recordMsg (.mk r 1) false
  else
    let s := if first then s.inc FLT_CNT.FOLDX else s
    { s with flt := { s.flt with
      fold := Tab.put 0 s.flt.fold k (min (Tab.get 0 s.flt.fold k + 1) 0xFFFF)
      last := Tab.put Msg.empty.report s.flt.last k r } }

/-- Among the reports of the oldest one's tick, the first by source, kind and address (R464). -/
def Flt.nextReport (f : Flt) : Option Report :=
  match f.reports with
  | [] => none
  | r :: _ =>
    minBy (fun (x : Report) => x.kind.key * 2 ^ 32 + x.addr)
      (f.reports.filter (fun x => x.gen == r.gen && x.ticks == r.ticks))

/-- FAULT_REPORT (R463). -/
def execFaultReport (s : State) : Result :=
  match s.flt.nextReport with
  | none => .next s
  | some r => .next (({ s with flt := { s.flt with reports := s.flt.reports.erase r } }).fileReport r)

/-- SUMMARY_DRAIN (R463): with this tick's slots used up, those of the next. -/
def execSummaryDrain (s : State) : Result :=
  if s.flt.summaries.isEmpty then .next s
  else .next ((if s.slotsUsed < 16 then s else s.advance 1).drainSummaries)

/-! ### Software's access (R459 to R462) -/

/-- The number of the instance that a cause's address names: a CHN address holds a frame's SEQ beside
the port (R259, R459). -/
def Cause.unit (c : Cause) : Nat := if c.kind.src = Kind.CHN_NO_HEAD.src then c.addr % 256 else c.addr

/-- The lowest-numbered instance of a level kind in cause. -/
def State.lowestCause (s : State) (k : Kind) : Option Cause :=
  minBy Cause.unit (s.flt.causes.filter (fun c => c.kind == k))

/-- Software has cleared the bits of `ks`: those of level kinds whose cause persists set again in the
next tick and are reported again (R462). -/
def State.setAgain (s : State) (ks : List Kind) : State :=
  let cs := ks.filterMap s.lowestCause
  if cs.isEmpty then s
  else cs.foldl (fun s c => (s.setSticky c.kind).raise c.kind c.addr) (s.advance 1)

/-- Write 1s to `FLT_STKs_j` (R460). -/
def State.clearSticky (s : State) (src j : Nat) (v : Word) : State :=
  let old := s.get (FLT_STK.KIND src j)
  let gone := (List.range 48).filter (fun i => old.testBit i && v.getLsbD i)
  let s := gone.foldl (fun s i => s.setBit (FLT_STK.KIND src j) i false) s
  s.setAgain (gone.map (fun i => Kind.mk src (48 * j + i)))

/-- STICKY_CLEAR: a write of `FLT_STKs_j`, with s = `src` + 1. -/
def execStickyClear (src : Fin 16) (j : Fin 6) (v : Word) (s : State) : Result :=
  .next (s.clearSticky (src.val + 1) j.val v)

/-- Every sticky bit is cleared in one clock (R461). -/
def State.clearAllSticky (s : State) : State :=
  let held := Kind.levels.filter (fun k => s.bit (FLT_STK.KIND k.src (k.kind / 48)) (k.kind % 48))
  let s := s.each 16 (fun i s => s.each 6 (fun j s => s.set (FLT_STK.KIND (i + 1) j) 0))
  s.setAgain held

/-- CLRALL. -/
def execClrall (s : State) : Result := .next s.clearAllSticky

/-- A write of `FLT_CTL`. -/
def State.writeFltCtl (s : State) (v : Word) : State :=
  let s := s.set FLT_CTL.RXEN (wbits v 0 0)
  if v.getLsbD 1 then s.clearAllSticky else s

/-! ### Forwarded messages (R470, R471) -/

/-- The payload that forwards a message. -/
def State.forwardWords (s : State) (m : Msg) : List Word :=
  word (pack [(8, 8), (0, 24), (s.node, 16)]) :: (List.range 3).map (fun i => recordWord m.raw i)

/-- A forwarded message arrives. -/
def State.remoteArrive (s : State) (ws : List Word) : State :=
  if !s.on FLT_CTL.RXEN then s
  else if 64 ≤ s.flt.remoteQ.length then s.inc FLT_CNT.RQDROP
  else
    let m := Msg.ofRaw (wordAt ws 1 * 2 ^ 80 + wordAt ws 2 * 2 ^ 32 + wordAt ws 3 / 2 ^ 16)
    let was := s.flt.remoteQ.isEmpty
    let s := { s with flt := { s.flt with remoteQ := s.flt.remoteQ ++ [(wordAt ws 0 % 2 ^ 16, m)] } }
    if was then s.signal 0 17 else s

/-- FORWARDED_MESSAGE_RECEIVED (R471). -/
def execForwardedMessageReceived (cell : Cell) (s : State) : Result :=
  if cell.words.length ≠ 20 then .fault (.illFormed "FORWARDED_MESSAGE_RECEIVED")
  else .next (if wbits (cell.words.getD 0 0) 47 40 = 8 then s.remoteArrive cell.words else s)

/-- A read of `FLT_RQ3` removes the head entry. -/
def State.popRemote (s : State) : State := { s with flt := { s.flt with remoteQ := s.flt.remoteQ.drop 1 } }

end Sys2Proof.Machine
end

