-- ==== Sys2Proof/Machine/Red.lean ====
section
/-! DEFINITION. Chapter 13: the twin hubs with their heartbeats, takeover and return, mirroring, and the
king-post registers (R405 to R421, R425 to R428). -/

namespace Sys2Proof.Machine

/-! ### Twin states (R405 to R416, R421) -/

/-- `RED_STAT.STATE`. -/
def State.redSt (s : State) : Nat := s.get RED_STAT.STATE

/-- Raise RED_CONFIG. -/
def State.redConfig (s : State) : State := s.raise Kind.RED_CONFIG 0

/-- A live twin (R407). -/
def State.liveTwin (s : State) : Bool := s.red.runNow || s.red.runPrev

/-- Every enabled chain port sends REPEAT frames until one verifies (R411). -/
def State.portsTakeOver (s : State) : State :=
  s.each 64 (fun p s => if s.chOn p then s.setPort p { s.port p with takeover := true } else s)

/-- The shadow takes over; a pass not yet committed is discarded (R407, R411, R420). -/
def State.takeOver (s : State) : State :=
  let s := if s.red.rx.isSome then s.inc RED_CNT.GAP else s
  let s := ((s.enterMode mRun).redState rdSERVING).portsTakeOver
  (s.inc RED_CNT.TAKEOVER).raise Kind.RED_TAKEOVER s.twinAddr

/-- The primary becomes ACTIVE, with the report that the way there gives (R407, R415, R416). -/
def State.becomeActive (s : State) : State := ((s.enterMode mRun).redState rdACTIVE).portsTakeOver
def State.activeAlone (s : State) : State := s.becomeActive.raiseLevel Kind.RED_NO_TWIN s.twinAddr
def State.activeAgain (s : State) : State :=
  (s.becomeActive.inc RED_CNT.RETURN).raise Kind.RED_RETURN s.twinAddr

/-- Whether a twin state may change now: a hub in Hold keeps it (R408), and so does one that is not yet,
or no longer, in Run or Shadow. -/
def State.redMoves (s : State) : Bool := s.mode == mRun || s.mode == mShadow

/-- HEARTBEAT_RECEIVED (R406, R407): only the twin's count; MODE Hold counts as `HOLDTK` says. -/
def execHeartbeatReceived (cell : Cell) (s : State) : Result :=
  if cell.words.length ≠ 20 then .fault (.illFormed "HEARTBEAT_RECEIVED") else
  let w0 := cell.words.getD 0 0
  let m := wbits w0 39 37
  if wbits w0 47 40 ≠ 4 || s.get RED_CFG.ROLE = 0 || wbits w0 15 0 ≠ s.get RED_CFG.TWIN then .next s
  else
    let s := s.set RED_STAT.TWMODE m
    if m = mRun || (m = mHold && !s.on RED_CFG.HOLDTK) then
      let s := { s with red := { s.red with runNow := true } }
      let s := s.endLevel Kind.RED_NO_TWIN s.twinAddr
      .next (if s.redSt = rdSERVING && decide (s.eclaim < wbits w0 31 24) then
        { s with red := { s.red with stepBack := true, quiet := true } } else s)
    else .next s

/-- A write of `RED_CTL.SWAP` = 1 (R421). -/
def State.redSwap (s : State) : State :=
  if s.redSt = rdACTIVE then
    { s with red := { s.red with swap := true } }.raise Kind.RED_SWAP s.twinAddr
  else s.redConfig

/-- RED_SWAP. -/
def execRedSwap (s : State) : Result := .next s.redSwap

/-- A write of `RED_CFG` (R405): DWELL and MISS of 0 and ROLE 0b11 are reserved; outside Commission ROLE
and TWIN stay. -/
def State.writeRedCfg (s : State) (v : Word) : State :=
  if wbits v 23 16 = 0 || wbits v 11 8 = 0 || wbits v 1 0 = 3 then s
  else
    let s := ((s.set RED_CFG.DWELL (wbits v 23 16)).set RED_CFG.MISS (wbits v 11 8)).set RED_CFG.HOLDTK (wbits v 2 2)
    if s.mode = mCommission then (s.set RED_CFG.TWIN (wbits v 47 32)).set RED_CFG.ROLE (wbits v 1 0)
    else if wbits v 47 32 = s.get RED_CFG.TWIN && wbits v 1 0 = s.get RED_CFG.ROLE then s
    else s.redConfig

/-- What the end of a basic cycle brings to the twin state (R407). -/
def State.redMove (s : State) : State :=
  let missed := decide (s.get RED_CFG.MISS ≤ s.get RED_STAT.MISSCNT)
  if s.redSt = rdLISTEN then
    if s.get RED_CFG.MISS ≤ s.red.listen then
      if s.get RED_CFG.ROLE = 2 then s.redState rdSTANDBY
      else if s.liveTwin then s.redState rdRETURNING
      else s.activeAlone
    else s
  else if s.redSt = rdSTANDBY then (if missed then s.takeOver else s)
  else s

/-- The end of a basic cycle (R407, R408). -/
def State.redCycle (s : State) : State :=
  if s.get RED_CFG.ROLE = 0 then s else
  let s := s.set RED_STAT.MISSCNT (if s.red.runNow then 0 else min 15 (s.get RED_STAT.MISSCNT + 1))
  let s := { s with red := { s.red with listen := if s.redSt = rdLISTEN then s.red.listen + 1 else 0 } }
  let s := if s.redMoves then s.redMove else s
  { s with red := { s.red with runNow := false, runPrev := s.red.runNow } }

/-- The return condition at a matrix boundary (R415). -/
def State.mayReturn (s : State) : Bool :=
  decide (s.get RED_CFG.DWELL < s.red.matrices) && decide (2 ≤ s.red.revSeen.getD 0) && s.red.roundOk

/-- A matrix boundary: the transitions of R407 that wait for it.  A RETURNING primary that has missed its
twin for MISS cycles returns alone where that still holds: a twin that has taken over meanwhile shows Run. -/
def State.redBoundary (s : State) : State :=
  let s := { s with red := { s.red with quiet := false } }
  let s : State := if s.redSt = rdRETURNING then
      { s with red := { s.red with matrices := s.red.matrices + 1, revSeen := s.red.revSeen.map (· + 1) } }
    else s
  if !s.redMoves then s
  else if s.redSt = rdSERVING && s.red.stepBack then (s.enterMode mShadow).redState rdSTANDBY
  else if s.redSt = rdACTIVE && s.red.swap then
    let s := (s.enterMode mShadow).redState rdRETURNING
    { s with red := { s.red with matrices := 1 } }
  else if s.redSt = rdRETURNING && decide (s.get RED_CFG.MISS ≤ s.get RED_STAT.MISSCNT) then s.activeAlone
  else if s.redSt = rdRETURNING && s.mayReturn then s.activeAgain
  else s

/-! ### Mirroring (R417 to R420) -/

/-- Whether the engine mirrors a channel with this entry (R417). -/
def Entry.mirrored (e : Entry) : Bool :=
  e.valid && e.mirror && (e.type == tCHAIN || e.type == tDISCRETE || e.type == tSTREAM
    || (e.type == tTUNNEL && decide (e.index < 0x8000)) || (e.type == tMBUS && inSpan e.index 512 544))

/-- Whether the mirror engine sends, and whether its cells are reverse ones (R406). -/
def State.mirrorSends (s : State) : Bool :=
  s.redSt == rdACTIVE || (s.redSt == rdSERVING && s.get RED_STAT.TWMODE == mShadow)

/-- The cells of a pass of channel `ch` with words `ws` (R417, R418). -/
def State.mirrorCells (s : State) (ch : Nat) (ws : List Word) : List Cell :=
  let n := ceilDiv ws.length 18
  (List.range n).map (fun k =>
    let part := (ws.drop (18 * k)).take 18
    s.ctrl cTT (s.get RED_CFG.TWIN)
      ([word (pack [(6, 8), ((s.redSt == rdSERVING).toNat, 1), ((k + 1 == n).toNat, 1), (0, 1), (part.length - 1, 5),
          (ch, 16), (18 * k, 16)]),
        word (pack [(s.red.round, 32), (k, 16)])] ++ part))

/-- The walk from channel `ch` on, `n` channels at most: the pass of the next mirrored channel, or the end
of the round; where a lookup has to wait for a way of the cache, the walk waits there (R59, R417).  A pass
whose read is abandoned is not sent (R53, R54). -/
def State.mirrorFrom (s : State) (ch n : Nat) : State :=
  match n with
  | 0 =>
    let s := { s with red := { s.red with walk := none, round := (s.red.round + 1) % 2 ^ 32 } }
    s.set RED_MSTAT.TXROUND (s.get RED_MSTAT.TXROUND + 1)
  | n + 1 =>
    match s.lookup ch with
    | none => { s with red := { s.red with walk := some ch } }
    | some (s, e) =>
      if e.mirrored then
        match s.readChan 29 0 ch e 0 e.extent .mirror false with
        | (s, .gone) => s.mirrorFrom (ch + 1) n
        | (s, .words ws) => { s with red := { s.red with walk := some (ch + 1), txCells := s.mirrorCells ch ws } }
        | (s, .waits _) => { s with red := { s.red with walk := some (ch + 1) } }
      else s.mirrorFrom (ch + 1) n

/-- A pass is being read through the table port. -/
def State.mirrorReads (s : State) : Bool := s.tbl.ops.any (fun (o : Op) => o.purpose == Purpose.mirror)

/-- MIRROR_PASS (R417): the next pass, once the cells of the one before have gone. -/
def execMirrorPass (s : State) : Result :=
  let first := s.get RED_MRANGE.FIRST
  let last := s.get RED_MRANGE.LAST
  if !s.mirrorSends || !s.red.txCells.isEmpty || s.mirrorReads || last < first then .next s
  else
    let ch := s.red.walk.getD first
    .next (s.mirrorFrom ch (last + 1 - ch))

/-- A pass is discarded, and what still comes of it is passed over (R419). -/
def State.discardPass (s : State) (k : Kind) (ch : Nat) : State :=
  let s := { s with red := { s.red with rx := none, rxWhole := false, skip := some ch } }
  (s.inc RED_CNT.GAP).raise k ch

/-- A cell of round `r` arrives: with a new round, the one before is complete where all of it came. -/
def State.noteRound (s : State) (r : Nat) : State :=
  match s.red.rxRound with
  | none => { s with red := { s.red with rxRound := some r, rxWhole := true } }
  | some old =>
    if old = r then s
    else
      let s : State := if s.red.rxWhole && s.red.rx.isNone then
          { s with red := { s.red with roundOk := true } }.set RED_MSTAT.RXROUND (s.get RED_MSTAT.RXROUND + 1)
        else s
      { s with red := { s.red with rxRound := some r, rxWhole := true } }

/-- The first cell of a pass: the receiver's own entry, which the pass captures (R56), must be VALID with
MIRROR = 1 (R419). -/
def State.beginPass (s : State) (ch : Nat) (e : Entry) : State :=
  let s := match s.red.rx with
    | some x => s.discardPass Kind.RED_MIRROR_GAP x.ch
    | none => s
  if e.valid && e.mirror then
    { s with
      tbl := { s.tbl with nextOp := s.tbl.nextOp + 1 }
      red := { s.red with rx := some (.mk s.tbl.nextOp ch e 0 [] (decide (4096 < e.extent))), skip := none } }
  else s.discardPass Kind.RED_MIRROR_BIND ch

/-- A cell of the pass in progress: a pass of at most 4,096 words is committed whole at LAST, a larger one
cell by cell (R419). -/
def State.appendPass (s : State) (x : MirrorRx) (last : Bool) (data : List Word) : State :=
  let words := x.words ++ data
  if x.entry.extent < words.length || (last && x.entry.extent != words.length) then
    s.discardPass Kind.RED_MIRROR_BIND x.ch
  else
    let s := if x.wide then s.putChan 29 0 x.ch x.entry x.words.length data
      else if last then s.putChan 29 0 x.ch x.entry 0 words else s
    { s with red := { s.red with
      rx := if last then none else some { x with next := x.next + 1, words := words } } }

/-- A cell of channel `ch` with index `cidx` that continues a pass: the next one of the pass in progress is
taken; another is a gap, and so is one whose pass has lost its first cell (R419). -/
def State.continuePass (s : State) (ch cidx : Nat) (last : Bool) (data : List Word) : State :=
  match s.red.rx with
  | some x =>
    if x.ch = ch ∧ x.next = cidx then s.appendPass x last data
    else
      let s := s.discardPass Kind.RED_MIRROR_GAP x.ch
      if x.ch = ch then s else s.discardPass Kind.RED_MIRROR_GAP ch
  | none => if cidx = 0 || s.red.skip = some ch then s else s.discardPass Kind.RED_MIRROR_GAP ch

/-- A mirror cell waits for a way of the channel cache (R59). -/
def State.mirrorBlocked (s : State) : Bool :=
  s.tbl.blocked.any (fun x => match x with | .mirror _ => true | _ => false)

/-- What a mirror cell's payload brings (R419).  A cell that the hub discards shows that its round began
before the hub took its state (R415).  The cells behind one that waits for its channel's lookup wait too. -/
def State.mirrorArrive (s : State) (ws : List Word) : State :=
  let w0 := ws.getD 0 0
  let w1 := ws.getD 1 0
  let rev := w0.getLsbD 39
  if !((s.redSt == rdSTANDBY && !rev) || (s.redSt == rdRETURNING && rev)) then
    { s with red := { s.red with rxRound := some (wbits w1 47 16), rxWhole := false } }
  else
    let ch := wbits w0 31 16
    let cidx := wbits w1 15 0
    let s := { s with red := { s.red with revSeen := some (s.red.revSeen.getD 0) } }
    let go := fun (s : State) => s.continuePass ch cidx (w0.getLsbD 38) ((ws.drop 2).take (wbits w0 36 32 + 1))
    if s.mirrorBlocked then s.block (.mirror ws)
    else if cidx ≠ 0 then go (s.noteRound (wbits w1 47 16))
    else match s.lookup ch with
      | none => s.block (.mirror ws)
      | some (s, e) => go ((s.noteRound (wbits w1 47 16)).beginPass ch e)

/-- MIRROR_CELL_RECEIVED (R419). -/
def execMirrorCellReceived (cell : Cell) (s : State) : Result :=
  if cell.words.length ≠ 20 then .fault (.illFormed "MIRROR_CELL_RECEIVED")
  else .next (if wbits (cell.words.getD 0 0) 47 40 = 6 then s.mirrorArrive cell.words else s)

/-- VOTE_CELL_RECEIVED (R424). -/
def execVoteCellReceived (cell : Cell) (s : State) : Result :=
  if cell.words.length ≠ 20 then .fault (.illFormed "VOTE_CELL_RECEIVED")
  else .next (if wbits (cell.words.getD 0 0) 47 40 = 7 then s.voteArrive cell.f1.toNat cell.words else s)

/-! ### King-post registers (R19, R425 to R428, R522) -/

/-- A write of king-post register `r`: `MGT_MODE` is read-only, the others take writes until the lock is
set; a node number of 0x0000 or 0xFFFF changes nothing (R19). -/
def State.writeKp (s : State) (r : Nat) (v : Word) : State :=
  if s.kpLocked then s
  else match r with
    | 0 => s
    | 1 => if wbits v 15 0 = 0 || wbits v 15 0 = 0xFFFF then s else s.kpWrite 1 (word (wbits v 15 0))
    | 2 => s.kpWrite 2 (word (wbits v 7 0))
    | 3 => s.kpWrite 3 (word (wbits v 15 0))
    | _ => s.writeHome v

/-- KING_POST_WRITE. -/
def execKingPostWrite (r : Fin 5) (v : Word) (s : State) : Result := .next (s.writeKp r.val v)

/-- Record a finding about register `i` in `RED_KPSTAT` (R427). -/
def State.kpFinding (s : State) (i copy res : Nat) : State :=
  ((s.set RED_KPSTAT.LASTREG i).set RED_KPSTAT.LASTCOPY copy).set RED_KPSTAT.LASTRES res

/-- A finding that rewrites copies of register `i` with `v`. -/
def State.kpRewrite (s : State) (i copy res : Nat) (v : Word) (k : Kind) : State :=
  ((((s.setKp i (KpReg.of v)).kpFinding i copy res).inc RED_KPSTAT.REPAIRS).raise k (copy * 16 + i)).endLevel
    Kind.KEYSTONE (0x30 + i)

/-- Vote the copies of register `i` and repair them or report them (R427). -/
def State.kpVote (s : State) (i : Nat) : State :=
  let r := s.kp i
  match r.agreed with
  | some v =>
    let bad := if r.a.read ≠ some v then some 0 else if r.b.read ≠ some v then some 1
      else if r.c.read ≠ some v then some 2 else none
    match bad with
    | none => (s.setKp i (KpReg.of v)).endLevel Kind.KEYSTONE (0x30 + i)
    | some copy => s.kpRewrite i copy 1 v Kind.KP_REPAIR
  | none =>
    match r.a.read, r.b.read, r.c.read with
    | some v, none, none => s.kpRewrite i 1 2 v Kind.KP_WEAK
    | none, some v, none => s.kpRewrite i 0 2 v Kind.KP_WEAK
    | none, none, some v => s.kpRewrite i 0 2 v Kind.KP_WEAK
    | _, _, _ =>
      (((s.setKp i { r with stuck := true }).kpFinding i 3 3).raiseLevel Kind.KEYSTONE (0x30 + i)).holdRequested true

/-- A use of register `i` votes its copies: with no agreeing pair the decision is taken at once
(R427). -/
def State.useKp (s : State) (i : Nat) : State :=
  if (s.kp i).stuck || (s.kp i).agreed.isSome then s else s.kpVote i

/-- KP_SCRUB (R427): all five registers. -/
def execKpScrub (s : State) : Result := .next (s.each 5 (fun i s => s.kpVote i))

/-- Flip stored bit `b` of copy `c`. -/
def KpReg.flip (r : KpReg) (c b : Nat) : KpReg :=
  let m : BitVec 55 := BitVec.ofNat 55 (2 ^ b)
  match c with
  | 0 => { r with a := { r.a with flips := r.a.flips ^^^ m } }
  | 1 => { r with b := { r.b with flips := r.b.flips ^^^ m } }
  | _ => { r with c := { r.c with flips := r.c.flips ^^^ m } }

/-- A write of `RED_KPTEST` (R428).  Every use votes, so the value agreed before the flip is the last
agreed value after it; the hub uses its mode in every clock, so that a flip in `MGT_MODE` is decided on at
once (R427). -/
def State.kpTest (s : State) (v : Word) : State :=
  let i := wbits v 11 8
  let c := wbits v 7 6
  let b := wbits v 5 0
  if s.mode ≠ mCommission || 5 ≤ i || c = 3 || 55 ≤ b then s.redConfig
  else
    let r := s.kp i
    let r := { r.flip c b with last := if r.stuck then r.last else r.agreed.getD r.last }
    (s.setKp i r).useKp 0

/-- KP_TEST. -/
def execKpTest (v : Word) (s : State) : Result := .next (s.kpTest v)

end Sys2Proof.Machine
end

