-- ==== Sys2Proof/Machine/Mgmt.lean ====
section
/-! DEFINITION. Chapter 16: the requests of `MGT_CMD`, resets and boot, the entropy pool, references, row
repairs, nonvolatile ports, firmware update and Recovery (R474 to R498). -/

namespace Sys2Proof.Machine

/-! ### Requests (R475, R476, R486, R524) -/

/-- A request that is not allowed is ignored (R524). -/
def State.badCmd (s : State) : State := s.raise Kind.MGT_BAD_CMD 0

/-- LOCK = 1 of a write sets the king-post lock; 0 leaves it (R10, R524). -/
def State.applyLock (s : State) (lock : Bool) : State :=
  if !lock || s.on MGT_STAT.KPLOCK then s
  else ({ s with mgt := { s.mgt with lockAt := some s.now } }).set MGT_STAT.KPLOCK 1

/-- REQ 0x1: the Commission checks start (R486). -/
def State.reqJoin (s : State) : State :=
  if s.mode = mCommission ∧ ¬ s.on MGT_STAT.CHKRUN then (s.set MGT_CHK.FAIL 0).set MGT_STAT.CHKRUN 1 else s.badCmd

/-- REQ 0x2. -/
def State.reqHold (s : State) : State := if s.operating then s.holdRequested false else s.badCmd

/-- The Hold exit condition (R476). -/
def State.holdMayEnd (s : State) : Bool :=
  !s.mgt.keystoneHold && s.flt.causes.all (fun c =>
    c.kind.cls != 3 || c.kind == Kind.SYNC_LOST || !s.bit FLT_HOLDEN.SRC (c.kind.src - 1))

/-- REQ 0x3: to Join, Shadow or Run; a STANDBY hub whose twin is still missing takes over (R408, R475). -/
def State.reqLeaveHold (s : State) : State :=
  if s.mode = mHold ∧ s.holdMayEnd then
    if s.sstate ≠ ssSYNCED then s.enterMode mJoin
    else if s.redSt = rdLISTEN ∨ s.redSt = rdSTANDBY ∨ s.redSt = rdRETURNING then
      let s := s.enterMode mShadow
      if s.redSt = rdSTANDBY ∧ s.get RED_CFG.MISS ≤ s.get RED_STAT.MISSCNT then s.takeOver else s
    else s.enterMode mRun
  else s.badCmd

/-- REQ 0x4. -/
def State.reqCommission (s : State) : State :=
  if s.mode = mHold ∧ ¬ s.mgt.keystoneHold then s.enterMode mCommission else s.badCmd

/-- A write of `MGT_CMD` (R524): a reserved REQ takes the whole write away; else LOCK acts first. -/
def State.writeMgtCmd (s : State) (v : Word) : State :=
  let req := wbits v 3 0
  if 7 ≤ req then s.badCmd
  else
    let s := s.applyLock (v.getLsbD 7)
    match req with
    | 0 => s
    | 1 => s.reqJoin
    | 2 => s.reqHold
    | 3 => s.reqLeaveHold
    | 4 => s.reqCommission
    | 5 => s.hubReset 4 true
    | _ => s.hubReset 4 false

/-- REQUEST_JOIN and the other requests: a write of `MGT_CMD`, with or without LOCK. -/
def execRequestJoin (lock : Bool) (s : State) : Result := .next (s.applyLock lock).reqJoin

/-- REQUEST_HOLD. -/
def execRequestHold (lock : Bool) (s : State) : Result := .next (s.applyLock lock).reqHold

/-- LEAVE_HOLD. -/
def execLeaveHold (lock : Bool) (s : State) : Result := .next (s.applyLock lock).reqLeaveHold

/-- REQUEST_COMMISSION. -/
def execRequestCommission (lock : Bool) (s : State) : Result := .next (s.applyLock lock).reqCommission

/-- RESET_INTO_RECOVERY. -/
def execResetIntoRecovery (lock : Bool) (s : State) : Result := .next ((s.applyLock lock).hubReset 4 true)

/-- RESET_REQUEST. -/
def execResetRequest (lock : Bool) (s : State) : Result := .next ((s.applyLock lock).hubReset 4 false)

/-- SET_LOCK. -/
def execSetLock (s : State) : Result := .next (s.applyLock true)

/-- All three copies of a king-post register are intact and equal. -/
def KpReg.equal (r : KpReg) : Bool := r.a.read.isSome && r.a.read == r.b.read && r.b.read == r.c.read

/-- Which Commission checks fail, as bits of `MGT_CHK` (R486); the outcomes of the lane loopbacks and of
the tenon self-tests come from outside, and a store with an uncorrectable word fails its test (R224). -/
def State.failedChecks (s : State) (lanesOk tenonsOk : Bool) : Nat :=
  let fails : List Bool :=
    [s.bit MGT_STRAP.STRAP 3 || !s.bit SPR_STAT.REFOK (s.get SPR_STAT.REFUSE),
     s.get SUP_STAT.BELOW != 0
       || (List.range 32).any (fun b => s.bit SUP_BANKST.BELOW b && s.get (BAY_CTL.BANK b) != 0),
     s.node == 0 || s.node == 0xFFFF,
     !s.on MGT_STAT.KPLOCK,
     s.homeSel == 1 && !(s.tbl.ddr0 && s.tbl.ddr1 && s.homeUp),
     !lanesOk && (List.range 4).any (fun p => s.on (RINGP_CTL.EN p)),
     !tenonsOk || (List.range 32).any (fun b => (List.range 4).any (fun l =>
       !(inStore s.tenUe b (s.physical b l)).isEmpty)),
     !(List.range 5).all (fun i => (s.kp i).equal),
     !s.on RNG_STATUS.READY]
  (List.range 9).foldl (fun n i => n + (fails.getD i false).toNat * 2 ^ i) 0

/-- COMMISSION_CHECKS_DONE (R486). -/
def execCommissionChecksDone (lanesOk tenonsOk : Bool) (s : State) : Result :=
  if !s.on MGT_STAT.CHKRUN then .next s
  else
    let fail := s.failedChecks lanesOk tenonsOk
    let s := (s.set MGT_CHK.FAIL fail).set MGT_STAT.CHKRUN 0
    .next (if fail = 0 then (s.enterMode mJoin).tryLeaveJoin else s.raise Kind.COMMISSION_FAIL fail)

/-! ### Resets and boot (R451, R480 to R485, R489) -/

/-- The straps are sampled at the rise of RESET_N (R480). -/
def State.sampleStraps (s : State) (straps : Nat) : State :=
  ((s.set MGT_STRAP.STRAP straps).set SPR_CTL.REFSEL (straps % 2)).set SPR_STAT.REFUSE (straps % 2)

/-- RESET_N: low, and its rise with the levels of the strap balls. -/
def execResetN (straps : BitVec 4) (s : State) : Result := .next ((s.hubReset 1 false).sampleStraps straps.toNat)

/-- SUPPLY_RESET (R447, R451): supervised inputs fall below their second thresholds. -/
def execSupplyReset (inputs : BitVec 7) (s : State) : Result :=
  let m := if s.on SUP_CTL.SMEN then inputs.toNat else inputs.toNat % 64
  .next (if m = 0 then s else (s.hubReset 2 false).set SUP_LATCH.RSTBY m)

/-- The copy that holds the newest boot-control record of a port (R483). -/
def State.newestBcr (s : State) (port : Nat) : Option Nat :=
  match Tab.get none s.mgt.bcr (2 * port), Tab.get none s.mgt.bcr (2 * port + 1) with
  | some a, some b => if 0 < halfRange 32 b.seqno a.seqno then some 1 else some 0
  | some _, none => some 0
  | none, some _ => some 1
  | none, none => none

/-- The newest boot-control record; with none, bank A is active and no trial runs (R485). -/
def State.bootRecord (s : State) (port : Nat) : Bcr :=
  match s.newestBcr port with
  | none => .mk 0 false false true false true
  | some c => (Tab.get none s.mgt.bcr (2 * port + c)).getD (.mk 0 false false true false true)

/-- Write a boot-control record to the copy that does not hold the newest one, with the next SEQ (R483). -/
def State.writeBcr (s : State) (port : Nat) (b : Bcr) : State :=
  let c := match s.newestBcr port with | some 0 => 1 | _ => 0
  let b := { b with seqno := ((s.bootRecord port).seqno + 1) % 2 ^ 32 }
  { s with mgt := { s.mgt with bcr := Tab.put none s.mgt.bcr (2 * port + c) (some b) } }

/-- `fallback` of R485: the previous bank and its settings become the active ones. -/
def Bcr.fellBack (b : Bcr) : Bcr := { b with active := b.prev, trial := false, seta := b.setp }

/-- Restore a feed (R453). -/
def State.restoreFeed (s : State) (f lgseq : Nat) (r : RetFeed) : State :=
  let s := (s.set (FEED_ENERGY.E f) r.energy).set (FEED_TSEL.TARIFF f) r.tsel
  let s := s.each 4 (fun t s => s.set (FEED_TARIFF.E f t) (r.tariffs.getD t 0))
  let s := (s.set (FEED_MAXDEM.P f) r.maxdem).set (FEED_MAXDEM.TARIFF f) (r.maxdem / 2 ^ 46)
  let s := ((s.set (FEED_SNAP.WARN f) r.snap).set (FEED_SNAP.INTEND f) (r.snap / 2)).set (FEED_SNAP.TARIFFSW f) (r.snap / 4)
  let s := (s.set (FEED_SNAP.COINCIDENT f) (r.snap / 8)).set (FEED_SNAP.LGSEQ f) lgseq
  if r.elapsed = 0 then s
  else (((s.set (FEED_LASTINT.PARTIAL f) 1).set (FEED_LASTINT.DUR f) (r.elapsed / 1000)).set (FEED_LASTINT.E f)
    r.interval).raise Kind.DEMAND_PARTIAL f

/-- Restore a bay (R231): the map, and the states that follow from it and from the retired tenons (R209). -/
def State.restoreBay (s : State) (b : Nat) (r : Nat × Nat) : State :=
  let s := [BAY_MAP.SPARE b, BAY_MAP.L3 b, BAY_MAP.L2 b, BAY_MAP.L1 b, BAY_MAP.L0 b].foldl
    (fun s f => s.set f (r.1 / 2 ^ f.lsb)) s
  s.each 5 (fun t s => s.set (TEN_STAT.STATE b t)
    (if r.2.testBit t then tnFAILED else if (s.logical b t).isSome then tnSTOPPED else tnSTANDBY))

/-- Restore a retention record (R489): a spare buffer bank that was in service stays so (R332). -/
def State.restore (s : State) (r : Retention) : State :=
  let s := ((List.range 32).zip r.feeds).foldl (fun s x => s.restoreFeed x.1 r.lgseq x.2) s
  let s := ((List.range 32).zip r.bays).foldl (fun s x => s.restoreBay x.1 x.2) s
  let s := if r.xstate = 3 then (s.set XBAR_SPARE.STATE 3).set XBAR_SPARE.SERVES r.xserves else s
  let s := (s.set SPR_STAT.REFUSE r.refuse).set SPR_CTL.REFSEL r.refuse
  let s := if s.get SPR_STAT.NVUSE = 1 then s else s.set SPR_STAT.NVUSE r.nvuse
  { s with mgt := { s.mgt with repairs := r.repairs, lgseq := r.lgseq } }

/-- Start-up's restoration: of the newest valid record of the port in service (R489). -/
def State.restoreNewest (s : State) : State :=
  let port := s.get SPR_STAT.NVUSE % 2
  match s.newestSlot port with
  | none => s.raise Kind.RETAIN_NONE 0
  | some i =>
    match Tab.get none s.mgt.slots (2 * port + i) with
    | none => s.raise Kind.RETAIN_NONE 0
    | some r => s.restore r

/-- A transition out of Reset: its MODE_CHANGE is the first record after the reset (R475). -/
def State.leaveReset (s : State) (m : Nat) : State :=
  { s with mgt := { s.mgt with booting := false } }.takeMode m 7

/-- The first bank of `banks` whose image verifies, and whether it was the first one tried. -/
def firstVerified (verified : BitVec 4) (port : Nat) : List Bool → Option Bool
  | [] => none
  | b :: rest => if verified.getLsbD (2 * port + b.toNat) then some b else firstVerified verified port rest

/-- The ROM boots bank `bank` of a port; `alt` where it was not the first tried, `fell` where a trial was
given up (R485). -/
def State.bootImage (s : State) (port : Nat) (bank alt fell : Bool) : State :=
  let s := s.leaveReset mCommission
  let s := ((s.set MGT_STAT.BOOTPORT port).setB MGT_STAT.BOOTBANK bank).setB MGT_STAT.BOOTALT alt
  let s := s.set MGT_FWSTAT.VERSION (Tab.get 0 s.mgt.images (2 * port + bank.toNat))
  let s := { s with mgt := { s.mgt with runs := bank } }
  let s := if alt then s.raise Kind.BOOT_ALT 0 else s
  let s := if fell then s.raise Kind.FW_FALLBACK 0 else s
  s.restoreNewest

/-- The ROM enters Recovery; a start-up into Recovery reads the retention slots too (R489). -/
def State.startRecovery (s : State) : State := (s.leaveReset mRecovery).restoreNewest

/-- Try the ports in their order (R485). -/
def State.tryPorts (s : State) (verified : BitVec 4) (first fell : Bool) : List Nat → State
  | [] => s.startRecovery
  | port :: rest =>
    let b := s.bootRecord port
    let s := if b.trial then s.writeBcr port b.fellBack else s
    let fell := fell || b.trial
    let b := if b.trial then b.fellBack else b
    match firstVerified verified port [b.active, !b.active] with
    | some bank => s.bootImage port bank (!first || bank != b.active) fell
    | none => s.tryPorts verified false fell rest

/-- BOOT (R485): `verified` says which images verify, bank A of NV0 in bit 0, bank B in bit 1, those of
NV1 in bits 2 and 3. -/
def execBoot (verified : BitVec 4) (s : State) : Result :=
  if !s.mgt.booting then .next s
  else
    let nv1 := s.bit MGT_STRAP.STRAP 2
    let s := s.set SPR_STAT.NVUSE nv1.toNat
    .next (if s.bit MGT_STRAP.STRAP 1 || s.mgt.toRecovery then s.startRecovery
      else s.tryPorts verified true false (if nv1 then [1, 0] else [0, 1]))

/-! ### Entropy (R306, R482) -/

/-- ENTROPY_READY: the pool first holds 384 bits; ports that wait for it draw their nonces. -/
def execEntropyReady (s : State) : Result :=
  if s.on RNG_STATUS.READY then .next s
  else
    let s := (s.set RNG_STATUS.BITS 384).set RNG_STATUS.READY 1
    let s := s.each 4 (fun p s => (s.judgeSubs p).drawNonce p)
    .next s.tryLeaveJoin

/-- RNG_HEALTH: a continuous test fails; the pool is discarded and ports that are to be sealed go down. -/
def execRngHealth (s : State) : Result :=
  let s := ((s.set RNG_STATUS.READY 0).set RNG_STATUS.BITS 0).raise Kind.RNG_HEALTH 0
  .next (s.each 4 (fun p s => s.judgeSubs p))

/-- ENTROPY: the pool is not ready 50 ms after the reset. -/
def execEntropy (s : State) : Result :=
  let due := s.mgt.resetAt + msTicks 50
  if s.on RNG_STATUS.READY || due < s.now then .next s
  else .next ((s.waitUntil due).raise Kind.ENTROPY 0)

/-- What a read of `RNG_DATA` returns and takes; nonces that wait come first. -/
def State.readRng (s : State) : State × Word :=
  let s := s.serveNonces.refillPool
  if s.on RNG_STATUS.READY && decide (32 ≤ s.get RNG_STATUS.BITS) then
    let v := (Config.entropy s.free).toNat % 2 ^ 32
    ((s.set RNG_STATUS.BITS (s.get RNG_STATUS.BITS - 32)).draw, word (2 ^ 47 + v))
  else (s, 0)

/-! ### References (R490) -/

/-- The hub runs from reference `r`. -/
def State.switchRef (s : State) (r : Nat) : State :=
  ({ s with mgt := { s.mgt with holdover := false } }.set SPR_STAT.REFUSE r).raise Kind.REF_SWITCH r

/-- REFERENCE_LOSS: the PLL holds over, and switches where the lost reference was in use and the other
one is good. -/
def execReferenceLoss (r : Fin 2) (s : State) : Result :=
  let R := r.val
  let s := s.setBit SPR_STAT.REFOK R false
  let s := s.raiseLevel Kind.REF_LOST R
  let s : State := if s.get SPR_STAT.REFUSE ≠ R then s
    else if s.bit SPR_STAT.REFOK (1 - R) then s.switchRef (1 - R)
    else { s with mgt := { s.mgt with holdover := true } }
  .next (if s.get SPR_STAT.REFOK = 0 then s.raiseLevel Kind.REF_NONE (s.get SPR_STAT.REFUSE) else s)

/-- REFERENCE_RETURN: a PLL that holds over takes the reference that is good again. -/
def execReferenceReturn (r : Fin 2) (s : State) : Result :=
  let R := r.val
  let s := (s.setBit SPR_STAT.REFOK R true).endLevel Kind.REF_LOST R
  let s := (s.endLevel Kind.REF_NONE 0).endLevel Kind.REF_NONE 1
  .next (if !s.mgt.holdover then s
    else if s.get SPR_STAT.REFUSE = R then { s with mgt := { s.mgt with holdover := false } }
    else s.switchRef R)

/-- A write of `SPR_CTL`: another REFSEL asks for a switch at the next matrix boundary. -/
def State.writeSprCtl (s : State) (v : Word) : State :=
  let s := ((s.set SPR_CTL.CELIM (wbits v 15 8)).set SPR_CTL.REFSEL (wbits v 1 1)).set SPR_CTL.AUTO (wbits v 0 0)
  { s with mgt := { s.mgt with refSwitch := wbits v 1 1 != s.get SPR_STAT.REFUSE } }

/-- A commanded switch at a matrix boundary, provided the reference is good. -/
def State.refBoundary (s : State) : State :=
  let sel := s.get SPR_CTL.REFSEL
  let due := s.mgt.refSwitch && sel != s.get SPR_STAT.REFUSE && s.bit SPR_STAT.REFOK sel
  let s := { s with mgt := { s.mgt with refSwitch := false } }
  if due then s.switchRef sel else s

/-! ### SRAM rows (R487, R488) -/

/-- A write of `SPR_ROWREP`. -/
def State.writeRowRep (s : State) (v : Word) : State :=
  let s := (s.set SPR_ROWREP.BANK (wbits v 28 22)).set SPR_ROWREP.ROW (wbits v 21 0)
  if v.getLsbD 31 then s.requestRow (wbits v 28 22) (wbits v 21 0) else s

/-- ROW_REPAIR_GO: a write of `SPR_ROWREP` with GO = 1. -/
def execRowRepairGo (v : Word) (s : State) : Result := .next (s.writeRowRep (v ||| 0x80000000))

/-- A matrix boundary: an armed repair begins to copy, for 512 ticks. -/
def State.rowBoundary (s : State) : State :=
  if s.get SPR_ROWREP.STATE = 1 then
    ({ s with mgt := { s.mgt with repairEnd := s.now + 512 } }).set SPR_ROWREP.STATE 2
  else s

/-- SRAM_REPAIRED: the copy is complete and the row remapped. -/
def execSramRepaired (s : State) : Result :=
  match s.mgt.repairing with
  | none => .next s
  | some x =>
    if s.get SPR_ROWREP.STATE ≠ 2 then .next s
    else
      let s := s.waitUntil s.mgt.repairEnd
      let s := { s with mgt := { s.mgt with repairs := s.mgt.repairs ++ [x], repairing := none } }
      .next ((s.set SPR_ROWREP.STATE 0).raise Kind.SRAM_REPAIRED (x.bank * 2 ^ 22 + x.row))

/-- NV_SWITCH (R491): an access on a nonvolatile port fails. -/
def execNvSwitch (port : Fin 2) (s : State) : Result := .next (s.nvFails port.val)

/-! ### Firmware update (R492 to R494) -/

/-- States of `MGT_FWSTAT`. -/
def fwIDLE : Nat := 0
def fwVERIFYING : Nat := 1
def fwVERIFIED : Nat := 2
def fwARMED : Nat := 3
def fwTRIAL : Nat := 4
def fwFAILED : Nat := 5
def State.fwState (s : State) : Nat := s.get MGT_FWSTAT.STATE

/-- Note the image of a bank on both ports. -/
def State.putImage (s : State) (bank : Bool) (version : Nat) : State :=
  { s with mgt := { s.mgt with
    images := Tab.put 0 (Tab.put 0 s.mgt.images bank.toNat version) (2 + bank.toNat) version } }

/-- START = 1: the bank that does not run is erased. -/
def State.imageStart (s : State) : State :=
  ({ s with mgt := { s.mgt with upload := [] } }.putImage (!s.mgt.runs) 0).set MGT_IMGCTL.COUNT 0

/-- IMAGE_START. -/
def execImageStart (s : State) : Result := .next s.imageStart

/-- A write of `MGT_IMGDATA`. -/
def State.imageData (s : State) (v : Word) : State :=
  ({ s with mgt := { s.mgt with upload := v :: s.mgt.upload } }).set MGT_IMGCTL.COUNT (s.get MGT_IMGCTL.COUNT + 1)

/-- IMAGE_DATA. -/
def execImageData (v : Word) (s : State) : Result := .next (s.imageData v)

/-- VERIFY = 1: the check begins, where no check, handover or trial is under way. -/
def State.fwVerify (s : State) : State :=
  if s.fwState = fwIDLE ∨ s.fwState = fwVERIFIED ∨ s.fwState = fwFAILED then s.set MGT_FWSTAT.STATE fwVERIFYING else s

/-- FW_VERIFY. -/
def execFwVerify (s : State) : Result := .next s.fwVerify

/-- VERSION of the words written so far: bytes 4 to 7 (R484). -/
def State.uploadVersion (s : State) : Nat :=
  let ws := s.mgt.upload.reverse
  wordAt ws 0 % 2 ^ 16 * 2 ^ 16 + wordAt ws 1 / 2 ^ 32

/-- A verified Recovery download is written to bank A of both ports, and the hub resets 1 ms later; a
download beside the one kept is refused (R495). -/
def State.keepDownload (s : State) (version : Nat) : State :=
  if s.mgt.rcvReset.isSome then s
  else
    let s := s.putImage false version
    let s := (List.range 2).foldl (fun s port =>
      s.writeBcr port { s.bootRecord port with active := false, trial := false }) s
    { s with mgt := { s.mgt with rcvReset := some (s.now + msTicks 1) } }

/-- VERIFY_COMPLETE (R492); in Recovery the image is a download over PCIe (R495). -/
def execVerifyComplete (ok : Bool) (s : State) : Result :=
  if s.fwState ≠ fwVERIFYING then .next s
  else if ok then
    let s := s.set MGT_FWSTAT.STATE fwVERIFIED
    .next (if s.mode = mRecovery then s.keepDownload s.uploadVersion else s.putImage (!s.mgt.runs) s.uploadVersion)
  else
    let s := (s.set MGT_FWSTAT.STATE fwFAILED).raise Kind.FWVERIFY_FAIL 0
    .next (if s.mode = mRecovery then s.raise Kind.RCV_BAD 0 else s)

/-- HANDOVER = 1 in VERIFIED (R493): the trial record names the new bank, with the settings area that the
old one does not use. -/
def State.fwHandover (s : State) : State :=
  if s.fwState ≠ fwVERIFIED then s
  else
    let port := s.get SPR_STAT.NVUSE % 2
    let old := s.bootRecord port
    (s.writeBcr port { old with
      active := !s.mgt.runs, prev := s.mgt.runs, trial := true, seta := !old.seta, setp := old.seta }).set
      MGT_FWSTAT.STATE fwARMED

/-- HANDOVER. -/
def execHandover (s : State) : Result := .next s.fwHandover

/-- CONFIRM = 1 in TRIAL (R494): it wins against the expiry of CONFTO in the same tick, and comes too late
for any other fall-back that is due. -/
def State.fwConfirm (s : State) : State :=
  let due := match s.mgt.fallback with
    | none => false
    | some t => t != s.now + 1
  if s.fwState ≠ fwTRIAL || due then s
  else
    let port := s.get SPR_STAT.NVUSE % 2
    let s := s.writeBcr port { s.bootRecord port with trial := false }
    let s := { s with mgt := { s.mgt with fallback := none } }
    (s.set MGT_FWSTAT.STATE fwIDLE).raise Kind.FW_CONFIRMED 0

/-- CONFIRM. -/
def execConfirm (s : State) : Result := .next s.fwConfirm

/-- A write of `MGT_FWCTL`: CONFTO of 0 is reserved. -/
def State.writeFwCtl (s : State) (v : Word) : State :=
  if wbits v 31 16 = 0 then s
  else
    let s := s.set MGT_FWCTL.CONFTO (wbits v 31 16)
    let s := if v.getLsbD 2 then s.fwConfirm else s
    let s := if v.getLsbD 1 then s.fwHandover else s
    if v.getLsbD 0 then s.fwVerify else s

/-- A fall-back is due at the next boundary. -/
def State.fallBack (s : State) (mark : Nat) : State :=
  if s.fwState = fwTRIAL && s.mgt.fallback.isNone then { s with mgt := { s.mgt with fallback := some mark } } else s

/-- FW_FALLBACK: CONFTO minutes pass in TRIAL without CONFIRM. -/
def execFwFallback (s : State) : Result :=
  if s.fwState ≠ fwTRIAL then .next s
  else
    let s := s.waitUntil (s.mgt.trialStart + msTicks (60000 * s.get MGT_FWCTL.CONFTO))
    .next (s.fallBack (s.now + 1))

/-- NEW_FIRMWARE_NOT_RUNNING: 2 ms after the handover. -/
def execNewFirmwareNotRunning (s : State) : Result :=
  let due := s.mgt.trialStart + msTicks 2
  if s.fwState ≠ fwTRIAL || due < s.now then .next s else .next ((s.waitUntil due).fallBack 0)

/-- The firmware failed: in TRIAL the hub falls back, else the firmware restarts in place, and a second
failure within 1 s resets the hub (R494). -/
def State.fwFails (s : State) (cause : Nat) : State :=
  if s.fwState = fwTRIAL then s.fallBack 0
  else
    match s.mgt.restarted with
    | some t => if s.now - t ≤ msTicks 1000 then s.hubReset cause false
        else { s with mgt := { s.mgt with restarted := some s.now } }
    | none => { s with mgt := { s.mgt with restarted := some s.now } }

/-- WATCHDOG_EXPIRY. -/
def execWatchdogExpiry (s : State) : Result := .next (s.fwFails 3)

/-- LOCKSTEP_DISAGREEMENT. -/
def execLockstepDisagreement (s : State) : Result := .next (s.fwFails 5)

/-- A matrix boundary: a handover takes place, or a fall-back (R493, R494). -/
def State.fwBoundary (s : State) : State :=
  let port := s.get SPR_STAT.NVUSE % 2
  if s.fwState = fwARMED then
    let bank := !s.mgt.runs
    let s := { s with mgt := { s.mgt with runs := bank, trialStart := s.now, fallback := none } }
    (s.set MGT_FWSTAT.STATE fwTRIAL).set MGT_FWSTAT.VERSION (Tab.get 0 s.mgt.images (2 * port + bank.toNat))
  else if s.fwState = fwTRIAL && s.mgt.fallback.isSome then
    let s := s.writeBcr port (s.bootRecord port).fellBack
    let bank := !s.mgt.runs
    let s := { s with mgt := { s.mgt with runs := bank, fallback := none } }
    ((s.set MGT_FWSTAT.STATE fwIDLE).set MGT_FWSTAT.VERSION (Tab.get 0 s.mgt.images (2 * port + bank.toNat))).raise
      Kind.FW_FALLBACK 0
  else s

/-! ### Recovery (R495) -/

/-- RECOVERY_DOWNLOAD: a download over one of the three paths is complete. -/
def execRecoveryDownload (path : RecoveryPath) (ok : Bool) (version : BitVec 32) (s : State) : Result :=
  if s.mode ≠ mRecovery then .next s
  else if !ok then .next (s.raise Kind.RCV_BAD 0)
  else
    match path with
    | .pcie => .next (s.keepDownload s.uploadVersion)
    | .eth4 => .next (s.keepDownload version.toNat)
    | .uart => .next (s.keepDownload version.toNat)

/-- RECOVERY_RESET. -/
def execRecoveryReset (s : State) : Result :=
  match s.mgt.rcvReset with
  | none => .next s
  | some t =>
    let s := s.waitUntil t
    .next (s.draw.hubReset (Config.recoveryCause s.free).val false)

end Sys2Proof.Machine
end

