-- ==== Sys2Proof/Machine/Boundary.lean ====
section
/-! DEFINITION. Chapter 11: the start of a basic cycle and the matrix boundary, with what every block does
at them (R335, R337, R368, R369, R371). -/

namespace Sys2Proof.Machine

/-! ### Running to a cycle start -/

/-- Run until basic cycle `k` is over: tick by tick while a slew moves the position, else at once. -/
def State.tickTo (s : State) (k : Nat) : Nat → State
  | 0 => s
  | fuel + 1 =>
    if s.cycKey ≠ k then s
    else if s.cyc.slew = 0 ∨ s.cyc.slewWin = 0 then s.advance (s.bc - s.cyc.offset)
    else (s.advance 1).tickTo k fuel

/-- Run to the start of the next basic cycle: a slew moves the position by 64 ticks at most (R358). -/
def State.runToCycle (s : State) : State :=
  (s.advance (min s.cyc.slewWin (s.bc - s.cyc.offset - 129))).tickTo s.cycKey 400

/-- Run to the next matrix boundary. -/
def State.runToBoundary (s : State) : State :=
  let s := s.runToCycle
  if s.cycNow = 0 then s else s.advance ((s.matrixLen - s.cycNow) * s.bc - s.cyc.offset)

/-! ### The end of a basic cycle -/

/-- Whether the sync cells of the ended cycle leave a matrix valid (R368): cells from MINSYNC slots, or
from one where all had CS = 1. -/
def State.cycleValid (s : State) : Bool :=
  decide (s.get CYC_LIMIT.MINSYNC ≤ s.cyc.rxSlots.length) || (!s.cyc.rxSlots.isEmpty && !s.cyc.anyNoCs)

/-- What the end of the basic cycle before the running one decides: neighbours (R301, R348), the sync
cells of the cycle (R368, R369), the duplicate store (R347), substitutions (R229), the twin (R407). -/
def State.endCycle (s : State) : State :=
  let exp := s.ttExpected s.cycPrev
  let s := s.each 4 (fun p s => s.ringCycle p (exp && (p == 1 || p == 2)))
  let s := { s with cyc := { s.cyc with
    ended := some s.cycKey
    valid := s.cyc.valid && s.cycleValid
    csMatrix := s.cyc.csMatrix && s.cyc.csOther
    dups := s.cyc.dups.filter (fun (e : DupEntry) => decide (s.cyc.ncyc ≤ e.cycle)) } }
  (s.each 32 (fun b s => s.disarmSwap b)).redCycle

/-- End the cycle before the running one, where that has not been done. -/
def State.endDue (s : State) : State := if s.cyc.ended = some s.cycKey then s else s.endCycle

/-! ### The start of a basic cycle -/

/-- The guardians judge the cycle's start by their own count (R352). -/
def State.judgeStart (s : State) : State :=
  match s.cyc.startedAt with
  | none => s
  | some t =>
    let far := decide ((s.bc : Int) < ((s.now - t : Nat) - (s.bc : Int)).natAbs * 1024)
    s.each 4 (fun p s =>
      if far then s.tripGuard p
      else if !s.bit CYC_GUARD.TRIP p then s
      else
        let n := Tab.get 0 s.cyc.grdGood p + 1
        let s := { s with cyc := { s.cyc with grdGood := Tab.put 0 s.cyc.grdGood p (n % 2) } }
        if n = 2 then (s.setBit CYC_GUARD.TRIP p false).endLevel Kind.GUARD_TRIP p else s)

/-- Each tenant's admissions count from 0 (R326), and cells of other nodes count for one cycle more
(R316). -/
def State.newQuotas (s : State) : State :=
  let s := s.each 16 (fun n s => (s.set (XBAR_TSTAT.ADMITTED n) 0).judgeOver n)
  { s with xbar := { s.xbar with ctlUsed := 0, seenPrev := s.xbar.seenNow, seenNow := [] } }

/-- The part of the remaining slew that this basic cycle takes (R364). -/
def State.slewCycle (s : State) : State :=
  { s with cyc := { s.cyc with
    rtSlew := clampInt (s.get CYC_STEP.SLEW) (s.getInt CYC_STEERST.REMAIN), rtWin := s.bc - s.cyc.offset } }

/-- The snapshots of pinned COUNTER channels (R208). -/
def State.counterSnapshots (s : State) : State :=
  s.each 32 (fun b s => s.each 4 (fun l s =>
    s.writeLive (bayPort b) (fun e => e.type == tCOUNTER && e.bay == b && e.tenon == l)
      [s.cntNow b (s.physical b l)]))

/-- What the start of a basic cycle does in every block. -/
def State.startCycle (s : State) : State :=
  let s := s.judgeStart
  let s := { s with cyc := { s.cyc with
    started := some s.cycKey, ncyc := s.cyc.ncyc + 1, startedAt := some s.now, devs := [], seenA := [], seenB := []
    rxSlots := [], anyNoCs := false, csOther := false, corrected := false, steerSlot := none } }
  let s := (s.newQuotas.slewCycle.queueSummaries.drainSummaries.signalPending)
  let s := (s.each 4 (fun d s => s.phaseCycle d)).counterSnapshots
  let s := s.sendSync.serveNonces
  let s := s.each 4 (fun p s => s.keyCycle p)
  s.deliverAll.tryLeaveJoin

/-- BASIC_CYCLE_START (R337): of the running cycle where its start is still due, else of the next. -/
def execBasicCycleStart (s : State) : Result :=
  let s := if s.cyc.started = some s.cycKey then s.runToCycle else s
  .next s.endDue.startCycle

/-! ### The matrix boundary -/

/-- The hub enters COLDSTART (R369): its cycle position begins anew at this tick. -/
def State.coldStart (s : State) : State :=
  let begun := s.cyc.started = some s.cycKey
  let s := ((s.set CYC_STAT.MSEQ 0).set CYC_STAT.CYC 0).raise Kind.COLDSTART s.node
  let s := { s with cyc := { s.cyc with
    offset := 0, bnd := some 0, ended := some 0, started := if begun then some 0 else none
    stopped := false, listening := false, listenCnt := 0, csMatrix := false } }
  (s.set CYC_STAT.JOINOK 1).set CYC_STAT.SSTATE ssCOLDSTART

/-- The count of whole matrices that a cold-start hub listens (R369). -/
def State.listenBoundary (s : State) : State :=
  if s.on CYC_CTL.CS && s.on CYC_CTL.SYNC && s.mode == mJoin && s.sstate == ssLISTEN then
    let n := if s.cyc.listening then s.cyc.listenCnt + 1 else 0
    let s := { s with cyc := { s.cyc with listening := true, listenCnt := n } }
    if s.get CYC_LIMIT.LISTEN ≤ n then s.coldStart else s
  else { s with cyc := { s.cyc with listening := false, listenCnt := 0 } }

/-- A hub in INTEGRATE after a valid matrix, or one in COLDSTART that has heard another slot in every
cycle of it, is SYNCED (R368, R369); a new matrix is observed. -/
def State.syncBoundary (s : State) : State :=
  let s := if s.sstate = ssINTEGRATE ∧ s.cyc.observing ∧ s.cyc.valid then (s.set CYC_STAT.JOINOK 1).synced
    else if s.sstate = ssCOLDSTART ∧ s.cyc.csMatrix then s.synced
    else s
  { s with cyc := { s.cyc with
    observing := s.sstate == ssINTEGRATE, valid := s.sstate == ssINTEGRATE, csMatrix := s.sstate == ssCOLDSTART } }

/-- An activation that is due (R342). -/
def State.tableBoundary (s : State) : State :=
  if s.cyc.amPend && decide (halfRange 32 s.cyc.am s.mseq ≤ 0) then s.activate else s

/-- The rate correction (R359). -/
def State.rateBoundary (s : State) : State :=
  let r := s.getInt CYC_OFFS.RATE + rnd (s.cyc.csum * 2 ^ 32) (256 * s.matrixLen * s.bc : Nat)
  { s with cyc := { s.cyc with csum := 0 } }.setInt CYC_OFFS.RATE (clampInt 2147484 r)

/-- The recorded steering announcement applies at matrix STAPPLY: a slew or a re-epoch (R364, R365). -/
def State.steerBoundary (s : State) : State :=
  match s.cyc.steer with
  | none => s
  | some x =>
    if x.apply ≠ s.mseq then s
    else
      let s := { s with cyc := { s.cyc with steer := none } }
      if x.off.natAbs < s.get CYC_STEP.THRESH then (s.setInt CYC_STEERST.REMAIN x.off).slewCycle
      else ((s.setInt CYC_STEERST.REMAIN 0).slewCycle).reEpoch x.off

/-- After a disagreement the hub adopts the label of the lowest sync slot of the matrix, at its distance
from what TICKS was before step 3 (R366, R371). -/
def State.labelBoundary (s : State) (t0 : Nat) : State :=
  let due := s.cyc.labelDue
  let l := s.cyc.label
  let s := { s with cyc := { s.cyc with labelDue := false, label := none } }
  match l with
  | some (_, g, dist) => if due then s.adopt g (shiftTicks t0 dist) else s
  | none => s

/-- Swaps and spares of the other blocks (R371, step 5). -/
def State.spareBoundary (s : State) : State :=
  let s := s.each 4 (fun p s => s.ringBoundary p)
  let s := s.each 32 (fun b s => s.armSwap b)
  s.drainBank.rowBoundary.refBoundary

/-- Counts kept per matrix begin anew (R227, R332, R487). -/
def State.newMatrix (s : State) : State :=
  { s with
    eng := Tab.mapVals Eng.reset (fun e => { e with ceCount := 0 }) s.eng
    xbar := { s.xbar with ceMatrix := [], worn := [] }
    mgt := { s.mgt with bankMatrix := [], bankWorn := [] } }

/-- What happens at a matrix boundary, in the order of R371. -/
def State.boundary (s : State) : State :=
  let s := { s.endDue with cyc := { s.endDue.cyc with bnd := some s.mseq } }
  let s := s.listenBoundary.syncBoundary.tableBoundary.rateBoundary
  let t0 := s.ticks
  let s := (s.steerBoundary.labelBoundary t0).spareBoundary.fwBoundary.newMatrix.redBoundary
  (s.each 4 (fun p s => s.askDelay p)).tryLeaveJoin

/-- MATRIX_BOUNDARY (R371): of the running matrix where its boundary is still due, else the next. -/
def execMatrixBoundary (s : State) : Result :=
  let here := s.cycNow = 0 ∧ s.cyc.bnd ≠ some s.mseq
  .next (if here then s else s.runToBoundary).boundary

end Sys2Proof.Machine
end

