-- ==== Sys2Proof/Machine/RegMap.lean ====
section
/-! DEFINITION. The register map (R518): the fields of the register at each offset of channel 0xFFFF, block by
block; an offset with no implemented register has none (R29). -/

namespace Sys2Proof.Machine

/-- The management and king-post registers (R429, R496). -/
def fieldsMgt (o : Nat) : List Field :=
  match o with
  | 0x01 => [MGT_CMD.LOCK, MGT_CMD.REQ]
  | 0x02 => [MGT_STAT.KPLOCK, MGT_STAT.RSTCAUSE, MGT_STAT.BOOTPORT, MGT_STAT.BOOTBANK, MGT_STAT.BOOTALT, MGT_STAT.PREVMODE, MGT_STAT.CHKRUN]
  | 0x03 => [MGT_STRAP.STRAP]
  | 0x04 => [MGT_CHK.FAIL]
  | 0x05 => [MGT_FWCTL.CONFTO, MGT_FWCTL.CONFIRM, MGT_FWCTL.HANDOVER, MGT_FWCTL.VERIFY]
  | 0x06 => [MGT_FWSTAT.VERSION, MGT_FWSTAT.STATE]
  | 0x08 => [MGT_IMGCTL.START, MGT_IMGCTL.COUNT]
  | 0x09 => [MGT_IMGDATA.DATA]
  | 0x10 => [MGT_MODE.MODE]
  | 0x11 => [MGT_NODE.NODE]
  | 0x12 => [MGT_CLAIM.CLAIM]
  | 0x13 => [MGT_GSLOT.GNODE]
  | 0x20 => [RNG_STATUS.BITS, RNG_STATUS.READY]
  | 0x21 => [RNG_DATA.VALID, RNG_DATA.DATA]
  | _ => []

/-- The supply registers (R455). -/
def fieldsSup (o : Nat) : List Field :=
  if 0x08 ≤ o ∧ o < 0x0C then [SUP_GRP.BUDGET (o - 0x08)]
  else if 0x0C ≤ o ∧ o < 0x10 then [SUP_GSTAT.USED (o - 0x0C), SUP_GSTAT.QLEN (o - 0x0C)]
  else match o with
  | 0x00 => [SUP_CTL.SMEN, SUP_CTL.WARNPCT, SUP_CTL.BANKPCT]
  | 0x01 => [SUP_SUPMON.RESET, SUP_SUPMON.WARN]
  | 0x02 => [SUP_STAT.LGST, SUP_STAT.BELOW]
  | 0x03 => [SUP_LATCH.RSTBY, SUP_LATCH.SEEN]
  | 0x04 => [SUP_BANKST.BELOW]
  | 0x05 => [SUP_CKPT.MIN]
  | 0x06 => [SUP_LGTIME.LGSEQ, SUP_LGTIME.US]
  | _ => []

/-- The collector registers (R472). -/
def fieldsFlt (o : Nat) : List Field :=
  if 0x11 ≤ o ∧ o < 0x20 then [FLT_VFMASK.SRC (o - 0x10)]
  else if 0x20 ≤ o ∧ o < 0x80 then [FLT_STK.KIND ((o - 0x20) / 6 + 1) ((o - 0x20) % 6)]
  else match o with
  | 0x00 => [FLT_CTL.CLRALL, FLT_CTL.RXEN]
  | 0x01 => [FLT_STAT.SRCANY, FLT_STAT.CLASSANY]
  | 0x02 => [FLT_HPTR.TOTAL, FLT_HPTR.NEXT]
  | 0x03 => [FLT_IEN.CLASSEN, FLT_IEN.SRCEN]
  | 0x04 => [FLT_HOLDEN.SRC]
  | 0x05 => [FLT_FWD.CLASSMIN, FLT_FWD.NODE]
  | 0x06 => [FLT_CNT.FOLDX, FLT_CNT.FWDDROP, FLT_CNT.RQDROP]
  | 0x08 => [FLT_RQ0.VALID, FLT_RQ0.NODE]
  | 0x09 => [FLT_RQ1.WORD]
  | 0x0A => [FLT_RQ2.WORD]
  | 0x0B => [FLT_RQ3.WORD]
  | _ => []

/-- The redundancy registers (R429). -/
def fieldsRed (o : Nat) : List Field :=
  match o with
  | 0x00 => [RED_CTL.SWAP]
  | 0x01 => [RED_CFG.TWIN, RED_CFG.DWELL, RED_CFG.MISS, RED_CFG.HOLDTK, RED_CFG.ROLE]
  | 0x02 => [RED_STAT.ECLAIM, RED_STAT.TWMODE, RED_STAT.MISSCNT, RED_STAT.STATE]
  | 0x03 => [RED_MRANGE.LAST, RED_MRANGE.FIRST]
  | 0x04 => [RED_MSTAT.TXROUND, RED_MSTAT.RXROUND]
  | 0x05 => [RED_CNT.TAKEOVER, RED_CNT.RETURN, RED_CNT.GAP, RED_CNT.VOTEFAIL]
  | 0x06 => [RED_VGSEL.GROUP]
  | 0x07 => [RED_VGSRC.SRC0, RED_VGSRC.SRC1, RED_VGSRC.SRC2]
  | 0x08 => [RED_VGCFG.OUTNODE, RED_VGCFG.OUTCH, RED_VGCFG.WIN, RED_VGCFG.NOMAJ, RED_VGCFG.EN]
  | 0x09 => [RED_VGSTAT.DISSENT, RED_VGSTAT.VSEQ, RED_VGSTAT.PRESENT, RED_VGSTAT.OUTCOME]
  | 0x0A => [RED_KPSTAT.REPAIRS, RED_KPSTAT.LASTREG, RED_KPSTAT.LASTCOPY, RED_KPSTAT.LASTRES]
  | 0x0B => [RED_KPTEST.REG, RED_KPTEST.COPY, RED_KPTEST.BIT]
  | _ => []

/-- The registers of phase domain `d` (R119). -/
def fieldsPh (d : Nat) (o : Nat) : List Field :=
  match o with
  | 0x00 => [PH_CTL.ACK d, PH_CTL.AUTORES d, PH_CTL.ROLE d]
  | 0x01 => [PH_CFG.QLIM d, PH_CFG.FILT d, PH_CFG.ZMODE d, PH_CFG.DIRB d, PH_CFG.REVDIR d, PH_CFG.KIND d]
  | 0x02 => [PH_SCALE.INC d]
  | 0x03 => [PH_SRC.ALT d, PH_SRC.NODE d]
  | 0x04 => [PH_APPLY.TICKS d]
  | 0x05 => [PH_JUMP.STEPS d]
  | 0x06 => [PH_HYST.STEPS d]
  | 0x07 => [PH_MAXAGE.TICKS d]
  | 0x08 => [PH_GAIN.KG d, PH_GAIN.KB d, PH_GAIN.KA d]
  | 0x09 => [PH_SSI.EVERY d, PH_SSI.TM d, PH_SSI.HALF d, PH_SSI.MT d, PH_SSI.BITS d, PH_SSI.PAR d, PH_SSI.GRAY d]
  | 0x0A => [PH_ZTOL.STEPS d]
  | 0x0B => [PH_LAT.TICKS d]
  | 0x0C => [PH_SETPH.PHASE d]
  | 0x10 => [PH_STAT.MSEQ d, PH_STAT.QUALITY d, PH_STAT.HOMESEQ d, PH_STAT.ONALT d, PH_STAT.DIR d, PH_STAT.STATE d]
  | 0x11 => [PH_NOW.PHASE d]
  | 0x12 => [PH_M_PHASE.PHASE d]
  | 0x13 => [PH_M_GEN.GEN d]
  | 0x14 => [PH_M_TICKS.TICKS d]
  | 0x15 => [PH_M_RATE.RATE d]
  | 0x16 => [PH_M_ACCEL.ACCEL d]
  | 0x17 => [PH_CORR.CORR d]
  | 0x18 => [PH_SLIP_FROM.PHASE d]
  | 0x19 => [PH_SLIP_TO.PHASE d]
  | 0x1A => [PH_RAW.RAW d]
  | 0x1B => [PH_ERRCNT.LATE d, PH_ERRCNT.ENC d, PH_ERRCNT.REJ d]
  | _ => []

/-- The sequencer registers (R28, R156, R192). -/
def fieldsSeq (o : Nat) : List Field :=
  if 0x04 ≤ o ∧ o < 0x08 then [SEQ_RETOL.STEPS (o - 0x04)]
  else if 0x10 ≤ o ∧ o < 0x20 then [SEQ_EPH_PAGE.PAGE (o - 0x10)]
  else if 0x20 ≤ o ∧ o < 0x30 then [SEQ_TCAP.USED (o - 0x20), SEQ_TCAP.CAP (o - 0x20)]
  else if 0x30 ≤ o ∧ o < 0x34 then [SEQ_RUNFROM.PHASE (o - 0x30)]
  else if 0x40 ≤ o ∧ o < 0x48 then [SEQ_LANE.ENTRY (o - 0x40), SEQ_LANE.STATE (o - 0x40), SEQ_LANE.PC (o - 0x40)]
  else match o with
  | 0x00 => [SEQ_CTL.LANE_EN, SEQ_CTL.RUN]
  | 0x01 => [SEQ_CFG.RUNMAX, SEQ_CFG.LEAD]
  | 0x02 => [SEQ_HORIZON.TICKS]
  | 0x03 => [SEQ_SCAN.LIMIT]
  | 0x08 => [SEQ_STAT.WHEEL, SEQ_STAT.BUSY, SEQ_STAT.SWEEP]
  | 0x09 => [SEQ_HOLD.TENANT]
  | 0x0A => [SEQ_COUNT.MISS, SEQ_COUNT.LATE, SEQ_COUNT.SKIP, SEQ_COUNT.SUPPRESS]
  | 0x0B => [SEQ_LASTMISS.POLICY, SEQ_LASTMISS.ENTRY]
  | 0x48 => [SEQ_ABORT.CAUSE, SEQ_ABORT.LANE, SEQ_ABORT.PC]
  | _ => []

/-- The table-port registers (R49, R65, R77). -/
def fieldsTbl (o : Nat) : List Field :=
  if 0x05 ≤ o ∧ o < 0x10 then [TBL_STAGE.WORD (o - 0x05)]
  else if 0x18 ≤ o ∧ o < 0x20 then [TBL_WEIGHT.WEIGHT (o - 0x18)]
  else if 0x20 ≤ o ∧ o < 0x28 then [TBL_WAIT.WAIT (o - 0x20)]
  else if 0x28 ≤ o ∧ o < 0x30 then [TBL_REVOKE.COUNT (o - 0x28)]
  else if 0x30 ≤ o ∧ o < 0x40 then [TBL_DCLASS.BUDGET (o - 0x30)]
  else match o with
  | 0x00 => [TBL_HOME.HBASE, TBL_HOME.SIZE, TBL_HOME.SEL]
  | 0x01 => [TBL_CFG.STARVE_LIMIT, TBL_CFG.URGENT]
  | 0x02 => [TBL_STAT.HOME_UP, TBL_STAT.PINNED, TBL_STAT.DONE, TBL_STAT.DEPTH]
  | 0x03 => [TBL_INVAL.GEN, TBL_INVAL.CH]
  | 0x04 => [TBL_UPDATE.GEN, TBL_UPDATE.CH]
  | 0x10 => [TBL_HIT.COUNT]
  | 0x11 => [TBL_MISS.COUNT]
  | 0x12 => [TBL_ARB_STAT.ALIVE, TBL_ARB_STAT.STARVE]
  | _ => []

/-- The cycle-matrix registers (R372). -/
def fieldsCyc (o : Nat) : List Field :=
  if 0x10 ≤ o ∧ o < 0x14 then [CYC_LINKDLY.DELAY (o - 0x10)]
  else match o with
  | 0x00 => [CYC_CTL.CS, CYC_CTL.STEER, CYC_CTL.SYNC, CYC_CTL.SLOT]
  | 0x01 => [CYC_CFG.KERF, CYC_CFG.SSLOT, CYC_CFG.MEXP, CYC_CFG.BC]
  | 0x02 => [CYC_STAT.MSEQ, CYC_STAT.CYC, CYC_STAT.JOINOK, CYC_STAT.NSYNC, CYC_STAT.SSTATE]
  | 0x03 => [CYC_OFFS.DEV, CYC_OFFS.RATE]
  | 0x04 => [CYC_LIMIT.MINSYNC, CYC_LIMIT.LISTEN, CYC_LIMIT.SYNCLIM]
  | 0x05 => [CYC_STEP.SLEW, CYC_STEP.THRESH]
  | 0x06 => [CYC_STEERREQ.OFFSET]
  | 0x07 => [CYC_STEERST.STSEQ, CYC_STEERST.REMAIN]
  | 0x08 => [CYC_GEN.GEN]
  | 0x09 => [CYC_TICKS.TICKS]
  | 0x0A => [CYC_SPAN.TICKS]
  | 0x0B => [CYC_TCRC.TCRC]
  | 0x0C => [CYC_TTCNT.POLICE, CYC_TTCNT.COLLIDE, CYC_TTCNT.DUP]
  | 0x0D => [CYC_GUARD.TRIP]
  | _ => []

/-- The switch-core registers (R333). -/
def fieldsXbar (o : Nat) : List Field :=
  if 0x00 ≤ o ∧ o < 0x20 then [XBAR_FWD.PRUN (o - 0x00), XBAR_FWD.CTBULK (o - 0x00), XBAR_FWD.CTPRIO (o - 0x00), XBAR_FWD.CTCTL (o - 0x00)]
  else if 0x20 ≤ o ∧ o < 0x30 then [XBAR_TQUOTA.CLASS (o - 0x20), XBAR_TQUOTA.TBLW (o - 0x20), XBAR_TQUOTA.CELLS (o - 0x20)]
  else if 0x30 ≤ o ∧ o < 0x40 then [XBAR_TSTAT.OVER (o - 0x30), XBAR_TSTAT.BUFFERED (o - 0x30), XBAR_TSTAT.ADMITTED (o - 0x30)]
  else if 0x50 ≤ o ∧ o < 0x60 then [XBAR_BANKCE.CE (o - 0x50)]
  else match o with
  | 0x40 => [XBAR_CTLCAP.CELLS]
  | 0x41 => [XBAR_PORTHOLD.PRIOAGE, XBAR_PORTHOLD.TICKS]
  | 0x42 => [XBAR_HOLDCNT.EXPIRED, XBAR_HOLDCNT.FLUSHED, XBAR_HOLDCNT.MOVED]
  | 0x43 => [XBAR_DROP.INQ, XBAR_DROP.HDR, XBAR_DROP.UE]
  | 0x44 => [XBAR_SPARE.CELIM, XBAR_SPARE.STATE, XBAR_SPARE.GO, XBAR_SPARE.AUTO, XBAR_SPARE.BANK, XBAR_SPARE.SERVES]
  | 0x45 => [XBAR_NODEQ.PRESENT, XBAR_NODEQ.NODE]
  | _ => []

/-- The registers of ring port `p` (R310). -/
def fieldsRing (p : Nat) (o : Nat) : List Field :=
  if 0x10 ≤ o ∧ o < 0x19 then [RINGP_LANE.EYE p (o - 0x10), RINGP_LANE.STATE p (o - 0x10), RINGP_LANE.FECCORR p (o - 0x10), RINGP_LANE.UNCORR p (o - 0x10)]
  else match o with
  | 0x00 => [RINGP_CTL.SEAL p, RINGP_CTL.AUTOSWAP p, RINGP_CTL.WRAPEN p, RINGP_CTL.EN p]
  | 0x01 => [RINGP_STAT.SUBUP p, RINGP_STAT.SEALST p, RINGP_STAT.WRAP p, RINGP_STAT.LOST p]
  | 0x02 => [RINGP_MARGIN.EYEMIN p, RINGP_MARGIN.FECMAX p]
  | 0x03 => [RINGP_SWAP.STATE p, RINGP_SWAP.RESULT p, RINGP_SWAP.BACK p, RINGP_SWAP.CANCEL p, RINGP_SWAP.GO p, RINGP_SWAP.POS p]
  | 0x04 => [RINGP_RXMAP.MAP p]
  | 0x05 => [RINGP_CNT.CRC p, RINGP_CNT.STOMP p, RINGP_CNT.AUTH p, RINGP_CNT.WRAPDROP p]
  | _ => []

/-- The bridge registers (R402). -/
def fieldsBrg (o : Nat) : List Field :=
  if 0x40 ≤ o ∧ o < 0xC0 then (if o % 2 = 0 then [BRG_OWINA.NODE ((o - 0x40) / 2), BRG_OWINA.CH ((o - 0x40) / 2), BRG_OWINA.WORD ((o - 0x40) / 2)]
    else [BRG_OWINB.EN ((o - 0x40) / 2), BRG_OWINB.RULE ((o - 0x40) / 2), BRG_OWINB.PACK ((o - 0x40) / 2), BRG_OWINB.FUNC ((o - 0x40) / 2), BRG_OWINB.LASTW ((o - 0x40) / 2)])
  else if 0x100 ≤ o ∧ o < 0x180 then (if o % 2 = 0 then [BRG_IWINA.HADDR ((o - 0x100) / 2)]
    else [BRG_IWINB.EN ((o - 0x100) / 2), BRG_IWINB.RULE ((o - 0x100) / 2), BRG_IWINB.PACK ((o - 0x100) / 2), BRG_IWINB.FUNC ((o - 0x100) / 2)])
  else if 0x200 ≤ o ∧ o < 0x300 then [BRG_TUN.DNODE (o - 0x200), BRG_TUN.DCH (o - 0x200), BRG_TUN.TENANT (o - 0x200), BRG_TUN.EN (o - 0x200), BRG_TUN.SINK (o - 0x200), BRG_TUN.SIDX (o - 0x200)]
  else match o with
  | 0x00 => [BRG_CFG.RDTO, BRG_CFG.HRDTO, BRG_CFG.REASMTO]
  | 0x01 => [BRG_STAT.LINKUP, BRG_STAT.OUTRD, BRG_STAT.HOSTRD, BRG_STAT.REASM]
  | 0x02 => [BRG_CNT.REFUSED, BRG_CNT.LATE, BRG_CNT.HOSTERR, BRG_CNT.TUNDROP]
  | _ => []

/-- The registers of MAC `m` (R403). -/
def fieldsMac (m : Nat) (o : Nat) : List Field :=
  match o with
  | 0x00 => [MAC_CTL.TEST m, MAC_CTL.LPIEN m, MAC_CTL.EN m]
  | 0x01 => [MAC_CFG.TNUM m, MAC_CFG.MAXLEN m, MAC_CFG.TXCK m, MAC_CFG.RXCK m, MAC_CFG.SPEED m, MAC_CFG.PCS m, MAC_CFG.FBTIME m]
  | 0x02 => [MAC_STAT.LINK m, MAC_STAT.RATE m, MAC_STAT.LPI m]
  | 0x03 => [MAC_LPI.TWPART m, MAC_LPI.TWSYS m, MAC_LPI.IDLE m]
  | 0x04 => [MAC_RXCNT.FRAMES m, MAC_RXCNT.CKBAD m]
  | 0x05 => [MAC_DROP.FCS m, MAC_DROP.SHORT m, MAC_DROP.LONG m, MAC_DROP.OVF m]
  | 0x06 => [MAC_TXCNT.SENT m, MAC_TXCNT.EXPIRED m, MAC_TXCNT.FLUSHED m, MAC_TXCNT.DISCARD m]
  | 0x07 => [MAC_TXTS0.GEN m, MAC_TXTS0.SEQID m, MAC_TXTS0.MTYPE m, MAC_TXTS0.VALID m]
  | 0x08 => [MAC_TXTS1.TICKS m]
  | _ => []

/-- The registers of message-bus controller `c` (R282). -/
def fieldsMb (c : Nat) (o : Nat) : List Field :=
  match o with
  | 0x00 => [MB_CTL.WAKESRC c, MB_CTL.MODE c]
  | 0x01 => [MB_CFG.WAKEOBJ c, MB_CFG.G1 c, MB_CFG.FDEN c, MB_CFG.LOCKTO c]
  | 0x02 => [MB_NBT.NBRP c, MB_NBT.NTSEG1 c, MB_NBT.NTSEG2 c, MB_NBT.NSJW c]
  | 0x03 => [MB_DBT.TDCO c, MB_DBT.TDCEN c, MB_DBT.DBRP c, MB_DBT.DTSEG1 c, MB_DBT.DTSEG2 c, MB_DBT.DSJW c]
  | 0x04 => [MB_FSEL.OBJ c]
  | 0x05 => [MB_FID.EN c, MB_FID.IDE c, MB_FID.RTR c, MB_FID.TUN c, MB_FID.ID c]
  | 0x06 => [MB_FMASK.CH c, MB_FMASK.MIDE c, MB_FMASK.MRTR c, MB_FMASK.MASK c]
  | 0x07 => [MB_TXREQ.REQ c]
  | 0x08 => [MB_TXCAN.CAN c]
  | 0x09 => [MB_TXSTAT.PEND c]
  | 0x0A => [MB_ERR.BOCNT c, MB_ERR.STATE c, MB_ERR.TEC c, MB_ERR.REC c]
  | 0x0B => [MB_COLL.BUF c, MB_COLL.POS c]
  | 0x0C => [MB_CNT.RX c, MB_CNT.NOMATCH c, MB_CNT.DROP c]
  | 0x0D => [MB_TUN.EN c, MB_TUN.QUSED c, MB_TUN.TNUM c]
  | _ => []

/-- The registers of chain port `p` (R258). -/
def fieldsChp (p : Nat) (o : Nat) : List Field :=
  match o with
  | 0x00 => [CHP_CTL.KICK p, CHP_CTL.HOLDACT p, CHP_CTL.EN p]
  | 0x01 => [CHP_CFG.PM1 p, CHP_CFG.VERIFY p, CHP_CFG.DIV p]
  | 0x02 => [CHP_TIMING.LSU p, CHP_TIMING.LATW p, CHP_TIMING.RBDLY p]
  | 0x03 => [CHP_REFRESH.PERIOD p]
  | 0x04 => [CHP_VERIFY.BUDGET p]
  | 0x05 => [CHP_STAT.SEQ p, CHP_STAT.VSEQ p, CHP_STAT.STATE p, CHP_STAT.FTIME p]
  | 0x06 => [CHP_RBSTAT.STATUS p]
  | 0x07 => [CHP_ERR.MISMATCH p, CHP_ERR.CLAIM p, CHP_ERR.ABORT p, CHP_ERR.DEADLINE p]
  | _ => []

/-- The registers of physical tenon `t` of bay `b` (R232). -/
def fieldsTen (b : Nat) (t : Nat) (o : Nat) : List Field :=
  match o with
  | 0x00 => [TEN_CTL.TEST b t, TEN_CTL.STOP b t, TEN_CTL.START b t, TEN_CTL.ENTRY b t]
  | 0x01 => [TEN_CFG.TGT b t, TEN_CFG.SELPOL b t, TEN_CFG.SELPIN b t, TEN_CFG.CPIN b t, TEN_CFG.CSRC b t, TEN_CFG.SSWHEN b t]
  | 0x02 => [TEN_CLK.SAMP b t, TEN_CLK.INT b t, TEN_CLK.FRAC b t, TEN_CLK.SRC b t, TEN_CLK.IDLE b t, TEN_CLK.CKPIN b t]
  | 0x03 => [TEN_PINS.OE b t, TEN_PINS.MORT b t, TEN_PINS.S3 b t, TEN_PINS.S2 b t, TEN_PINS.S1 b t, TEN_PINS.S0 b t]
  | 0x04 => [TEN_STAT.PC b t, TEN_STAT.CAUSE b t, TEN_STAT.FLAGS b t, TEN_STAT.WAIT b t, TEN_STAT.STATE b t]
  | 0x05 => [TEN_CNT.CNT b t]
  | 0x06 => [TEN_TEST.PASS b t, TEN_TEST.FAIL b t, TEN_TEST.CE b t, TEN_TEST.LAST b t]
  | 0x07 => [TEN_ERR.SHORT b t, TEN_ERR.OVER b t]
  | _ => []

/-- The queue and stream registers of logical tenon `l` of bay `b` (R232). -/
def fieldsQueue (b : Nat) (l : Nat) (o : Nat) : List Field :=
  match o with
  | 0x00 => [BAY_QSTAT.LASTPRI b l, BAY_QSTAT.MARKED b l, BAY_QSTAT.IN_USED b l, BAY_QSTAT.IN_VIS b l, BAY_QSTAT.OUT_USED b l, BAY_QSTAT.CAP b l, BAY_QSTAT.DROP b l]
  | 0x01 => [BAY_QIN.ITEM b l]
  | 0x02 => [BAY_QOUT.ITEM b l]
  | 0x03 => [BAY_STREAM.CH b l, BAY_STREAM.AUTO b l, BAY_STREAM.DIR b l, BAY_STREAM.PRI b l, BAY_STREAM.FLUSH b l, BAY_STREAM.STALL b l, BAY_STREAM.WPTR b l]
  | _ => []

/-- The registers of bay `b` (R232, R258). -/
def fieldsBay (b o : Nat) : List Field :=
  if 0x08 ≤ o ∧ o < 0x18 then fieldsQueue b ((o - 0x08) / 4) ((o - 0x08) % 4)
  else if 0x18 ≤ o ∧ o < 0x40 then fieldsTen b ((o - 0x18) / 8) ((o - 0x18) % 8)
  else if 0x40 ≤ o then fieldsChp (2 * b + (o - 0x40) / 0x20) (o % 0x20)
  else match o with
  | 0x00 => [BAY_CTL.BANKOK b, BAY_CTL.QLINK b, BAY_CTL.BANK b]
  | 0x01 => [BAY_MUX.FN b]
  | 0x02 => [BAY_PADS.DOE b, BAY_PADS.PULL b]
  | 0x03 => [BAY_SAFE.EN b, BAY_SAFE.VAL b]
  | 0x04 => [BAY_PIN.OUT b, BAY_PIN.IN b]
  | 0x05 => [BAY_MAP.SPARE b, BAY_MAP.L3 b, BAY_MAP.L2 b, BAY_MAP.L1 b, BAY_MAP.L0 b]
  | 0x06 => [BAY_SWAP.STATE b, BAY_SWAP.RESULT b, BAY_SWAP.REASON b, BAY_SWAP.CANCEL b, BAY_SWAP.GO b, BAY_SWAP.RETIRE b, BAY_SWAP.COPY b, BAY_SWAP.LOG b]
  | 0x07 => [BAY_SPARE.TINT b, BAY_SPARE.CELIM b, BAY_SPARE.POLICY b]
  | _ => []

/-- The registers of feed `f` (R454). -/
def fieldsFeed (f : Nat) (o : Nat) : List Field :=
  if 0x05 ≤ o ∧ o < 0x0D then [FEED_CURVE.I f (o - 0x05), FEED_CURVE.T f (o - 0x05)]
  else if 0x11 ≤ o ∧ o < 0x15 then [FEED_TARIFF.E f (o - 0x11)]
  else match o with
  | 0x00 => [FEED_CTL.DSYNC f, FEED_CTL.CLRMAX f, FEED_CTL.OFF f, FEED_CTL.ON f, FEED_CTL.HOLDOFF f, FEED_CTL.PRIO f]
  | 0x01 => [FEED_CFG.TENANT f, FEED_CFG.GROUP f, FEED_CFG.INRUSH f, FEED_CFG.PRE_THRESH f]
  | 0x02 => [FEED_TIME.PRETO f, FEED_TIME.GATETO f, FEED_TIME.BACKOFF f]
  | 0x03 => [FEED_SCALE.ISCALE f, FEED_SCALE.VSCALE f]
  | 0x04 => [FEED_TRIP.RETRIES f, FEED_TRIP.INST f]
  | 0x0D => [FEED_STAT.QPOS f, FEED_STAT.RETRY f, FEED_STAT.CAUSE f, FEED_STAT.STATE f]
  | 0x0E => [FEED_MEAS.I f, FEED_MEAS.V f]
  | 0x0F => [FEED_POWER.P f]
  | 0x10 => [FEED_ENERGY.E f]
  | 0x15 => [FEED_TSEL.TARIFF f]
  | 0x16 => [FEED_DEMAND.ELAPSED f, FEED_DEMAND.MIN f]
  | 0x17 => [FEED_MAXDEM.TARIFF f, FEED_MAXDEM.P f]
  | 0x18 => [FEED_LASTINT.PARTIAL f, FEED_LASTINT.DUR f, FEED_LASTINT.E f]
  | 0x19 => [FEED_CNT.TRIPS f, FEED_CNT.SHORTS f, FEED_CNT.PREFAIL f]
  | 0x1A => [FEED_SNAP.LGSEQ f, FEED_SNAP.COINCIDENT f, FEED_SNAP.TARIFFSW f, FEED_SNAP.INTEND f, FEED_SNAP.WARN f]
  | _ => []

/-- The spares registers (R497). -/
def fieldsSpr (o : Nat) : List Field :=
  match o with
  | 0x00 => [SPR_CTL.CELIM, SPR_CTL.REFSEL, SPR_CTL.AUTO]
  | 0x01 => [SPR_STAT.REFUSE, SPR_STAT.REFOK, SPR_STAT.NVOK, SPR_STAT.NVUSE]
  | 0x02 => [SPR_BANKSEL.BANK]
  | 0x03 => [SPR_BANKCE.FREE, SPR_BANKCE.LASTROW, SPR_BANKCE.CE]
  | 0x04 => [SPR_ROWREP.GO, SPR_ROWREP.STATE, SPR_ROWREP.BANK, SPR_ROWREP.ROW]
  | 0x05 => [SPR_DDRCE.CE]
  | _ => []

/-- The fields of the register at word offset `a` of channel 0xFFFF (R518). -/
def regFields (a : Nat) : List Field :=
  if a < 0x0100 then fieldsMgt a
  else if a < 0x0180 then fieldsSup (a - 0x0100)
  else if a < 0x0200 then fieldsFlt (a - 0x0180)
  else if a < 0x0300 then fieldsRed (a - 0x0200)
  else if a < 0x0400 then fieldsPh ((a - 0x0300) / 0x40) (a % 0x40)
  else if a < 0x0600 then fieldsSeq (a - 0x0400)
  else if a < 0x0700 then fieldsTbl (a - 0x0600)
  else if a < 0x0800 then fieldsCyc (a - 0x0700)
  else if a < 0x0C00 then fieldsXbar (a - 0x0800)
  else if a < 0x1000 then
    (if 0x0C80 = a then [RING_CFG.SEALEPOCH, RING_CFG.TRAINTO]
     else if 0x0C81 ≤ a ∧ a < 0x0C87 then [RING_KEY.KEY (a - 0x0C81)]
     else fieldsRing ((a - 0x0C00) / 0x100) (a % 0x100))
  else if a < 0x1400 then fieldsBrg (a - 0x1000)
  else if a < 0x1700 then fieldsMac ((a - 0x1400) / 0x40) (a % 0x40)
  else if a < 0x1800 then []
  else if a < 0x1C00 then fieldsMb ((a - 0x1800) / 0x40) (a % 0x40)
  else if a < 0x2000 then []
  else if a < 0x3000 then fieldsBay ((a - 0x2000) / 0x80) (a % 0x80)
  else if a < 0x3400 then fieldsFeed ((a - 0x3000) / 0x20) (a % 0x20)
  else if a < 0x3500 then fieldsSpr (a - 0x3400)
  else []

end Sys2Proof.Machine
end

