-- ==== Sys2Proof/Machine/Registers.lean ====
section
/-! DEFINITION. Reads and writes of the register file (R8 to R13, R518 to R522): what a register shows,
what a read clears, and which effect a write has, by its owning chapter. -/

namespace Sys2Proof.Machine

/-! ### Reads -/

/-- The sixteen bits that tell which sources have a sticky bit set, and the four that tell which classes
have one (R472). -/
def State.srcAny (s : State) : Nat :=
  (List.range 16).foldl (fun n i =>
    n + ((List.range 6).any (fun j => s.on (FLT_STK.KIND (i + 1) j))).toNat * 2 ^ i) 0
def State.classAny (s : State) : Nat :=
  let cls := (List.range 16).flatMap (fun i => (List.range 6).flatMap (fun j =>
    let v := s.get (FLT_STK.KIND (i + 1) j)
    if v = 0 then [] else
      ((List.range 48).filter (fun b => v.testBit b)).map (fun b => (Kind.mk (i + 1) (48 * j + b)).cls)))
  (List.range 4).foldl (fun n c => n + (cls.contains c).toNat * 2 ^ c) 0

/-- What `TENt_STAT.WAIT` shows of an engine (R232); an instruction clock of WAIT that still runs shows
as WAIT. -/
def State.waitCode (s : State) (e : Eng) : Nat :=
  match e.wait with
  | .pop => 1
  | .push => 2
  | .edges _ => 3
  | .wclk | .shift _ => if s.insnOver e then 0 else 3
  | .pin => 4
  | .select _ _ _ => 6
  | .clocks => if s.insnOver e then 0 else 5
  | _ => 0

/-- Fields of blocks 0x0000 to 0x07FF whose value stands elsewhere than in the register store. -/
def State.shownLow (s : State) (f : Field) : Nat :=
  match f.addr with
  | 0x0010 => s.mode
  | 0x0011 => s.node
  | 0x0012 => s.claim
  | 0x0013 => s.kpGslot.value % 2 ^ 16
  | 0x0181 => if f.lsb = 32 then s.srcAny else s.classAny
  | 0x0188 => match s.flt.remoteQ with | [] => 0 | m :: _ => if f.lsb = 16 then 1 else m.1
  | 0x0189 => match s.flt.remoteQ with | [] => 0 | m :: _ => (recordWord m.2.raw 0).toNat
  | 0x018A => match s.flt.remoteQ with | [] => 0 | m :: _ => (recordWord m.2.raw 1).toNat
  | 0x018B => match s.flt.remoteQ with | [] => 0 | m :: _ => (recordWord m.2.raw 2).toNat
  | 0x0202 => if f.lsb = 40 then s.eclaim else s.get f
  | 0x0600 => bits s.kpHome.value (f.lsb + f.width - 1) f.lsb
  | a =>
    if inSpan a 0x0300 0x0400 && a % 0x40 == 0x11 then s.phaseNow ((a - 0x0300) / 0x40)
    else if inSpan a 0x0300 0x0400 && a % 0x40 == 0x1A then s.phRaw ((a - 0x0300) / 0x40)
    else if inSpan a 0x0440 0x0448 && f.lsb == 0 then s.atPc (s.engine (a - 0x0440))
    else if inSpan a 0x0620 0x0628 then
      min 0xFFFFFF (s.get f + (match Tab.get none s.tbl.since (a - 0x0620) with | none => 0 | some t => s.now - t))
    else s.get f

/-- Fields of the bay block whose value stands elsewhere (R214, R232). -/
def State.shownBay (s : State) (b o : Nat) (f : Field) : Nat :=
  if 0x08 ≤ o && o < 0x18 && o % 4 == 0 then
    let l := (o - 8) / 4
    match f.lsb with
    | 44 => (s.queues b l).marked.toNat
    | 38 => (s.queueCounts b l).1
    | 32 => (s.queueCounts b l).2.1
    | 26 => (s.queueCounts b l).2.2
    | 20 => s.qcap b l
    | _ => s.get f
  else if 0x18 ≤ o && o < 0x40 && o % 8 == 4 then
    let e := s.engine (tenKey b ((o - 0x18) / 8))
    match f.lsb with
    | 32 => s.atPc e
    | 20 => 8 * e.z.toNat + 4 * e.n.toNat + 2 * e.c.toNat + e.v.toNat
    | 16 => s.waitCode e
    | _ => s.get f
  else if 0x18 ≤ o && o < 0x40 && o % 8 == 5 then (s.cntNow b ((o - 0x18) / 8)).toNat
  else s.get f

/-- What a read returns in field `f` (R8): the current value; a WO field reads as 0. -/
def State.shown (s : State) (f : Field) : Nat :=
  if f.acc = .wo then 0
  else if f.addr < 0x0800 then s.shownLow f
  else if f.addr = 0x0845 then (if f.lsb = 16 then (s.present (s.get XBAR_NODEQ.NODE)).toNat else s.get f)
  else if inSpan f.addr 0x1400 0x1700 && decide (7 ≤ f.addr % 0x40) then
    match (s.macRec ((f.addr - 0x1400) / 0x40)).stamps with
    | [] => 0
    | x :: _ =>
      if f.addr % 0x40 = 8 then x.ticks
      else match f.lsb with
        | 32 => x.gen
        | 16 => x.seqid
        | 12 => x.mtype
        | _ => 1
  else if inSpan f.addr 0x1800 0x1C00 && f.addr % 0x40 == 0x0A && f.lsb == 20 then
    s.boCount ((f.addr - 0x1800) / 0x40)
  else if inSpan f.addr 0x2000 0x3000 then s.shownBay ((f.addr - 0x2000) / 0x80) (f.addr % 0x80) f
  else if f.addr = 0x3403 then
    let b := s.get SPR_BANKSEL.BANK
    match f.lsb with
    | 40 => if b < 56 then s.rowsFree b else 0
    | 16 => Tab.get 0 s.mgt.bankRow b
    | _ => Tab.get 0 s.mgt.bankCe b
  else s.get f

/-- The word that the register at `a` shows. -/
def State.regWord (s : State) (a : Nat) : Word :=
  word ((regFields a).foldl (fun n f => n + s.shown f * 2 ^ f.lsb) 0)

/-- What the read of register `a` does: its RC fields are cleared (R8). -/
def State.readClears (s : State) (a : Nat) : State :=
  if a = 0x018B then s.popRemote
  else if inSpan a 0x1400 0x1700 && a % 0x40 == 8 then s.popStamp ((a - 0x1400) / 0x40)
  else if a = 0x3403 then
    { s with mgt := { s.mgt with bankCe := Tab.put 0 s.mgt.bankCe (s.get SPR_BANKSEL.BANK) 0 } }
  else (regFields a).foldl (fun s f => if f.acc = .rc then s.set f 0 else s) s

/-- A read of the register at word offset `a` (R8, R29): the state after it and the word. -/
def State.readReg (s : State) (a : Nat) : State × Word :=
  let s := if inSpan a 0x2000 0x3000 then s.settleBay ((a - 0x2000) / 0x80) else s
  let s := if inSpan a 0x0010 0x0014 then s.useKp (a - 0x0010) else if a = 0x0600 then s.useKp 4 else s
  if a = 0x0021 then s.readRng
  else if inSpan a 0x2000 0x3000 && inSpan (a % 0x80) 0x08 0x18 && a % 4 == 2 then
    s.queueOut ((a - 0x2000) / 0x80) ((a % 0x80 - 8) / 4)
  else (s.readClears a, s.regWord a)

/-- A read by the management processor: it sees the word. -/
def State.readOutReg (s : State) (a : Nat) : State :=
  let r := s.readReg a
  r.1.emit (.read r.2)

/-! ### Writes -/

/-- The field of a written word that belongs to `f`. -/
def Field.of (f : Field) (v : Word) : Nat := wbits v (f.lsb + f.width - 1) f.lsb

/-- A plain write (R8, R521): RW fields take the value, W1C fields lose the bits named, RWL fields take it
until the lock is set; RO, RC and WO fields are left. -/
def State.writeFields (s : State) (fs : List Field) (v : Word) : State :=
  fs.foldl (fun s f =>
    match f.acc with
    | .rw => s.set f (f.of v)
    | .rwl => if s.kpLocked then s else s.set f (f.of v)
    | .w1c => s.set f ((List.range f.width).foldl (fun n i =>
        n + ((s.get f).testBit i && !(f.of v).testBit i).toNat * 2 ^ i) 0)
    | _ => s) s

/-- The plain write of register `a`. -/
def State.writePlain (s : State) (a : Nat) (v : Word) : State := s.writeFields (regFields a) v

/-- Writes of MGT, SUP, FLT and RED (R447, R472, R429, R496). -/
def State.writeMgtBlock (s : State) (a : Nat) (v : Word) : State :=
  match a with
  | 0x0001 => s.writeMgtCmd v
  | 0x0005 => s.writeFwCtl v
  | 0x0008 => if v.getLsbD 47 then s.imageStart else s
  | 0x0009 => s.imageData v
  | 0x0011 => s.writeKp 1 v
  | 0x0012 => s.writeKp 2 v
  | 0x0013 => s.writeKp 3 v
  | 0x0100 => s.writeSupCtl v
  | 0x0101 => s.writeSupmon v
  | 0x0180 => s.writeFltCtl v
  | 0x0200 => if v.getLsbD 0 then s.redSwap else s
  | 0x0201 => s.writeRedCfg v
  | 0x0206 => if wbits v 7 0 = 0 then s else s.writePlain a v
  | 0x0208 => s.writeVgcfg v
  | 0x020B => s.kpTest v
  | _ =>
    if inSpan a 0x01A0 0x0200 then s.clearSticky ((a - 0x01A0) / 6 + 1) ((a - 0x01A0) % 6) v
    else s.writePlain a v

/-- Writes of a phase domain (R79, R89, R528). -/
def State.writePhBlock (s : State) (d o : Nat) (v : Word) : State :=
  if !phWriteOk o v then s.phConfig d o
  else match o with
    | 0x00 => s.writePhCtl d v
    | 0x03 => s.writePhSrc d v
    | 0x0C => s.writeSetph d v
    | _ => s.writePlain (0x0300 + 0x40 * d + o) v

/-- Writes of SEQ, TBL, CYC and XBAR (R156, R77, R372, R333). -/
def State.writeCoreBlock (s : State) (a : Nat) (v : Word) : State :=
  match a with
  | 0x0400 => s.writeSeqCtl v
  | 0x0401 => s.writeSeqCfg v
  | 0x0409 => s.writeSeqHold v
  | 0x0600 => s.writeKp 4 v
  | 0x0603 => s.ringDoor false v
  | 0x0604 => s.ringDoor true v
  | 0x0701 => s.writeCycCfg v
  | 0x0704 => if wbits v 39 32 = 0 || 16 < wbits v 39 32 || wbits v 31 28 = 0 then s else s.writePlain a v
  | 0x0705 => if wbits v 47 40 = 0 || 64 < wbits v 47 40 then s else s.writePlain a v
  | 0x0706 => s.steerRequest v
  | 0x0844 => s.writeSpare v
  | _ => if inSpan a 0x0820 0x0830 then s.writeQuota (a - 0x0820) v else s.writePlain a v

/-- Writes of RING, BRG, MAC and MBUS (R310, R402, R403, R282). -/
def State.writeLinkBlock (s : State) (a : Nat) (v : Word) : State :=
  if a < 0x1000 then
    if inSpan a 0x0C81 0x0C87 then
      let k := a - 0x0C81
      s.set (RING_KEY.KEY k) ((RING_KEY.KEY k).of v)
    else if a = 0x0C80 then (if wbits v 31 16 = 0 then s else s.writePlain a v)
    else match a % 0x100 with
      | 0x00 => s.writeRingCtl ((a - 0x0C00) / 0x100) v
      | 0x03 => s.writeRingSwap ((a - 0x0C00) / 0x100) v
      | _ => s.writePlain a v
  else if a < 0x1400 then (if inSpan a 0x1200 0x1300 then s.writeTun (a - 0x1200) v else s.writePlain a v)
  else if a < 0x1700 then
    match a % 0x40 with
    | 0 => s.writeMacCtl ((a - 0x1400) / 0x40) v
    | 1 => s.writeMacCfg ((a - 0x1400) / 0x40) v
    | _ => s.writePlain a v
  else if inSpan a 0x1800 0x1C00 then
    let c := (a - 0x1800) / 0x40
    match a % 0x40 with
    | 0 => s.writeMbCtl c v
    | 1 | 2 | 3 => if s.mbConfigurable c then s.writePlain a v else s.mbConfig c
    | 6 => s.writeFmask c v
    | 7 => s.writeTxreq c v
    | 8 => s.eachBuf (wbits v 31 0) (fun b s => s.cancelTx c b)
    | _ => s.writePlain a v
  else s

/-- Whether a pin-function value uses a reserved value: 0b11, or CHAIN at pins 7 and 15 (R193, R194). -/
def muxReserved (v : Word) : Bool :=
  (List.range 16).any (fun p =>
    let fn := wbits v (2 * p + 1) (2 * p)
    fn == 3 || (fn == 2 && p % 8 == 7))

/-- A write of `BAY_CTL` (R196, R218): a QLINK change that is not allowed takes the whole write away; a
new bank voltage is out of band until the rail is found inside it. -/
def State.writeBayCtl (s : State) (b : Nat) (v : Word) : State :=
  let r := s.writeQlink b (wbits v 14 12)
  if r.get (BAY_CTL.QLINK b) ≠ wbits v 14 12 then r
  else if r.kpLocked || r.get (BAY_CTL.BANK b) == wbits v 9 8 then r
  else (r.set (BAY_CTL.BANK b) (wbits v 9 8)).setBankOk b false

/-- A write of `BAY_STREAMl` (R219 to R222): a FLUSH that is not allowed takes the whole write away. -/
def State.writeStream (s : State) (b l : Nat) (v : Word) : State :=
  let busy := s.tenState b (s.physical b l) == tnRUNNING || s.tbl.ops.any (fun (o : Op) => o.streams b l)
  if v.getLsbD 26 && busy then s.flushQueues b l
  else
    let s := if v.getLsbD 26 then s.flushQueues b l else s
    let s := s.writePlain (0x2000 + 0x80 * b + 0x0B + 4 * l) v
    if v.getLsbD 31 then s
    else s.setBay b { s.bayRec b with autoAt := Tab.put none (s.bayRec b).autoAt l none }

/-- Writes of a bay (R232, R258). -/
def State.writeBayBlock (s : State) (b o : Nat) (v : Word) : State :=
  let s := s.settleBay b
  let plain := s.writePlain (0x2000 + 0x80 * b + o) v
  if o < 0x08 then
    match o with
    | 0 => s.writeBayCtl b v
    | 1 => if muxReserved v then s else (plain.settlePads b (s.padsOf b)).restClocks b
    | 2 => if (List.range 16).any (fun p => wbits v (2 * p + 1) (2 * p) == 3) then s else plain.settlePads b (s.padsOf b)
    | 6 => s.writeSwap b v
    | 7 => if 2 ≤ wbits v 1 0 then s else plain
    | _ => plain
  else if o < 0x18 then
    let l := (o - 8) / 4
    match o % 4 with
    | 1 => s.queueIn b l v
    | 3 => s.writeStream b l v
    | _ => plain
  else if o < 0x40 then
    let t := (o - 0x18) / 8
    match o % 8 with
    | 0 => s.writeTenCtl b t v
    | 1 => s.writeTenCfg b t v
    | 2 => s.writeTenClk b t v
    | 3 => s.writeTenPins b t v
    | _ => plain
  else
    let p := 2 * b + (o - 0x40) / 0x20
    match o % 0x20 with
    | 0 => s.writeChpCtl p v
    | 1 => s.writeChpCfg p v
    | 2 => s.writeChpTiming p v
    | _ => plain

/-- Writes of a feed (R433 to R446, R454): its configuration only while it is OFF or locked out. -/
def State.writeFeedBlock (s : State) (f o : Nat) (v : Word) : State :=
  let plain := s.writePlain (0x3000 + 0x20 * f + o) v
  if o = 0 then s.writeFeedCtl f v
  else if o < 0x0D then
    if s.feedState f != fdOFF && s.feedState f != fdLOCKOUT then s.feedConfig f
    else if o = 2 && (wbits v 35 24 == 0 || wbits v 23 12 == 0) then s
    else plain
  else match o with
    | 0x15 => s.requestTariff f (wbits v 1 0)
    | 0x16 => s.writeFeedDemand f v
    | _ => plain

/-- A write of the register at word offset `a` (R8, R12, R29, R521). -/
def State.writeReg (s : State) (a : Nat) (v : Word) : State :=
  if (regFields a).isEmpty then s
  else if a < 0x0300 then s.writeMgtBlock a v
  else if a < 0x0400 then s.writePhBlock ((a - 0x0300) / 0x40) (a % 0x40) v
  else if a < 0x0C00 then s.writeCoreBlock a v
  else if a < 0x2000 then s.writeLinkBlock a v
  else if a < 0x3000 then s.writeBayBlock ((a - 0x2000) / 0x80) (a % 0x80) v
  else if a < 0x3400 then s.writeFeedBlock ((a - 0x3000) / 0x20) (a % 0x20) v
  else match a with
    | 0x3400 => s.writeSprCtl v
    | 0x3404 => s.writeRowRep v
    | _ => s.writePlain a v

/-! ### The commands -/

/-- REGISTER_WRITE. -/
def execRegisterWrite (addr : BitVec 16) (v : Word) (s : State) : Result := .next (s.writeReg addr.toNat v)

/-- REGISTER_READ_CLEAR. -/
def execRegisterReadClear (addr : BitVec 16) (s : State) : Result := .next (s.readOutReg addr.toNat)

/-- QUEUE_OUT_READ (R219): a read of `BAY_QOUTl`. -/
def execQueueOutRead (b : Fin 32) (l : Fin 4) (s : State) : Result :=
  .next (s.readOutReg (0x2000 + 0x80 * b.val + 0x0A + 4 * l.val))

/-- TXTS_READ (R400): a read of `MACm_TXTS1` removes the entry shown. -/
def execTxtsRead (m : Fin 12) (s : State) : Result := .next (s.readOutReg (0x1400 + 0x40 * m.val + 8))

/-- RNG_DATA_READ (R482): a read of `RNG_DATA`. -/
def execRngDataRead (s : State) : Result := .next (s.readOutReg 0x0021)

/-- REMOTE_QUEUE_READ (R471): a read of `FLT_RQ3` removes the message shown. -/
def execRemoteQueueRead (s : State) : Result := .next (s.readOutReg 0x018B)

end Sys2Proof.Machine
end

