-- ==== Sys2Proof/Machine/Fabric.lean ====
section
/-! DEFINITION. Chapter 01, serving an access after its decode: the windows of R25 and the user channels;
the commands that are accesses (R18 to R40, R375, R519, R520). -/

namespace Sys2Proof.Machine

/-! ### Serving -/

/-- Write registers in ascending order, each as if it were written alone (R520); the words of one access
that follow the one which sets the king-post lock meet it (R522). -/
def State.writeRegs (s : State) (a : Nat) (ws : List Word) : State :=
  match ws with
  | [] => s
  | v :: rest =>
    let r := s.writeReg a v
    if s.on MGT_STAT.KPLOCK || !r.on MGT_STAT.KPLOCK then r.writeRegs (a + 1) rest
    else
      let q := ({ r with mgt := { r.mgt with lockAt := none } } : State).writeRegs (a + 1) rest
      { q with mgt := { q.mgt with lockAt := r.mgt.lockAt } }

/-- Read `n` registers in ascending order (R520). -/
def State.readRegs (s : State) (a n : Nat) : State × List Word :=
  match n with
  | 0 => (s, [])
  | n + 1 =>
    let r := s.readReg a
    let q := r.1.readRegs (a + 1) n
    (q.1, r.2 :: q.2)

/-- Write words of a window (R25): a write to the fault history is ignored (R465), a firing of a written
entry whose dispatch is due goes first (R154). -/
def State.writeWindow (s : State) (t ch w : Nat) (ws : List Word) : State :=
  match ch with
  | 0xFFFF => s.writeRegs w ws
  | 0xFFFE => (s.dispatchDueOf (fun i => (entriesTouched (s.ephPage t) w ws.length).contains i) 24).writeEph (s.ephPage t) w ws
  | 0xFFFD => s.writePending w ws
  | 0xFFFC => s
  | 0xFFFB => (((List.range ws.length).zip ws).foldl (fun s p => s.writeTenStore (w + p.1) p.2) s)
  | _ => (((List.range ws.length).zip ws).foldl (fun s p => s.writeSeqStore (w + p.1) p.2) s)

/-- Read words of a window (R25). -/
def State.readWindow (s : State) (t ch w n : Nat) : State × List Word :=
  let each := fun (f : Nat → Word) => (List.range n).map (fun i => f (w + i))
  match ch with
  | 0xFFFF => s.readRegs w n
  | 0xFFFE => (s, each (s.readEph t (s.ephPage t)))
  | 0xFFFD => (s, each s.readPending)
  | 0xFFFC => (s, each s.readHistory)
  | 0xFFFB => (s, each (Tab.get 0 s.tenStore))
  | _ => (s, each (Tab.get 0 s.seqStore))

/-- Serve a decoded write that arrived on core port `cp` (R30, R35): refused whole with its fault, or done as
one unit. -/
def State.serveWrite (s : State) (bcast : Bool) (cp t ch w : Nat) (ws : List Word) (g : Target) : State :=
  match g with
  | .waits => s.block (.write bcast cp t ch w ws)
  | .refused st => s.refuse st ch w
  | .window => s.writeWindow t ch w ws
  | .channel e =>
    match e.iwin with
    | some k => s.inboundWrite k w ws
    | none => s.putChan cp t ch e w ws

/-- The entries of window 0xFFFE that an access touches are read first: the hub rewrites those with an
uncorrectable error (R129); `ue` says that the entry of the first word holds one. -/
def State.repairTouched (s : State) (t ch w n : Nat) (ue : Bool) : State :=
  if ch == 0xFFFE && decide (w + n ≤ 65536) then
    let es := entriesTouched (s.ephPage t) w n
    (es.drop 1).foldl (fun s i => s.touchEntry i false) (s.touchEntry (es.headD 0) ue)
  else s

/-- A write access reaches this hub (R30): decoded, then served. -/
def State.accessWrite (s : State) (bcast : Bool) (cp t ch w : Nat) (ws : List Word) (ue : Bool) : State :=
  let s := (s.useKp 1).useKp 4
  let s := if bcast then s else s.repairTouched t ch w ws.length ue
  let r := s.decode bcast t ch w ws.length (some ws)
  r.1.serveWrite bcast cp t ch w ws r.2

/-- The words of a READ of a channel have been read: its RESP leaves, and an object's lock follows (R272,
R315). -/
def State.respond (s : State) (t ch : Nat) (e : Entry) (w : Nat) (ret : Word) (cls : BitVec 2) (out : Nat)
    (ws : List Word) : State :=
  let s := s.objectRead ch e w ws.length
  s.sendFor out t (s.respCell ret cls stOK ws)

/-- A read access of `n` words reaches this hub on core port `cp` (R30): its RESP to return word `ret`, if any,
goes out on `out`, the port of the block that serves it (R315, R326); an inbound window answers later
(R384). -/
def State.accessRead (s : State) (cp t ch w n : Nat) (ret : Word) (cls : BitVec 2) (out : Nat) (c : Cell) (ue : Bool) :
    State :=
  let s := ((s.useKp 1).useKp 4).repairTouched t ch w n ue
  let (s, g) := s.decode false t ch w n Option.none
  match g with
  | .waits => s.block (.read cp t ch w n ret cls out ue)
  | .refused st => (s.refuse st ch w).sendFor out t (s.respCell ret cls st [])
  | .channel e =>
    match e.iwin with
    | some k => s.inboundRead k c
    | none =>
      match s.readChan cp t ch e w n (.read ret cls out) ue with
      | (s, .words ws) => s.respond t ch e w ret cls out ws
      | (s, _) => s
  | .window =>
    let r := s.readWindow t ch w n
    r.1.sendFor out t (r.1.respCell ret cls stOK r.2)

/-- The READ of a cell that entered on core port `cp`. -/
def State.readCell (s : State) (cp : Nat) (c : Cell) (ue : Bool) : State :=
  s.accessRead cp c.ten.toNat c.f1.toNat c.f2.toNat (c.nm1.toNat + 1) (c.words.getD 0 0) c.cls (localCp c) c ue

/-- The cell of an access (R312, R313): a broadcast travels as BWRITE under the sender's node. -/
def State.accessCell (s : State) (kind : BitVec 3) (ten : Nat) (addr : Word) (n : Nat) (ws : List Word) : Cell :=
  let bc := kind = kWRITE ∧ wbits addr 47 32 = 0xFFFF
  { node := if bc then BitVec.ofNat 16 s.node else BitVec.ofNat 16 (wbits addr 47 32)
    f1 := BitVec.ofNat 16 (wbits addr 31 16), f2 := BitVec.ofNat 16 (wbits addr 15 0)
    kind := if bc then kBWRITE else kind, cls := s.tenClass ten, wrap := 0, ten := BitVec.ofNat 4 ten
    nm1 := BitVec.ofNat 5 (n - 1), words := pad20 ws }

/-- Whether an address names this hub (R18, R20). -/
def State.isHere (s : State) (addr : Word) : Bool := wbits addr 47 32 == 0 || wbits addr 47 32 == s.node

/-! ### The commands -/

/-- FABRIC_WRITE (R30): an access of this hub is served, any other leaves as a cell of the block on `cp`
(R20, R313). -/
def execFabricWrite (cp : Fin 32) (ten : Fin 16) (addr : Word) (ws : List Word) (s : State) : Result :=
  if ws.isEmpty || 20 < ws.length then .fault (.illFormed "FABRIC_WRITE")
  else if s.isHere addr then
    .next (s.accessWrite false cp.val ten.val (wbits addr 31 16) (wbits addr 15 0) ws false)
  else .next (s.sendFor cp.val ten.val (s.accessCell kWRITE ten.val addr ws.length ws))

/-- FABRIC_READ (R30): an access of this hub is served, a broadcast read refused, any other leaves as a
cell; `ret` is its return word. -/
def execFabricRead (cp : Fin 32) (ten : Fin 16) (addr : Word) (nm1 : Fin 20) (ret : Word) (ue : Bool)
    (s : State) : Result :=
  let c := s.accessCell kREAD ten.val addr (nm1.val + 1) [ret]
  if s.isHere addr then .next (s.readCell cp.val c ue)
  else if wbits addr 47 32 = 0xFFFF then
    .next ((s.refuse stBCAST (wbits addr 31 16) (wbits addr 15 0)).sendFor cp.val ten.val (s.respCell ret c.cls stBCAST []))
  else .next (s.sendFor cp.val ten.val c)

/-- BROADCAST_WRITE (R32): each hub that receives a broadcast, the sender included (R18), decides and
serves it by itself. -/
def execBroadcastWrite (sender : BitVec 16) (ten : Fin 16) (ch w : BitVec 16) (ws : List Word) (s : State) :
    Result :=
  if ws.isEmpty || 20 < ws.length then .fault (.illFormed "BROADCAST_WRITE")
  else .next (s.accessWrite true (if sender.toNat = s.node then 31 else 0) ten.val ch.toNat w.toNat ws false)

/-- EPHEMERIS_WRITE (R126 to R129): a write of window 0xFFFE; `ue` says that the entry of its first word
holds an uncorrectable error. -/
def execEphemerisWrite (ten : Fin 16) (w : BitVec 16) (ws : List Word) (ue : Bool) (s : State) : Result :=
  if ws.isEmpty || 20 < ws.length then .fault (.illFormed "EPHEMERIS_WRITE")
  else .next (s.accessWrite false 31 ten.val 0xFFFE w.toNat ws ue)

/-- Whether a BAR0 request is one that PCIe can carry: inside the BAR and inside one 4 KiB page. -/
def bar0Ok (offset len : Nat) : Bool :=
  decide (0 < len) && decide (len ≤ 4096) && decide (offset + len ≤ 2 ^ 19) && decide (offset % 4096 + len ≤ 4096)

/-- BAR0_REQUEST (R375, R519): 1 to 20 whole aligned containers are one access of T00 to channel 0xFFFF;
any other write is discarded and any other read completed with UR, with BRG_OUT_REFUSED (R404).  Of a read, `bytes` gives the
length. -/
def execBar0Request (write : Bool) (offset : Nat) (bytes : List Byte) (s : State) : Result :=
  let n := bytes.length / 8
  if !bar0Ok offset bytes.length then .fault (.illFormed "BAR0_REQUEST")
  else if !s.linkUp then .next s
  else if offset % 8 ≠ 0 || bytes.length % 8 ≠ 0 || 20 < n then 
    .next (if write then s.outRefused 0 0 else (s.outRefused 0 0).emit .cplUR)
  else if write then .next (s.writeRegs (offset / 8) (hostWords false true n bytes))
  else
    let r := s.readRegs (offset / 8) n
    .next (r.1.emit (.cplData (r.2.flatMap (hostBytes false true))))

end Sys2Proof.Machine
end

