-- ==== Sys2Proof/Machine/Cells.lean ====
section
/-! DEFINITION. The commands of chapters 09 and 10 in which cells move: arrival on a ring sub-link,
admission from a block, a cell time of the switch core; delivery of a cell to its block. -/

namespace Sys2Proof.Machine

/-! ### Arriving slots (R293, R312) -/

/-- An empty slot: 132 zero bytes. -/
def emptySlot (x : Slot) : Bool := (cellBytes x.cell).all (· == 0) && x.crc == 0

/-- The header checks of R319 on core port `cp`: whether the cell is dropped. -/
def badHeader (cp : Nat) (c : Cell) : Bool :=
  c.wrap == 3 || decide (20 ≤ c.nm1.toNat) || ((c.kind == kCTRL || c.kind == kLINK) && c.nm1 != 19)
    || (c.kind == kLINK && decide (16 ≤ cp))

/-- A cell is dropped at its header (R319). -/
def State.dropHeader (s : State) (cp : Nat) : State := (s.inc XBAR_DROP.HDR).raise Kind.XBAR_HDR_BAD cp

/-- The FORMAT of a CTRL or LINK cell. -/
def cellFormat (c : Cell) : Nat := wbits (c.words.getD 0 0) 47 40

/-- The state that a result of a meaning leaves; a meaning that stops leaves the state before it. -/
def Result.or (s : State) (r : Result) : State :=
  match r with
  | .next s' => s'
  | _ => s

/-! ### Delivery -/

/-- A cell reaches the block it is for: an access is served, a CTRL cell goes to the block of its FORMAT.
`cp` is the core port on which it entered the hub. -/
def State.deliverCell (s : State) (cp : Nat) (c : Cell) : State :=
  let t := c.ten.toNat
  let n := c.nm1.toNat + 1
  if c.kind = kWRITE then
    s.accessWrite false cp t c.f1.toNat c.f2.toNat (c.words.take n) false
  else if c.kind = kREAD then s.readCell cp c false
  else if c.kind = kRESP then s.takeResp c
  else if c.kind = kBWRITE then
    s.accessWrite true cp t c.f1.toNat c.f2.toNat (c.words.take n) false
  else if c.kind = kTUNNEL then s.takeTunnel c
  else if c.kind = kCTRL then
    match cellFormat c with
    | 1 => s.receiveSample c.words
    | 4 => (execHeartbeatReceived c s).or s
    | 6 => s.mirrorArrive c.words
    | 7 => s.voteArrive c.f1.toNat c.words
    | 8 => s.remoteArrive c.words
    | _ => s
  else s

/-- Whether a cell is for this hub alone (R18, R285). -/
def State.cellHere (s : State) (c : Cell) : Bool :=
  c.kind != kBWRITE && c.kind != kORPHAN && c.node.toNat == s.node

/-- Whether a cell is a broadcast (R313). -/
def isBroadcast (c : Cell) : Bool := c.kind == kBWRITE || (c.kind == kCTRL && c.node == 0xFFFF)

/-- Whether a cell shows this hub as its sender (R318). -/
def State.isOwnCell (s : State) (c : Cell) : Bool := shownSender c == some s.node

/-- The core port of this hub that a cell goes to (R14): CP17 for an inbound window and for a tunnel whose
frames go to the host, else its block's. -/
def State.localPort (s : State) (c : Cell) : Nat :=
  let e := s.peek c.f1.toNat
  if c.kind = kTUNNEL then
    if e.valid && e.type == tTUNNEL && s.get (BRG_TUN.SINK e.index) == 3 then 17 else localCp c
  else if (c.kind == kWRITE || c.kind == kREAD || c.kind == kBWRITE) && e.valid && e.iwin.isSome then 17
  else localCp c

/-- NODE 0 of a unicast cell names this hub itself (R18, R20). -/
def State.ownNode (s : State) (c : Cell) : Cell :=
  if c.node = 0 && c.kind != kBWRITE && c.kind != kORPHAN then { c with node := BitVec.ofNat 16 s.node } else c

/-! ### The windows of own rows (R341, R346) -/

/-- Insert the cells of a window on both rings, as far as slots are free: a cell without a slot is
discarded (R341, R346).  A cell for NODE 0 or this hub's own number is served here and never enters the ring, a
broadcast write is served here too (R20, R30). -/
def State.insertCells (s : State) (r : Row) (slots : Nat) (cs : List Cell) : State :=
  match cs with
  | [] => s
  | c :: rest =>
    let c := s.ownNode c
    if s.cellHere c then (s.deliverCell r.src { c with cls := cTT }).insertCells r slots rest else
    match slots with
    | 0 => ((s.inc CYC_TTCNT.COLLIDE).raise Kind.TT_COLLIDE r.idx).insertCells r 0 rest
    | n + 1 =>
      let (s, c) := s.originate { c with cls := cTT }
      let s := r.outs.foldl (fun s cp => s.sendTt cp c) s
      let s := if c.kind = kBWRITE then s.deliverCell r.src c else s
      s.insertCells r n rest

/-- TT_WINDOW (R341): the window of an own row that selects the running cycle begins.  `busy` slots of it
are taken by transit cells; `cells` are those that the block on SRC offers beside the cells that the hub
makes itself. -/
def execTtWindow (row : Fin 4096) (busy : BitVec 14) (cells : List Cell) (s : State) : Result :=
  if cells.any (fun c => c.words.length != 20) then .fault (.illFormed "TT_WINDOW") else
  match s.ownRows.find? (fun r => r.idx == row.val) with
  | none => .next s
  | some r =>
    if r.start < s.cyc.offset || !s.cellsLeave || s.cyc.stopped then .next s
    else
      let s := s.advance (r.start - s.cyc.offset)
      if s.cyc.grdNode ≠ r.owner then .next (r.outs.foldl (fun s cp => s.tripGuard (cpPort cp)) s)
      else
        let hb := s.carriesHeartbeat r
        let beat := if hb then [s.ctrl cTT 0xFFFF s.heartbeatWords] else []
        let s := if hb then { s with cyc := { s.cyc with hseq := (s.cyc.hseq + 1) % 256 } } else s
        let (s, samples) := s.takeSamples r
        let (s, mirror) := s.takeMirror r (r.cells - beat.length)
        let offered := cells.filter (fun c => (s.ownNode c).node.toNat == r.dest || (c.kind == kBWRITE && r.dest == 0xFFFF))
        let own := (beat ++ samples ++ mirror ++ offered).take r.cells
        .next (s.insertCells r (r.cells + 1 - busy.toNat) own)

/-! ### Arrival (R21, R285, R294, R303, R304, R319, R320, R345 to R347, R353) -/

/-- Whether a cell's class is enabled for cut-through at ingress core port `i` (R325). -/
def State.cutEnabled (s : State) (i : Nat) (cls : BitVec 2) : Bool :=
  match cls.toNat with
  | 1 => s.on (XBAR_FWD.CTCTL i)
  | 2 => s.on (XBAR_FWD.CTPRIO i)
  | 3 => s.on (XBAR_FWD.CTBULK i)
  | _ => false

/-- Whether ring egress core port `o` may send an arbitrated cell now (R297, R306, R324, R330). -/
def State.outOpen (s : State) (o : Nat) : Bool :=
  decide (16 ≤ o) || (s.cellsLeave && s.subUp (cpPort o) (cpSub o) && s.sealOpen (cpPort o)
    && !s.on (RINGP_STAT.WRAP (cpPort o)))

/-- Whether an arbitrated cell passes cut-through (R325): its class is enabled, its output is no slower than its
input, is open and has nothing to send, and no cell of its class waits before it. -/
def State.passes (s : State) (i o : Nat) (c : Cell) : Bool :=
  s.cutEnabled i c.cls && (decide (o < 16) || decide (16 ≤ i)) && s.outOpen o && !s.outShut o
    && s.xbar.tt.all (fun x => x.2 != o) && s.xbar.cut.all (fun x => x.2 != o || x.1 == i)
    && (List.range 32).all (fun j => (s.xp j o).isEmpty)
    && (s.inq i).all (fun q => q.out != o || q.cell.cls != c.cls)

/-- A TT cell of input `i` takes output `o` through the crosspoint's bypass: neither takes part in this cell time
(R324). -/
def State.bypass (s : State) (i o : Nat) : State := { s with xbar := { s.xbar with tt := (i, o) :: s.xbar.tt } }

/-- An arbitrated cell goes on to output `o`: cut-through, or into the input queue (R320, R325). -/
def State.toOutput (s : State) (i o : Nat) (c : Cell) (own : Option Nat) (copy : Bool) : State :=
  if s.passes i o c then
    let s := { s with xbar := { s.xbar with cut := (i, o) :: s.xbar.cut } }
    if o < 16 then s.sendRing o c else s.deliverCell i c
  else s.queueCell i o c own copy

/-- An arbitrated cell goes on its way to ring egress; one that no path is left for is dropped at the wrap
point (R303). -/
def State.transit (s : State) (p k : Nat) (c : Cell) : State :=
  match s.route (otherPort p) k c with
  | .error w => s.wrapDrop w
  | .ok (o, c) => s.toOutput (4 * p + k) o c none false

/-- A TT cell arrives on sub-link `k` of port `p`: policed, noted, removed by its sender, delivered at its
first copy, forwarded on the same sub-link index ahead of everything else. -/
def State.ttArrives (s : State) (p k : Nat) (c : Cell) : State :=
  if !s.ttAllowed p k then s.police p k
  else
    let s := s.setRport p { s.rport p with ttSeen := true }
    if s.isOwnCell c && c.wrap != 1 then s
    else
      let s := s.noteSeen k c
      let take := s.cellHere c || isBroadcast c
      let s := if s.cellHere c then s
        else (s.passTt (4 * otherPort p + k) c).bypass (4 * p + k) (4 * otherPort p + k)
      let s := if take then s.bypass (4 * p + k) (s.localPort c) else s
      if !take then s
      else
        let r := s.secondCopy (cellCrc c).toNat (pathB p)
        if r.2 then r.1 else r.1.deliverCell (4 * p + k) c

/-- An arbitrated cell arrives (R285, R303, R304, R320). -/
def State.arbitratedArrives (s : State) (p k : Nat) (c : Cell) : State :=
  let i := 4 * p + k
  if s.isOwnCell c && c.wrap != 1 then s
  else if s.cellHere c then
    if s.inqFull i then (s.inc XBAR_DROP.INQ).raise Kind.XBAR_IN_DROP i
    else s.queueCell i (s.localPort c) c none false
  else
    let take := isBroadcast c && c.wrap != 1
    if s.inqFull i then (s.inc XBAR_DROP.INQ).raise Kind.XBAR_IN_DROP i
    else
      let s := if take then s.queueCell i (s.localPort c) c none true else s
      s.transit p k c

/-- A LINK cell is consumed by its ring port (R297, R306, R355). -/
def State.linkArrives (s : State) (p : Fin 4) (c : Cell) : State :=
  match cellFormat c with
  | 3 => (execKeyExchangeReceived p c.words s).or s
  | 5 => (execLinkDelayReceived p c.words (BitVec.ofNat 48 s.localTimer) s).or s
  | _ => s

/-- A cell that arrived intact. -/
def State.goodCell (s : State) (p k : Fin 4) (c : Cell) : State :=
  let cp := 4 * p.val + k.val
  if badHeader cp c then s.dropHeader cp
  else if c.kind = kLINK then s.linkArrives p c
  else if s.on (RINGP_CTL.SEAL p.val) && s.get (RINGP_STAT.SEALST p.val) != 2 then s
  else if c.node = 0 then s.raise Kind.ADDR_ZERO (c.f1.toNat * 2 ^ 16 + c.f2.toNat)
  else if c.kind = kCTRL && cellFormat c == 2 then
    (execSyncCellReceived p k c (BitVec.ofNat 48 s.localTimer) s).or s
  else if c.cls = cTT then s.ttArrives p.val k.val c
  else s.arbitratedArrives p.val k.val c

/-- Where the hub forwards an arriving cell cut-through, and the cell as it goes on; none where it does not
(R285, R294, R325). -/
def State.cutOutput (s : State) (p k : Nat) (c : Cell) : Option (Nat × Cell) :=
  if c.kind = kLINK || (s.isOwnCell c && c.wrap != 1) || s.cellHere c then none
  else if c.cls = cTT then
    if s.pathOpen (otherPort p) k then some (4 * otherPort p + k, c) else none
  else match s.route (otherPort p) k c with
    | .error _ => none
    | .ok (o, c) => if s.passes (4 * p + k) o c then some (o, c) else none

/-- A bad cell: dropped with CELL_CRC, or, where the hub was already forwarding it cut-through, finished with
its CRC inverted (R294). -/
def State.badCell (s : State) (p k : Nat) (x : Slot) : State :=
  let s := s.inc (RINGP_CNT.CRC p)
  match x.cut, s.cutOutput p k x.cell with
  | true, some (o, c) =>
    let w := s.onWire (cpPort o) (cpSub o) c
    w.1.emit (.ring o w.2.1 (~~~w.2.2))
  | _, _ => s.raise Kind.CELL_CRC (k * 256 + p)

/-- Whether slot `i` of sub-link `k` overlaps a codeword that was uncorrectable: blocks 132i / 32 to
(132i + 131) / 32 of the superframe, block n being one of the codeword with CSEQ n / 40 on position
2k + n mod 2 (R292, R294). -/
def State.slotHit (s : State) (p k i : Nat) : Bool :=
  let lo := 132 * i / 32
  (List.range ((132 * i + 131) / 32 + 1 - lo)).any (fun j =>
    (s.rlane p (s.laneOf p (2 * k + (lo + j) % 2))).bad.contains ((lo + j) / 40))

/-- CELL_ARRIVAL (R294, R308): the slot's check, then what the cell is. -/
def execCellArrival (port sub : Fin 4) (slot : Slot) (s : State) : Result :=
  if slot.cell.words.length ≠ 20 then .fault (.illFormed "CELL_ARRIVAL")
  else if emptySlot slot then .next s
  else
    let p := port.val
    let ue := slot.ue || s.slotHit p sub.val slot.index.val
    let o := s.offWire p sub.val slot.count slot.cell slot.crc
    if s.get (RINGP_STAT.SEALST p) = 2 then
      if ue then .next (s.badCell p sub.val { slot with cell := o.1 })
      else if o.2 then .next (s.goodCell port sub o.1)
      else .next ((s.inc (RINGP_CNT.AUTH p)).raise Kind.SEAL_AUTH (sub.val * 256 + p))
    else
      let crc := cellCrc slot.cell
      if slot.crc = crc && !ue then .next (s.goodCell port sub slot.cell)
      else if slot.crc = ~~~crc && !ue then .next (s.inc (RINGP_CNT.STOMP p))
      else .next (s.badCell p sub.val slot)

/-! ### Admission (R20, R286, R317, R320, R326, R327, R386) -/

/-- Whether a cell counts against a tenant; CTRL and LINK cells count against `XBAR_CTLCAP`. -/
def tenantCell (c : Cell) : Bool := c.kind != kCTRL && c.kind != kLINK

/-- The class that the hub gives a cell at its admission (R314); a RESP keeps the class of its READ where
that is an arbitrated one. -/
def State.classed (s : State) (ten : Nat) (c : Cell) : Cell :=
  if !tenantCell c then { c with cls := cCTL }
  else if c.kind = kRESP && (c.cls == cPRIO || c.cls == cBULK) then c
  else { c with cls := s.tenClass ten }

/-- Whether quota, cap and queue let a cell of core port `cp` in now. -/
def State.mayAdmit (s : State) (cp ten : Nat) (c : Cell) : Bool :=
  (if tenantCell c then s.inQuota ten else decide (s.xbar.ctlUsed < s.get XBAR_CTLCAP.CELLS))
  && (decide (cp < 16) || !s.inqFull cp)
  && (cp != 16 || c.kind == kRESP
      || decide (((s.inq 16).filter (fun q => q.cell.kind != kRESP && !q.copy)).length < 24))

/-- Count an admission (R326, R327); `stays` says that the cell takes a place in the core. -/
def State.countAdmitted (s : State) (ten : Nat) (c : Cell) (stays : Bool) : State :=
  if tenantCell c then
    let s := s.addSat (XBAR_TSTAT.ADMITTED ten) 1
    if stays then s.addSat (XBAR_TSTAT.BUFFERED ten) 1 else s
  else { s with xbar := { s.xbar with ctlUsed := s.xbar.ctlUsed + 1 } }

/-- An admitted cell enters the core for output `o`; one that passes cut-through takes no place (R325, R326). -/
def State.enter (s : State) (cp o ten : Nat) (c : Cell) : State :=
  (s.countAdmitted ten c (!s.passes cp o c)).toOutput cp o c (if tenantCell c then some ten else none) false

/-- Place an admitted cell: a broadcast read is refused (R30, R32); a cell for this hub goes to its block, a
broadcast there and to the ring, any other to the ring by its flow (R20, R286). -/
def State.place (s : State) (cp ten : Nat) (c : Cell) : State :=
  let c := s.ownNode c
  if c.kind = kREAD && c.node == 0xFFFF then
    ((s.countAdmitted ten c false).refuse stBCAST c.f1.toNat c.f2.toNat).sendFor cp ten
      (s.respCell (c.words.getD 0 0) c.cls stBCAST [])
  else if s.cellHere c then s.enter cp (s.localPort c) ten c
  else
    let f := Cell.flow c
    let r := s.originate c
    match r.1.route (flowPort f) (f / 4 % 4) r.2 with
    | .error w =>
      let s := (r.1.countAdmitted ten c false).wrapDrop w
      if isBroadcast c then s.queueCell cp (s.localPort c) c none true else s
    | .ok (o, d) =>
      let s := r.1.enter cp o ten d
      if isBroadcast c then s.queueCell cp (s.localPort c) c none true else s

/-- Admit a cell that may be admitted. -/
def State.letIn (s : State) (cp ten : Nat) (c : Cell) : State :=
  if c.kind = kLINK then (s.countAdmitted ten c false).emitLink (cpPort cp) c
  else s.place cp ten (s.classed ten c)

/-- CELL_ADMISSION: the block on `cp` offers a cell, one that waits there or a new one behind those that
wait.  Cells of one tenant, and CTRL cells, keep their order. -/
def execCellAdmission (cp : Fin 32) (cell : Cell) (s : State) : Result :=
  if cell.words.length ≠ 20 then .fault (.illFormed "CELL_ADMISSION")
  else
    let p := cp.val
    let queue := Tab.get [] s.xbar.waiting p
    let before := queue.takeWhile (fun (w : WCell) => w.cell != cell)
    let after := queue.drop (before.length + 1)
    let found := queue.drop before.length |>.head?
    let ten := match found with
      | some w => w.ten
      | none => if cell.kind = kRESP then 0 else cell.ten.toNat
    let setQ := fun (s : State) (q : List WCell) =>
      ({ s with xbar := { s.xbar with waiting := Tab.put [] s.xbar.waiting p q } } : State)
    if (badHeader p cell || (p < 16 && cell.kind != kLINK)) then .next ((setQ s (before ++ after)).dropHeader p)
    else
      let blocked := before.any (fun (w : WCell) =>
        tenantCell w.cell == tenantCell cell && (!tenantCell cell || w.ten == ten))
      let open_ := if cell.kind = kLINK then s.linkOpen (cpPort p) else true
      if blocked || !open_ || !s.mayAdmit p ten cell then
        .next (if found.isSome then s else setQ s (queue ++ [.mk cell ten]))
      else .next (((setQ s (before ++ after)).letIn p ten cell))

/-- FORWARD_SEND (R470): the oldest queued message goes to the collecting node, within the CTL cap; one for
a node that is not present is dropped and counted. -/
def execForwardSend (s : State) : Result :=
  match s.flt.fwdQ with
  | [] => .next s
  | m :: rest =>
    let node := s.get FLT_FWD.NODE
    let c := s.ctrl cCTL node (s.forwardWords m)
    let taken : State := { s with flt := { s.flt with fwdQ := rest } }
    if node = 0 || !s.present node then .next (taken.inc FLT_CNT.FWDDROP)
    else if s.mayAdmit 30 0 c then .next (taken.place 30 0 c)
    else .next s

/-! ### Cell times (R322 to R325, R332) -/

/-- What output `o` does with the cell it read of input `i`: an uncorrectable one is dropped, else it
leaves on the ring or reaches its block. -/
def State.sendOut (s : State) (o i : Nat) (q : QCell) (ue : Bool) : State :=
  if ue then (s.inc XBAR_DROP.UE).raise Kind.XBAR_BUF_UE (o + i * 32)
  else if o < 16 then s.sendRing o q.cell
  else s.deliverCell i q.cell

/-- One output sends one cell, if it may (R323). -/
def State.serveOutput (s : State) (o : Nat) (ue : Bool) : State :=
  if !s.outOpen o || s.outShut o then s
  else match s.readOut o with
    | none => s
    | some (s, i, q) => s.sendOut o i q ue

/-- CELL_TIME (R322 to R324): the outputs that no TT or cut-through cell has taken send, then the inputs move cells
to the crosspoints.  Bit `o` of `ue` says that the cell which output `o` reads is uncorrectable, bit `b` of `ce`
that bank `b` showed a correctable error. -/
def execCellTime (ue : BitVec 32) (ce : BitVec 16) (s : State) : Result :=
  let tt := s.xbar.tt
  let taken := tt ++ s.xbar.cut
  let s := s.each 32 (fun o s => if taken.any (fun x => x.2 == o) then s else s.serveOutput o (ue.getLsbD o))
  let ins := (List.range 32).filter (fun i => !s.inShut i && tt.all (fun x => x.1 != i))
  let outs := (List.range 32).filter (fun o => !s.outShut o && tt.all (fun x => x.2 != o))
  let r := s.matching ins outs
  let s := r.2.foldl (fun (s : State) m => s.moveIn m.1 m.2) r.1
  let s := s.each 16 (fun b s => if ce.getLsbD b then s.bankError b else s)
  let s := { s with xbar := { s.xbar with tt := [], cut := [] } }
  .next ((s.rehome.deliverAll).advance 8)

end Sys2Proof.Machine
end

