-- ==== Sys2Proof/Machine/LaneProfile.lean ====
section
/-! DEFINITION. Chapter 05, the S profile: channel accesses, entry operations, waits and reports of a
sequencer lane (R170 to R174). -/

namespace Sys2Proof.Machine

/-- Lane `k` waits inside an instruction: `SEQ_LANEk.STATE` 0b10. -/
def State.laneWaits (s : State) (k : Nat) (w : Wait) : State :=
  (s.setEngine k { s.engine k with wait := w }).set (SEQ_LANE.STATE k) 2

/-- Lane `k` resumes now, at the end of its instruction (R171, R172). -/
def State.laneResumes (s : State) (k : Fin 8) : State :=
  let s := s.setEngine k.val { s.engine k.val with wait := Wait.none, ready := s.now * 64 }
  (s.set (SEQ_LANE.STATE k.val) 1).finishNext (.lane k) 1

/-- An instruction of lane `k` is refused by its check: C := 1 and SEQ_BAD_ACTION at address `i` (R170). -/
def State.laneRefuses (s : State) (k : Fin 8) (i clocks : Nat) : State :=
  ((s.flags (.lane k) (cF true)).raise Kind.SEQ_BAD_ACTION i).finishNext (.lane k) clocks

/-- Lane `j` issues its next instruction in this tick, one of the opcodes `ops` that names `n` in the low
bits of RA. -/
def State.actsNow (s : State) (j : Fin 8) (ops : List Nat) (hi n : Nat) : Bool :=
  let w := s.fetchWord (.lane j)
  s.runs (.lane j) && decide (ceilDiv (s.issueAt (.lane j)) 64 = s.now) && !w.2 && ops.contains (opcode w.1)
    && wbits (s.reg (.lane j) (fRA w.1)) hi 0 == n

/-- What the lower-numbered lanes do in this tick with their instructions `ops` on what `n` names takes effect
before lane `k`'s (R175); `run` executes such an instruction. -/
def State.lowerLanes (s : State) (k : Fin 8) (ops : List Nat) (hi n : Nat) (run : Fin 8 → State → State) : State :=
  (List.finRange 8).foldl (fun s j => if decide (j < k) && s.actsNow j ops hi n then run j s else s) s

/-- An instruction of lane `k` on a channel (R138, R170): `body` acts on the entry that the lookup
captured, where `ok` holds of it.  While the lookup has to wait, the instruction is not over.  `lower` is what
goes before it (R175). -/
def laneChannelAfter (lower : State → Nat → State) (k : Fin 8) (op : Nat) (ok : State → Nat → Nat → Entry → Bool)
    (body : State → Nat → Nat → Entry → State) (s : State) : State :=
  runInsn (.lane k) op (fun s w =>
    let ch := wbits (s.reg (.lane k) (fRA w)) 15 0
    let s := lower s ch
    let e := s.engine k.val
    let clocks := if op < 0x42 then 2 else 1
    if 0xFFF0 ≤ ch then s.laneRefuses k e.entry clocks
    else
      match s.lookup ch with
      | none => s
      | some (s, c) =>
        if channelOk ch e.tenant c && ok s w ch c then body s w ch c else s.laneRefuses k e.entry clocks) s

/-- The word offset that LDW and STW name lies in the channel (R24, R170). -/
def laneWordOk (k : Fin 8) (s : State) (w _ : Nat) (c : Entry) : Bool :=
  decide (wbits (s.reg (.lane k) (fRB w)) 15 0 < c.extent)

/-- A word that LDW has read reaches its register, and the read locks or unlocks an object (R170, R272). -/
def State.ldwGets (s : State) (k : Fin 8) (ch : Nat) (c : Entry) (i rd : Nat) (v : Word) : State :=
  (s.objectRead ch c i 1).setReg (.lane k) rd v

/-- The effect of LDW (R170): at once where the table port is idle, else the lane waits for its operation;
`ue` says that the word holds an uncorrectable error (R53). -/
def State.ldw (k : Fin 8) (ue : Bool) (s : State) (w ch : Nat) (c : Entry) : State :=
  let i := wbits (s.reg (.lane k) (fRB w)) 15 0
  let g := Engine.lane k
  match s.readChan 27 (s.engine k.val).tenant ch c i 1 (.ldw k.val (fRD w)) ue with
  | (s, .gone) => (s.flags g (cF true)).finishNext g 2
  | (s, .words ws) => ((s.ldwGets k ch c i (fRD w) (ws.getD 0 0)).flags g (cF false)).finishNext g 2
  | (s, .waits id) => s.laneWaits k.val (Wait.movc id)

/-- The effect of STW (R170): abandoned while the home is lost or requester 0 masked (R54, R75). -/
def State.stw (k : Fin 8) (s : State) (w ch : Nat) (c : Entry) : State :=
  let g := Engine.lane k
  let gone := !s.homeUp || !s.alive 0
  let s := s.putChan 27 (s.engine k.val).tenant ch c (wbits (s.reg g (fRB w)) 15 0) [s.reg g (fRD w)]
  (s.flags g (cF gone)).finishNext g 2

/-- The effect of MOVC (R170): the MOVE of R125 at once; the lane waits for its last beat. -/
def State.movc (k : Fin 8) (s : State) (ch : Nat) (c : Entry) : State :=
  let g := Engine.lane k
  let id := s.tbl.nextOp
  let gone := !s.homeUp || !s.alive 0
  let r := s.beginMove (Purpose.movc k.val) ch c
  match r.2 with
  | .opened => r.1.laneWaits k.val (Wait.movc id)
  | .nothing => (r.1.flags g (cF false)).finishNext g 1
  | .never => (r.1.flags g (cF gone)).finishNext g 1

/-- The effect of VOTE (R170): it follows at once. -/
def State.laneVote (k : Fin 8) (s : State) (ch : Nat) (c : Entry) : State :=
  ((s.vote ch c s.ticks).flags (.lane k) (cF false)).finishNext (.lane k) 1

/-- Lane `j` executes its instruction on a channel: LDW, STW, MOVC, or VOTE while fewer than 32 actions are
open (R138). -/
def laneWordInsn (j : Fin 8) (s : State) : State :=
  let none_ := fun (s : State) (_ : Nat) => s
  match opcode (s.fetchWord (.lane j)).1 with
  | 0x40 => laneChannelAfter none_ j 0x40 (laneWordOk j) (fun s w ch c => s.ldw j false w ch c) s
  | 0x41 => laneChannelAfter none_ j 0x41 (laneWordOk j) (fun s w ch c => s.stw j w ch c) s
  | 0x42 => laneChannelAfter none_ j 0x42 (fun _ _ _ c => movable c) (fun s _ ch c => s.movc j ch c) s
  | 0x48 =>
    if 32 ≤ s.openActs then s
    else laneChannelAfter none_ j 0x48 (fun s _ ch c => s.voteOk ch c) (fun s _ ch c => s.laneVote j ch c) s
  | _ => s

/-- What the lower-numbered lanes do with channel `ch` in this tick (R175). -/
def State.lowerWords (s : State) (k : Fin 8) (ch : Nat) : State :=
  s.lowerLanes k [0x40, 0x41, 0x42, 0x48] 15 ch laneWordInsn

/-- An instruction of lane `k` on a channel, after those of lower-numbered lanes in this tick (R175). -/
def laneChannel (k : Fin 8) (op : Nat) (ok : State → Nat → Nat → Entry → Bool)
    (body : State → Nat → Nat → Entry → State) (s : State) : State :=
  laneChannelAfter (fun s ch => s.lowerWords k ch) k op ok body s

/-- LDW (R170). -/
def execLdw (k : Fin 8) (ue : Bool) (s : State) : Result :=
  .next (laneChannel k 0x40 (laneWordOk k) (fun s w ch c => s.ldw k ue w ch c) s)

/-- STW (R170). -/
def execStw (k : Fin 8) (s : State) : Result :=
  .next (laneChannel k 0x41 (laneWordOk k) (fun s w ch c => s.stw k w ch c) s)

/-- MOVC (R170). -/
def execMovc (k : Fin 8) (s : State) : Result :=
  .next (laneChannel k 0x42 (fun _ _ _ c => movable c) (fun s _ ch c => s.movc k ch c) s)

/-- What lane `k` waited for at the table port is over (R170): a MOVC's last beat or an LDW's word has come,
or its operation was abandoned (R53, R54). -/
def State.laneSees (s : State) (k : Fin 8) (id : Nat) : State :=
  match s.op id with
  | none => (s.flags (.lane k) (cF true)).laneResumes k
  | some o =>
    if !o.closed then s
    else if o.failed then (((s.retireOp o).flags (.lane k) (cF true)).laneResumes k)
    else
      match o.purpose with
      | .ldw _ rd =>
        let s := (s.ldwGets k o.ch o.entry o.first rd (Tab.get 0 o.data o.first)).retireOp o
        (s.flags (.lane k) (cF false)).laneResumes k
      | _ => (((s.moveBeat o).retireOp o).flags (.lane k) (cF false)).laneResumes k

/-- MOVC_COMPLETE (R170): the last beat of a lane's MOVC, or its end without one (R53). -/
def execMovcComplete (k : Fin 8) (s : State) : Result :=
  match (s.engine k.val).wait with
  | .movc id => .next (s.laneSees k id)
  | _ => .next s

/-! ### Entries (R141) -/

/-- FIRE, ARM or DISARM on an entry that the program may reach: `body` answers the state and whether
the instruction acted (R141, R170).  A firing of the entry that is due is dispatched first (R154), and an entry with
an uncorrectable error is rewritten (R129).  `lower` is what goes before the instruction (R175). -/
def laneEntryAfter (lower : State → Nat → State) (k : Fin 8) (op : Nat) (ue : Bool) (ok : Eph → Bool)
    (body : State → Nat → State × Bool) (s : State) : State :=
  runInsn (.lane k) op (fun s w =>
    let i := wbits (s.reg (.lane k) (fRA w)) 17 0
    let s := lower ((s.dispatchDueOf (fun j => j == i) 1).touchEntry i ue) i
    let t := (s.engine k.val).tenant
    if (t != 0 && (s.entry i).tenant != t) || !ok (s.entry i) then s.laneRefuses k i 2
    else
      let r := body s i
      (r.1.flags (.lane k) (cF (!r.2))).finishNext (.lane k) 2) s

/-- The effect of FIRE (R141): without RUN nothing is dispatched (R155). -/
def State.fireEntry (s : State) (i : Nat) : State × Bool :=
  if s.on SEQ_CTL.RUN then (s.dispatch i s.ticks .fire, true) else (s, false)

/-- The effect of ARM (R128, R130, R141). -/
def State.armEntry (s : State) (i : Nat) : State × Bool :=
  let e := s.entry i
  if e.state = eQUEUED then (s, true)
  else if e.state = eFREE && !s.underCap e.tenant then
    (s.raise Kind.SEQ_CAP (i + 2 ^ 18 * e.tenant), false)
  else ((s.entryState i eARMED).armNext i, true)

/-- The effect of DISARM (R130, R141). -/
def State.disarmEntry (s : State) (i : Nat) : State × Bool := ((s.withdraw i).entryState i eIDLE, true)

/-- An entry that FIRE accepts: one that is not FREE (R141). -/
def firable (e : Eph) : Bool := e.state != eFREE

/-- Lane `j` executes its instruction on an entry: FIRE, ARM or DISARM. -/
def laneEntryInsn (j : Fin 8) (s : State) : State :=
  let none_ := fun (s : State) (_ : Nat) => s
  match opcode (s.fetchWord (.lane j)).1 with
  | 0x43 => laneEntryAfter none_ j 0x43 false firable (fun s i => s.fireEntry i) s
  | 0x44 => laneEntryAfter none_ j 0x44 false (fun _ => true) (fun s i => s.armEntry i) s
  | 0x45 => laneEntryAfter none_ j 0x45 false (fun _ => true) (fun s i => s.disarmEntry i) s
  | _ => s

/-- What the lower-numbered lanes do with entry `i` in this tick (R175). -/
def State.lowerEntries (s : State) (k : Fin 8) (i : Nat) : State :=
  s.lowerLanes k [0x43, 0x44, 0x45] 17 i laneEntryInsn

/-- An instruction of lane `k` on an entry, after those of lower-numbered lanes in this tick (R175). -/
def laneEntry (k : Fin 8) (op : Nat) (ue : Bool) (ok : Eph → Bool) (body : State → Nat → State × Bool)
    (s : State) : State :=
  laneEntryAfter (fun s i => s.lowerEntries k i) k op ue ok body s

/-- FIRE (R141): a FREE entry is refused. -/
def execFire (k : Fin 8) (ue : Bool) (s : State) : Result :=
  .next (laneEntry k 0x43 ue firable (fun s i => s.fireEntry i) s)

/-- ARM (R128, R130, R141). -/
def execArm (k : Fin 8) (ue : Bool) (s : State) : Result :=
  .next (laneEntry k 0x44 ue (fun _ => true) (fun s i => s.armEntry i) s)

/-- DISARM (R130, R141). -/
def execDisarm (k : Fin 8) (ue : Bool) (s : State) : Result :=
  .next (laneEntry k 0x45 ue (fun _ => true) (fun s i => s.disarmEntry i) s)

/-! ### Waits (R171, R172) -/

/-- Write the result of a wait: rd and Z. -/
def State.waitResult (s : State) (k : Fin 8) (rd val : Nat) : State :=
  (s.setReg (.lane k) rd (word val)).flags (.lane k) (zF (val == 0))

/-- WAIT_PHASE up to its wait (R171). -/
def execWaitPhase (k : Fin 8) (s : State) : Result :=
  .next (runInsn (.lane k) 0x46 (fun s w =>
    let d := bits w 1 0
    let dir := bits w 3 2
    let fwd := if dir = 3 then s.fwd d else dir == 1
    let target := (s.reg (.lane k) (fRA w)).toNat
    match (if s.phState d = phTRACK then (s.dom d).eff else none) with
    | none => (s.waitResult k (fRD w) 3).finishNext (.lane k) 1
    | some m =>
      if reached fwd m target s.ticks then (s.waitResult k (fRD w) 1).finishNext (.lane k) 1
      else s.laneWaits k.val (Wait.phase d target fwd (fRD w))) s)

/-- PHASE_WAIT_END (R171): the phase reaches the target, or the wait has been ended by a slip or a loss
of phase. -/
def execPhaseWaitEnd (k : Fin 8) (s : State) : Result :=
  match (s.engine k.val).wait with
  | .phaseOut val rd => .next ((s.waitResult k rd val).laneResumes k)
  | .phase d target fwd rd =>
    match (s.dom d).eff with
    | none => .next s
    | some m =>
      if reached fwd m target s.ticks then .next ((s.waitResult k rd 0).laneResumes k)
      else
        match cross fwd m target s.ticks (2 ^ 46) with
        | some n => .next (((s.advance n).waitResult k rd 0).laneResumes k)
        | none => .next s
  | _ => .next s

/-- WAIT_TIME up to its wait (R172). -/
def execWaitTime (k : Fin 8) (s : State) : Result :=
  .next (runInsn (.lane k) 0x47 (fun s w =>
    let t := (s.reg (.lane k) (fRA w)).toNat
    if dt t s.ticks ≤ 0 then (s.waitResult k (fRD w) 1).finishNext (.lane k) 1
    else s.laneWaits k.val (Wait.time t (fRD w))) s)

/-- TIME_WAIT_END (R172). -/
def execTimeWaitEnd (k : Fin 8) (s : State) : Result :=
  match (s.engine k.val).wait with
  | .time t rd => .next (((s.waitTicks t).waitResult k rd 0).laneResumes k)
  | _ => .next s

/-! ### Actions and reports (R170, R173, R174) -/

/-- VOTE (R170); while 32 actions are open the lane waits (R138). -/
def execVote (k : Fin 8) (s : State) : Result :=
  if 32 ≤ s.openActs then .next s
  else .next (laneChannel k 0x48 (fun s _ ch c => s.voteOk ch c) (fun s _ ch c => s.laneVote k ch c) s)

/-- TARIFF (R138, R170, R444): the request is registered at once; while 32 actions are open the lane
waits. -/
def execTariff (k : Fin 8) (s : State) : Result :=
  if 32 ≤ s.openActs then .next s
  else .next (runInsn (.lane k) 0x49 (fun s w =>
    let f := bits w 12 8
    let e := s.engine k.val
    let s := if e.tenant = 0 || s.get (FEED_CFG.TENANT f) = e.tenant then s.requestTariff f (bits w 1 0)
      else s.raise Kind.SEQ_BAD_ACTION e.entry
    s.finishNext (.lane k) 1) s)

/-- SIGNAL (R174). -/
def execSignal (k : Fin 8) (s : State) : Result :=
  .next (runInsn (.lane k) 0x4A (fun s w =>
    let cls := bits w 7 6
    if cls = 3 && (s.engine k.val).tenant != 0 then s.stopLane k.val 6
    else (s.raise (Kind.mk 0x06 (0x40 * cls + 0x30 + bits w 3 0))
      (wbits (s.reg (.lane k) (fRA w)) 31 0)).finishNext (.lane k) 1) s)

/-- RDT (R173). -/
def execRdt (k : Fin 8) (s : State) : Result :=
  .next (runInsn (.lane k) 0x4B (fun s w =>
    (s.setReg (.lane k) (fRD w) (word s.ticks)).finishNext (.lane k) 1) s)

/-- RDPH (R173). -/
def execRdph (k : Fin 8) (s : State) : Result :=
  .next (runInsn (.lane k) 0x4C (fun s w =>
    let d := bits w 1 0
    ((s.setReg (.lane k) (fRD w) (word (s.phaseNow d))).flags (.lane k) (cF (!s.hasPhase d))).finishNext
      (.lane k) 1) s)

end Sys2Proof.Machine
end

