-- ==== Sys2Proof/Machine/Port.lean ====
section
/-! DEFINITION. The bursts of the table port (R71): what an operation that has closed brings to the block that
waits for it, and what a way of the channel cache that comes free lets go on (R59). -/

namespace Sys2Proof.Machine

/-- An operation is over: it goes. -/
def State.endOp (s : State) (id : Nat) : State :=
  { s with tbl := { s.tbl with ops := s.tbl.ops.filter (fun (o : Op) => o.id != id) } }

/-- The words that a read operation has brought. -/
def Op.words (o : Op) : List Word := Tab.getList 0 o.data o.first o.count

/-- The READ of a cell: its RESP leaves (R315); a lane's LDW ends (R170), a DISCRETE action gets its command
word (R142), a VOTE its copy (R423), the mirror engine its pass (R417), an automatic stream its burst (R222).
A MOVE and a MOVC end by commands of their own. -/
def State.deliverOp (s : State) (o : Op) : State :=
  match o.purpose with
  | .read ret cls out => (s.endOp o.id).respond o.ten o.ch o.entry o.first ret cls out o.words
  | .ldw k _ =>
    if (s.engine k).wait == Wait.movc o.id then s.laneSees (Fin.ofNat 8 k) o.id else s.endOp o.id
  | .discrete id => (s.endOp o.id).timeDiscrete id (o.words.getD 0 0)
  | .vote iv => (s.endOp o.id).voteCopies o.entry iv o.words
  | .mirror =>
    let s := s.endOp o.id
    if s.mirrorSends then { s with red := { s.red with txCells := s.mirrorCells o.ch o.words } } else s
  | .auto => s.autoClosed o
  | _ => s

/-- Deliver every operation that has closed with its words. -/
def State.deliverOps (s : State) : State :=
  (s.tbl.ops.filter (fun (o : Op) => o.closed && !o.failed)).foldl (fun s o => s.deliverOp o) s

/-- The READ cell that an access which waited had come as. -/
def readCellOf (ten ch w count : Nat) (ret : Word) (cls : BitVec 2) : Cell :=
  { node := 0, f1 := BitVec.ofNat 16 ch, f2 := BitVec.ofNat 16 w, kind := kREAD, cls := cls, wrap := 0
    ten := BitVec.ofNat 4 ten, nm1 := BitVec.ofNat 5 (count - 1), words := pad20 [ret] }

/-- What has waited for a way of the channel cache tries again (R59). -/
def State.retry (s : State) (x : Blocked) : State :=
  match x with
  | .write bcast cp ten ch w ws => s.accessWrite bcast cp ten ch w ws false
  | .read cp ten ch w count ret cls out ue =>
    s.accessRead cp ten ch w count ret cls out (readCellOf ten ch w count ret cls) ue
  | .frame c o ws => s.frameToObject c o ws
  | .result c b ch result gen ticks => s.resultAt c b ch result gen ticks
  | .mirror ws => s.mirrorArrive ws
  | .tunnel c => s.takeTunnel c

/-- Everything that waits for a way tries again, in its order; what finds none goes on waiting. -/
def State.retryBlocked (s : State) : State :=
  s.tbl.blocked.foldl (fun s x => s.retry x) { s with tbl := { s.tbl with blocked := [] } }

/-- Ways may have come free, and words may have come or gone: what waits goes on. -/
def State.goOn (s : State) : State := s.deliverOps.pumpAll.reapOps.retryBlocked

/-- ARBITRATION_ROUND (R73). -/
def execArbitrationRound (s : State) : Result := .next s.arbitrate.goOn

/-- READ_BURST_ARRIVAL (R71); `ue` says that the burst returns an uncorrectable error, and `ce` how many
errors the DDR5 home has corrected in it (R51). -/
def execReadBurstArrival (ue : Bool) (ce : BitVec 16) (s : State) : Result :=
  let s := if s.homeSel = 1 && !s.tbl.flight.isEmpty then s.ddrErrors ce.toNat else s
  .next (s.readArrives ue).goOn

/-- WRITE_BURST_COMMIT (R71): of requester `n`. -/
def execWriteBurstCommit (n : Fin 8) (s : State) : Result := .next (s.commitBurst n.val).goOn

end Sys2Proof.Machine
end

