-- ==== Sys2Proof/Machine/Dispatch.lean ====
section
/-! DEFINITION. One arm per command: a direct call of its meaning. -/

namespace Sys2Proof.Machine

/-- The effect of a command on everything but the queue. -/
def exec (i : Instr) (s : State) : Host.Outcome State Fault Refusal :=
  match i with
  -- Register file and fabric accesses (01, 18)
  | .registerWrite addr v => Sys2Proof.Machine.execRegisterWrite addr v s
  | .registerReadClear addr => Sys2Proof.Machine.execRegisterReadClear addr s
  | .fabricWrite cp ten addr ws => Sys2Proof.Machine.execFabricWrite cp ten addr ws s
  | .fabricRead cp ten addr nm1 ret ue => Sys2Proof.Machine.execFabricRead cp ten addr nm1 ret ue s
  | .broadcastWrite sender ten ch w ws => Sys2Proof.Machine.execBroadcastWrite sender ten ch w ws s
  | .cellArrival port sub slot => Sys2Proof.Machine.execCellArrival port sub slot s
  -- Channel table, cache and table port (02)
  | .tblInval v => Sys2Proof.Machine.execTblInval v s
  | .tblUpdate v => Sys2Proof.Machine.execTblUpdate v s
  | .invalService ue => Sys2Proof.Machine.execInvalService ue s
  | .invalRefetch ue => Sys2Proof.Machine.execInvalRefetch ue s
  | .updateService => Sys2Proof.Machine.execUpdateService s
  | .doorbellComplete => Sys2Proof.Machine.execDoorbellComplete s
  | .entryFetch ch ue => Sys2Proof.Machine.execEntryFetch ch ue s
  | .tblHomeWrite v => Sys2Proof.Machine.execTblHomeWrite v s
  | .homeLost cause => Sys2Proof.Machine.execHomeLost cause s
  | .homeReturn => Sys2Proof.Machine.execHomeReturn s
  | .ddrRetrain pass => Sys2Proof.Machine.execDdrRetrain pass s
  | .arbitrationRound => Sys2Proof.Machine.execArbitrationRound s
  | .revocation => Sys2Proof.Machine.execRevocation s
  | .aliveFall n => Sys2Proof.Machine.execAliveFall n s
  | .readBurstArrival ue ce => Sys2Proof.Machine.execReadBurstArrival ue ce s
  | .writeBurstCommit n => Sys2Proof.Machine.execWriteBurstCommit n s
  | .tblStarve n => Sys2Proof.Machine.execTblStarve n s
  -- Phase domains (03)
  | .roleWrite d v => Sys2Proof.Machine.execRoleWrite d v s
  | .phSrcWrite d v => Sys2Proof.Machine.execPhSrcWrite d v s
  | .setphWrite d v => Sys2Proof.Machine.execSetphWrite d v s
  | .slipAck d => Sys2Proof.Machine.execSlipAck d s
  | .encoderEdge d a b => Sys2Proof.Machine.execEncoderEdge d a b s
  | .indexEdge d => Sys2Proof.Machine.execIndexEdge d s
  | .ssiReadStart d => Sys2Proof.Machine.execSsiReadStart d s
  | .ssiReadEnd d raw => Sys2Proof.Machine.execSsiReadEnd d raw s
  | .mainsEdge d => Sys2Proof.Machine.execMainsEdge d s
  | .sampleReceived ws => Sys2Proof.Machine.execSampleReceived ws s
  | .modelEffective d => Sys2Proof.Machine.execModelEffective d s
  | .phFailover d => Sys2Proof.Machine.execPhFailover d s
  | .phStale d => Sys2Proof.Machine.execPhStale d s
  | .directionChange d => Sys2Proof.Machine.execDirectionChange d s
  -- Ephemeris and sequencer (04)
  | .ephemerisWrite ten w ws ue => Sys2Proof.Machine.execEphemerisWrite ten w ws ue s
  | .sweepVisit e ue => Sys2Proof.Machine.execSweepVisit e ue s
  | .dispatch ue => Sys2Proof.Machine.execDispatch ue s
  | .moveComplete => Sys2Proof.Machine.execMoveComplete s
  | .programStart k => Sys2Proof.Machine.execProgramStart k s
  | .laneRunmax k => Sys2Proof.Machine.execLaneRunmax k s
  | .timedCommand => Sys2Proof.Machine.execTimedCommand s
  | .deadlineMiss => Sys2Proof.Machine.execDeadlineMiss s
  | .holdRelease v => Sys2Proof.Machine.execHoldRelease v s
  | .runClear v => Sys2Proof.Machine.execRunClear v s
  -- Detaica, both profiles (05): the engine executes the instruction at its program counter
  | .nop g => Sys2Proof.Machine.execNop g s
  | .halt g => Sys2Proof.Machine.execHalt g s
  | .mov g => Sys2Proof.Machine.execMov g s
  | .movi g => Sys2Proof.Machine.execMovi g s
  | .movh g => Sys2Proof.Machine.execMovh g s
  | .add g => Sys2Proof.Machine.execAdd g s
  | .sub g => Sys2Proof.Machine.execSub g s
  | .and g => Sys2Proof.Machine.execAnd g s
  | .or g => Sys2Proof.Machine.execOr g s
  | .xor g => Sys2Proof.Machine.execXor g s
  | .shl g => Sys2Proof.Machine.execShl g s
  | .shr g => Sys2Proof.Machine.execShr g s
  | .sar g => Sys2Proof.Machine.execSar g s
  | .addi g => Sys2Proof.Machine.execAddi g s
  | .andi g => Sys2Proof.Machine.execAndi g s
  | .ori g => Sys2Proof.Machine.execOri g s
  | .xori g => Sys2Proof.Machine.execXori g s
  | .shli g => Sys2Proof.Machine.execShli g s
  | .shri g => Sys2Proof.Machine.execShri g s
  | .sari g => Sys2Proof.Machine.execSari g s
  | .cmpr g => Sys2Proof.Machine.execCmpr g s
  | .cmpri g => Sys2Proof.Machine.execCmpri g s
  | .tst g => Sys2Proof.Machine.execTst g s
  | .br g => Sys2Proof.Machine.execBr g s
  | .call g => Sys2Proof.Machine.execCall g s
  | .ret g => Sys2Proof.Machine.execRet g s
  | .loop g => Sys2Proof.Machine.execLoop g s
  | .wait g => Sys2Proof.Machine.execWait g s
  | .ext g => Sys2Proof.Machine.execExt g s
  | .ins g => Sys2Proof.Machine.execIns g s
  | .jmpr g => Sys2Proof.Machine.execJmpr g s
  -- Detaica, S profile
  | .ldw k ue => Sys2Proof.Machine.execLdw k ue s
  | .stw k => Sys2Proof.Machine.execStw k s
  | .movc k => Sys2Proof.Machine.execMovc k s
  | .movcComplete k => Sys2Proof.Machine.execMovcComplete k s
  | .fire k ue => Sys2Proof.Machine.execFire k ue s
  | .arm k ue => Sys2Proof.Machine.execArm k ue s
  | .disarm k ue => Sys2Proof.Machine.execDisarm k ue s
  | .waitPhase k => Sys2Proof.Machine.execWaitPhase k s
  | .phaseWaitEnd k => Sys2Proof.Machine.execPhaseWaitEnd k s
  | .waitTime k => Sys2Proof.Machine.execWaitTime k s
  | .timeWaitEnd k => Sys2Proof.Machine.execTimeWaitEnd k s
  | .vote k => Sys2Proof.Machine.execVote k s
  | .tariff k => Sys2Proof.Machine.execTariff k s
  | .signal k => Sys2Proof.Machine.execSignal k s
  | .rdt k => Sys2Proof.Machine.execRdt k s
  | .rdph k => Sys2Proof.Machine.execRdph k s
  -- Detaica, T profile
  | .shifto b t => Sys2Proof.Machine.execShifto b t s
  | .shifti b t samples => Sys2Proof.Machine.execShifti b t samples s
  | .selectRelease b t edges samples => Sys2Proof.Machine.execSelectRelease b t edges samples s
  | .wclk b t => Sys2Proof.Machine.execWclk b t s
  | .wpin b t => Sys2Proof.Machine.execWpin b t s
  | .cmp b t => Sys2Proof.Machine.execCmp b t s
  | .pop b t => Sys2Proof.Machine.execPop b t s
  | .push b t => Sys2Proof.Machine.execPush b t s
  | .instructionWaitEnd b t pins => Sys2Proof.Machine.execInstructionWaitEnd b t pins s
  | .mark b t => Sys2Proof.Machine.execMark b t s
  | .rewind b t => Sys2Proof.Machine.execRewind b t s
  | .release b t => Sys2Proof.Machine.execRelease b t s
  | .clkctl b t => Sys2Proof.Machine.execClkctl b t s
  | .seqStoreWrite w v => Sys2Proof.Machine.execSeqStoreWrite w v s
  | .tenonStoreWrite w v => Sys2Proof.Machine.execTenonStoreWrite w v s
  -- Tenons, mortises and bays (06)
  | .bankOutOfBand b => Sys2Proof.Machine.execBankOutOfBand b s
  | .tenonStart b t v => Sys2Proof.Machine.execTenonStart b t v s
  | .tenonStop b t => Sys2Proof.Machine.execTenonStop b t s
  | .tenonTest b t => Sys2Proof.Machine.execTenonTest b t s
  | .periodicSelftest b => Sys2Proof.Machine.execPeriodicSelftest b s
  | .selftestComplete b t pass ce => Sys2Proof.Machine.execSelftestComplete b t pass ce s
  | .qlinkWrite b v => Sys2Proof.Machine.execQlinkWrite b v s
  | .queueInWrite b l v => Sys2Proof.Machine.execQueueInWrite b l v s
  | .queueOutRead b l => Sys2Proof.Machine.execQueueOutRead b l s
  | .flush b l => Sys2Proof.Machine.execFlush b l s
  | .autoStreamBurst b l => Sys2Proof.Machine.execAutoStreamBurst b l s
  | .streamStall b l => Sys2Proof.Machine.execStreamStall b l s
  | .swapGo b v => Sys2Proof.Machine.execSwapGo b v s
  | .tenonSwapCancel b => Sys2Proof.Machine.execTenonSwapCancel b s
  | .storeCopyComplete b ue => Sys2Proof.Machine.execStoreCopyComplete b ue s
  | .tenSpareIn b => Sys2Proof.Machine.execTenSpareIn b s
  -- Chain ports (07)
  | .chainEnable p v => Sys2Proof.Machine.execChainEnable p v s
  | .kick p => Sys2Proof.Machine.execKick p s
  | .frameStart p => Sys2Proof.Machine.execFrameStart p s
  | .refreshDue p => Sys2Proof.Machine.execRefreshDue p s
  | .frameEnd p => Sys2Proof.Machine.execFrameEnd p s
  | .readbackJudgement p status laneBits crc => Sys2Proof.Machine.execReadbackJudgement p status laneBits crc s
  | .headFrameDecision h a b => Sys2Proof.Machine.execHeadFrameDecision h a b s
  | .claimHoldExpiry h => Sys2Proof.Machine.execClaimHoldExpiry h s
  | .safeTimeout h => Sys2Proof.Machine.execSafeTimeout h s
  | .headPowerUp h size => Sys2Proof.Machine.execHeadPowerUp h size s
  -- Message-bus controllers (08)
  | .mbModeWrite c v => Sys2Proof.Machine.execMbModeWrite c v s
  | .mbModeApply c => Sys2Proof.Machine.execMbModeApply c s
  | .fmaskWrite c v => Sys2Proof.Machine.execFmaskWrite c v s
  | .mbFrameReceived c f => Sys2Proof.Machine.execMbFrameReceived c f s
  | .mbLockTimeout c o => Sys2Proof.Machine.execMbLockTimeout c o s
  | .txreqWrite c v => Sys2Proof.Machine.execTxreqWrite c v s
  | .txcanWrite c v => Sys2Proof.Machine.execTxcanWrite c v s
  | .transmissionEnd c r => Sys2Proof.Machine.execTransmissionEnd c r s
  | .mbBusErr c err => Sys2Proof.Machine.execMbBusErr c err s
  | .mbRecovered c => Sys2Proof.Machine.execMbRecovered c s
  | .mbWake c src => Sys2Proof.Machine.execMbWake c src s
  -- Ring ports and lanes (09)
  | .codewordReceived p l w eye => Sys2Proof.Machine.execCodewordReceived p l w eye s
  | .laneDown p l => Sys2Proof.Machine.execLaneDown p l s
  | .trainFail p l => Sys2Proof.Machine.execTrainFail p l s
  | .laneSwapGo p q => Sys2Proof.Machine.execLaneSwapGo p q s
  | .copyLocked p => Sys2Proof.Machine.execCopyLocked p s
  | .laneSwapFail p => Sys2Proof.Machine.execLaneSwapFail p s
  | .laneSwapBack p => Sys2Proof.Machine.execLaneSwapBack p s
  | .laneSwapCancel p => Sys2Proof.Machine.execLaneSwapCancel p s
  | .keyExchangeReceived p ws => Sys2Proof.Machine.execKeyExchangeReceived p ws s
  | .sealFail p => Sys2Proof.Machine.execSealFail p s
  -- Switch core (10)
  | .cellTime ue ce => Sys2Proof.Machine.execCellTime ue ce s
  | .cellAdmission cp cell => Sys2Proof.Machine.execCellAdmission cp cell s
  | .quotaWrite n v => Sys2Proof.Machine.execQuotaWrite n v s
  | .portHoldExpiry p => Sys2Proof.Machine.execPortHoldExpiry p s
  | .bankSpareGo v => Sys2Proof.Machine.execBankSpareGo v s
  | .xbarSpareIn => Sys2Proof.Machine.execXbarSpareIn s
  -- Cycle matrix, ring time and synchronisation (11)
  | .basicCycleStart => Sys2Proof.Machine.execBasicCycleStart s
  | .matrixBoundary => Sys2Proof.Machine.execMatrixBoundary s
  | .cycCfgWrite v => Sys2Proof.Machine.execCycCfgWrite v s
  | .activationWrite v => Sys2Proof.Machine.execActivationWrite v s
  | .ttWindow row busy cells => Sys2Proof.Machine.execTtWindow row busy cells s
  | .syncCellReceived port sub cell arrival => Sys2Proof.Machine.execSyncCellReceived port sub cell arrival s
  | .offsetCorrection => Sys2Proof.Machine.execOffsetCorrection s
  | .linkDelayReceived p ws arrival => Sys2Proof.Machine.execLinkDelayReceived p ws arrival s
  | .steerRequest v => Sys2Proof.Machine.execSteerRequest v s
  -- Host bridge, tunnels and Ethernet MACs (12)
  | .bar0Request write offset bytes => Sys2Proof.Machine.execBar0Request write offset bytes s
  | .outboundWrite fn offset bytes => Sys2Proof.Machine.execOutboundWrite fn offset bytes s
  | .outboundRead fn offset len => Sys2Proof.Machine.execOutboundRead fn offset len s
  | .respArrival cell => Sys2Proof.Machine.execRespArrival cell s
  | .brgRdTimeout tag => Sys2Proof.Machine.execBrgRdTimeout tag s
  | .tagQuarantineEnd tag => Sys2Proof.Machine.execTagQuarantineEnd tag s
  | .functionLevelReset fn => Sys2Proof.Machine.execFunctionLevelReset fn s
  | .brgLinkDown => Sys2Proof.Machine.execBrgLinkDown s
  | .pcieLinkUp => Sys2Proof.Machine.execPcieLinkUp s
  | .inboundAccess cell => Sys2Proof.Machine.execInboundAccess cell s
  | .hostCompletion id answer => Sys2Proof.Machine.execHostCompletion id answer s
  | .hostReadTimeout id => Sys2Proof.Machine.execHostReadTimeout id s
  | .tunnelFrameSend src => Sys2Proof.Machine.execTunnelFrameSend src s
  | .tunnelCellArrival cell => Sys2Proof.Machine.execTunnelCellArrival cell s
  | .tunReasmTimeout t => Sys2Proof.Machine.execTunReasmTimeout t s
  | .macFrameReceived m f => Sys2Proof.Machine.execMacFrameReceived m f s
  | .macFrameSent m => Sys2Proof.Machine.execMacFrameSent m s
  | .txtsRead m => Sys2Proof.Machine.execTxtsRead m s
  | .macLinkUp m rate => Sys2Proof.Machine.execMacLinkUp m rate s
  | .macLinkDown m => Sys2Proof.Machine.execMacLinkDown m s
  | .fallbackPeriod m => Sys2Proof.Machine.execFallbackPeriod m s
  | .lpiEntry m => Sys2Proof.Machine.execLpiEntry m s
  -- Twin hubs, votes and king-post registers (13)
  | .heartbeatReceived cell => Sys2Proof.Machine.execHeartbeatReceived cell s
  | .redSwap => Sys2Proof.Machine.execRedSwap s
  | .mirrorPass => Sys2Proof.Machine.execMirrorPass s
  | .mirrorCellReceived cell => Sys2Proof.Machine.execMirrorCellReceived cell s
  | .voteCellReceived cell => Sys2Proof.Machine.execVoteCellReceived cell s
  | .voteGroupCommit v => Sys2Proof.Machine.execVoteGroupCommit v s
  | .kingPostWrite r v => Sys2Proof.Machine.execKingPostWrite r v s
  | .kpScrub => Sys2Proof.Machine.execKpScrub s
  | .kpTest v => Sys2Proof.Machine.execKpTest v s
  -- Feeds and supply (14)
  | .feedOn f => Sys2Proof.Machine.execFeedOn f s
  | .feedOff f => Sys2Proof.Machine.execFeedOff f s
  | .feedAdmission g => Sys2Proof.Machine.execFeedAdmission g s
  | .prechargeDone f vcode => Sys2Proof.Machine.execPrechargeDone f vcode s
  | .prechargeFail f => Sys2Proof.Machine.execPrechargeFail f s
  | .feedUp f => Sys2Proof.Machine.execFeedUp f s
  | .gateFail f => Sys2Proof.Machine.execGateFail f s
  | .gateLost f => Sys2Proof.Machine.execGateLost f s
  | .currentSample f icode vcode => Sys2Proof.Machine.execCurrentSample f icode vcode s
  | .feedShort f icode => Sys2Proof.Machine.execFeedShort f icode s
  | .backoffEnd f => Sys2Proof.Machine.execBackoffEnd f s
  | .retryReset f => Sys2Proof.Machine.execRetryReset f s
  | .periodEnd => Sys2Proof.Machine.execPeriodEnd s
  | .tariffRequest f v => Sys2Proof.Machine.execTariffRequest f v s
  | .dsync f => Sys2Proof.Machine.execDsync f s
  | .clrmax f => Sys2Proof.Machine.execClrmax f s
  | .supplyWarn k => Sys2Proof.Machine.execSupplyWarn k s
  | .lastgaspDone => Sys2Proof.Machine.execLastgaspDone s
  | .lastgaspFail refused => Sys2Proof.Machine.execLastgaspFail refused s
  | .supplyOk => Sys2Proof.Machine.execSupplyOk s
  | .bankWarn b => Sys2Proof.Machine.execBankWarn b s
  | .supplyReset inputs => Sys2Proof.Machine.execSupplyReset inputs s
  | .checkpoint => Sys2Proof.Machine.execCheckpoint s
  -- Fault collection (15)
  | .faultReport => Sys2Proof.Machine.execFaultReport s
  | .summaryDrain => Sys2Proof.Machine.execSummaryDrain s
  | .stickyClear src j v => Sys2Proof.Machine.execStickyClear src j v s
  | .clrall => Sys2Proof.Machine.execClrall s
  | .forwardSend => Sys2Proof.Machine.execForwardSend s
  | .forwardedMessageReceived cell => Sys2Proof.Machine.execForwardedMessageReceived cell s
  | .remoteQueueRead => Sys2Proof.Machine.execRemoteQueueRead s
  -- Modes, start-up, spares and firmware (16)
  | .requestJoin lock => Sys2Proof.Machine.execRequestJoin lock s
  | .commissionChecksDone lanesOk tenonsOk => Sys2Proof.Machine.execCommissionChecksDone lanesOk tenonsOk s
  | .requestHold lock => Sys2Proof.Machine.execRequestHold lock s
  | .leaveHold lock => Sys2Proof.Machine.execLeaveHold lock s
  | .requestCommission lock => Sys2Proof.Machine.execRequestCommission lock s
  | .resetIntoRecovery lock => Sys2Proof.Machine.execResetIntoRecovery lock s
  | .resetRequest lock => Sys2Proof.Machine.execResetRequest lock s
  | .setLock => Sys2Proof.Machine.execSetLock s
  | .resetN straps => Sys2Proof.Machine.execResetN straps s
  | .boot verified => Sys2Proof.Machine.execBoot verified s
  | .entropyReady => Sys2Proof.Machine.execEntropyReady s
  | .rngHealth => Sys2Proof.Machine.execRngHealth s
  | .entropy => Sys2Proof.Machine.execEntropy s
  | .rngDataRead => Sys2Proof.Machine.execRngDataRead s
  | .referenceLoss r => Sys2Proof.Machine.execReferenceLoss r s
  | .rowRepairGo v => Sys2Proof.Machine.execRowRepairGo v s
  | .sramRepaired => Sys2Proof.Machine.execSramRepaired s
  | .nvSwitch port => Sys2Proof.Machine.execNvSwitch port s
  | .imageStart => Sys2Proof.Machine.execImageStart s
  | .imageData v => Sys2Proof.Machine.execImageData v s
  | .fwVerify => Sys2Proof.Machine.execFwVerify s
  | .verifyComplete ok => Sys2Proof.Machine.execVerifyComplete ok s
  | .handover => Sys2Proof.Machine.execHandover s
  | .confirm => Sys2Proof.Machine.execConfirm s
  | .fwFallback => Sys2Proof.Machine.execFwFallback s
  | .watchdogExpiry => Sys2Proof.Machine.execWatchdogExpiry s
  | .lockstepDisagreement => Sys2Proof.Machine.execLockstepDisagreement s
  | .recoveryDownload path ok version => Sys2Proof.Machine.execRecoveryDownload path ok version s
  | .recoveryReset => Sys2Proof.Machine.execRecoveryReset s
  -- Events added at the end of the table
  | .siderealWrap d reverse => Sys2Proof.Machine.execSiderealWrap d reverse s
  | .runfromMove d => Sys2Proof.Machine.execRunfromMove d s
  | .bankInBand b => Sys2Proof.Machine.execBankInBand b s
  | .supplyInputRecovery k => Sys2Proof.Machine.execSupplyInputRecovery k s
  | .referenceReturn r => Sys2Proof.Machine.execReferenceReturn r s
  | .newFirmwareNotRunning => Sys2Proof.Machine.execNewFirmwareNotRunning s
  | .counterPinEdge b pin rising => Sys2Proof.Machine.execCounterPinEdge b pin rising s
  | .aliveRise n => Sys2Proof.Machine.execAliveRise n s

end Sys2Proof.Machine
end

