-- ==== Sys2Proof/WellFormed.lean ====
section
/-! DEFINITION. Which commands are well-formed: the shapes of the word lists, cells and frames that a
command can carry.  Every other operand is bounded by its type. -/

namespace Sys2Proof

/-- The words of an access: 1 to 20 (R30). -/
def wfAccess (ws : List Word) : Bool := decide (0 < ws.length) && decide (ws.length ≤ 20)

/-- The payload of a cell: 20 words (R38, R39). -/
def wfPayload (ws : List Word) : Bool := ws.length == 20

/-- A cell. -/
def wfCell (c : Cell) : Bool := wfPayload c.words

/-- A PCIe request of `len` bytes at `offset` of a BAR of `size` bytes: not empty, inside the BAR and
inside one 4 KiB page, and not longer than `most`. -/
def wfRequest (size most offset len : Nat) : Bool :=
  decide (0 < len) && decide (len ≤ most) && decide (offset + len ≤ size)
    && decide (offset % 4096 + len ≤ 4096)

/-- The number of data bytes that a frame's DLC announces (R268). -/
def frameLength (f : BusFrame) : Nat :=
  if f.rtr then 0
  else
    let n := f.dlc.toNat
    if n ≤ 8 then n
    else if f.fdf then [12, 16, 20, 24, 32, 48, 64].getD (n - 9) 64
    else 8

/-- A message-bus frame: it has the bytes that its DLC announces, and no more than 64. -/
def wfFrame (f : BusFrame) : Bool := decide (frameLength f ≤ f.data.length) && decide (f.data.length ≤ 64)

/-- Whether a command is well-formed. -/
def Instr.wf : Instr → Bool
  | .fabricWrite _ _ _ ws => wfAccess ws
  | .broadcastWrite _ _ _ _ ws => wfAccess ws
  | .ephemerisWrite _ _ ws _ => wfAccess ws
  | .cellArrival _ _ slot => wfCell slot.cell
  | .cellAdmission _ cell => wfCell cell
  | .ttWindow _ _ cells => cells.all wfCell
  | .syncCellReceived _ _ cell _ => wfCell cell
  | .sampleReceived ws => wfPayload ws
  | .keyExchangeReceived _ ws => wfPayload ws
  | .linkDelayReceived _ ws _ => wfPayload ws
  | .respArrival cell => wfCell cell
  | .inboundAccess cell => wfCell cell && decide (cell.nm1.toNat < 20)
  | .tunnelCellArrival cell => wfCell cell
  | .heartbeatReceived cell => wfCell cell
  | .mirrorCellReceived cell => wfCell cell
  | .voteCellReceived cell => wfCell cell
  | .forwardedMessageReceived cell => wfCell cell
  | .bar0Request _ offset bytes => wfRequest (2 ^ 19) 4096 offset bytes.length
  | .outboundWrite _ offset bytes => wfRequest (2 ^ 25) 512 offset bytes.length
  | .outboundRead _ offset len => wfRequest (2 ^ 25) 4096 offset len
  | .mbFrameReceived _ f => wfFrame f.frame
  | .headPowerUp _ size => decide (0 < size) && decide (size ≤ 16384)
  | _ => true

end Sys2Proof
end

