-- ==== Sys2Proof/Safety.lean ====
section
/-! DEFINITION. What the statements mean by a sound state and a run that goes on: the canonical form of
the memories and of the register file, the sizes of the hub's queues, the legal modes, and which part
of the hub a command leaves alone. -/

namespace Sys2Proof.Machine

/-- Every memory of the hub is in its canonical form: DDR5, host memory, both program stores. -/
def State.wf (s : State) : Bool :=
  Tab.wf 0 s.tbl.ddr && Tab.wf 0 s.tbl.host && Tab.wf 0 s.seqStore && Tab.wf 0 s.tenStore

/-- A sound state: canonical memories, a register file that lists each field once and in order, and no
queue beyond the size that the spec gives it. -/
structure State.Sound (s : State) : Prop where
  /-- The memories are canonical. -/
  mem : s.wf = true
  /-- The register file lists its fields in rising order. -/
  regs : Tab.rising s.regs
  /-- At most 32 doorbells are not yet complete (R64). -/
  doors : (s.tbl.doors.filter fun d => d.phase != DoorPhase.complete).length ≤ 32
  /-- The firing queue holds at most 16,384 firings (R135). -/
  wheel : s.seq.wheel.length ≤ 16384
  /-- No instance of a level kind is in cause twice (R459). -/
  causes : s.flt.causes.Nodup
  /-- The forwarding queue holds at most 32 messages (R470). -/
  fwd : s.flt.fwdQ.length ≤ 32
  /-- The remote queue holds at most 64 messages (R471). -/
  remote : s.flt.remoteQ.length ≤ 64

/-- The hub is in one of the six modes of R474. -/
def State.legalMode (s : State) : Bool :=
  s.mode == mRecovery || s.mode == mCommission || s.mode == mJoin || s.mode == mRun || s.mode == mShadow
    || s.mode == mHold

/-- Every king-post register has copies that agree, or has been found stuck: its use takes no vote (R427). -/
def State.kpFine (s : State) : Prop := ∀ i, i < 5 → ((s.kp i).stuck || (s.kp i).agreed.isSome) = true

/-- The memory address of byte `o` of the table home: host memory from HBASE on, or DDR5 modulo its capacity
(R49, R52). -/
def State.homeAddr (s : State) (o : Nat) : Nat := if s.homeSel = 2 then s.homeBase + o else o % s.tbl.ddrSize

/-- The parts of the state beyond its register fields. -/
inductive Part where
  | clock | free | kp | out | ddr | host | tbl | ph | seq | eng | seqStore | tenStore | bay | chp | heads
  | mb | feeds | sup | flt | mgt | cyc | xbar | red | ring | brg
  deriving DecidableEq, Repr

/-- A part stands in `t` as in `s`. -/
def Part.same (p : Part) (s t : State) : Prop :=
  match p with
  | .clock => t.now = s.now
  | .free => t.free = s.free
  | .kp => ∀ i, t.kp i = s.kp i
  | .out => t.out = s.out
  | .ddr => t.tbl.ddr = s.tbl.ddr
  | .host => t.tbl.host = s.tbl.host
  | .tbl => { t.tbl with ddr := [], host := [] } = { s.tbl with ddr := [], host := [] }
  | .ph => t.ph = s.ph
  | .seq => t.seq = s.seq
  | .eng => t.eng = s.eng
  | .seqStore => t.seqStore = s.seqStore ∧ t.seqUe = s.seqUe ∧ t.seqWeak = s.seqWeak ∧ t.seqPast = s.seqPast
  | .tenStore => t.tenStore = s.tenStore ∧ t.tenUe = s.tenUe ∧ t.tenWeak = s.tenWeak ∧ t.tenPast = s.tenPast
  | .bay => t.bay = s.bay
  | .chp => t.chp = s.chp
  | .heads => t.heads = s.heads
  | .mb => t.mb = s.mb
  | .feeds => t.feeds = s.feeds
  | .sup => t.sup = s.sup
  | .flt => t.flt = s.flt
  | .mgt => t.mgt = s.mgt
  | .cyc => t.cyc = s.cyc
  | .xbar => t.xbar = s.xbar
  | .red => t.red = s.red
  | .ring => t.ring = s.ring
  | .brg => t.brg = s.brg

/-- From `s` to `t` the queue and every part outside `ps` are untouched, every byte of memory among them. -/
def PartsKept (ps : List Part) (s t : State) : Prop := t.pending = s.pending ∧ ∀ p, p ∉ ps → p.same s t

/-- From `s` to `t` nothing changes but the parts `ps` and the register fields `fs`. -/
def Frame (ps : List Part) (fs : List Field) (s t : State) : Prop :=
  PartsKept ps s t ∧ ∀ g : Field, g.key ∉ fs.map Field.key → t.get g = s.get g

/-! ### What an instruction of an engine does -/

/-- Engine `g` runs and stands at word `w`, a legal word of opcode `op` that its fetch meets intact; `u` is
the state as the instruction issues, on a clock of the engine, with a correctable error of its fetch counted
and its side field applied (R177, R186, R190). -/
def State.executes (s : State) (g : Engine) (op w : Nat) (u : State) : Prop :=
  s.runs g = true ∧ s.fetchWord g = (w, false) ∧ legalWord (isLane g) w = true ∧ opcode w = op ∧
    u = ((s.issue g).countFetch g).issueSide g w

/-- The program counter of the instruction that follows: a tenon's wraps from 255 to 0 (R167). -/
def State.nextPc (u : State) (g : Engine) : Nat := if isLane g then u.pc g + 1 else (u.pc g + 1) % 256

/-- What an instruction leaves of its engine: the register it writes, if any, its flags, the return stack,
the program counter, and the instruction clocks it takes. -/
structure Effect where
  rd     : Option (Nat × Word)
  fl     : FlagSet
  stack  : List Nat
  pc     : Nat
  clocks : Nat

/-- An effect of one clock that goes on at the next instruction. -/
def State.plain (u : State) (g : Engine) (rd : Option (Nat × Word)) (fl : FlagSet) : Effect :=
  { rd := rd, fl := fl, stack := (u.engine (engKey g)).stack, pc := u.nextPc g, clocks := 1 }

/-- What a write of register `d` in state `u` adds to the value: to a tenon's CNT the pin edges counted on this
bay clock (R185). -/
def State.lateCount (u : State) (g : Engine) (d : Nat) : Word :=
  if isLane g = false ∧ d = 5 ∧ (u.engine (engKey g)).edgeAt = u.bayClock then word (u.engine (engKey g)).edges else 0

/-- From `u` to `t` engine `g` takes the effect `x`: one register at most, the flags named, the stack, the
program counter and the time of its next instruction; all else of the engine and every other engine stay.
A write of a tenon's CNT counts from the bay clock before (R185). -/
structure Ran (g : Engine) (u t : State) (x : Effect) : Prop where
  regs : ∀ i, Tab.get 0 (t.engine (engKey g)).regs i =
    match x.rd with
    | some (d, v) => if i = d then v + u.lateCount g d else Tab.get 0 (u.engine (engKey g)).regs i
    | none => Tab.get 0 (u.engine (engKey g)).regs i
  cnt : (t.engine (engKey g)).cntAt =
    if isLane g = false ∧ x.rd.map Prod.fst = some 5 then u.bayClock - 1 else (u.engine (engKey g)).cntAt
  rest : { t.engine (engKey g) with regs := [], cntAt := 0 } =
    { (u.engine (engKey g)).setFlags x.fl with
      regs := [], cntAt := 0, stack := x.stack, pc := x.pc
      ready := (u.engine (engKey g)).ready + x.clocks * clock64 g }
  others : ∀ k, k ≠ engKey g → t.engine k = u.engine k

/-- The instruction `c`, of opcode `op`, has the effect `x` on every engine that executes it, and on nothing
but that engine; a lane is not carried past the end of its store (R167). -/
def HasEffect (c : Engine → Instr) (op : Nat) (x : State → Engine → Nat → Effect) : Prop :=
  ∀ (s u : State) (g : Engine) (w : Nat), s.executes g op w u → (isLane g = true → (x u g w).pc < 16384) →
    ∃ t, exec (c g) s = .next t ∧ Ran g u t (x u g w) ∧ Frame [.eng] [] u t ∧ PartsKept [.clock, .free, .cyc, .eng, .out, .bay, .flt, .mgt] s t

/-- All four flags from a result, a carry and an overflow (R163). -/
def nzcv (r : Word) (c v : Bool) : FlagSet := .mk (some (decide (r = 0))) (some r.msb) (some c) (some v)

/-- Z and N from a result (R163). -/
def nz (r : Word) : FlagSet := .mk (some (decide (r = 0))) (some r.msb) none none

/-- The conditions of R164, in the order of their codes. -/
def Eng.conditions (e : Eng) : List Bool :=
  [true, e.z, !e.z, e.c, !e.c, e.n, !e.n, e.v, !e.v, e.c && !e.z, !e.c || e.z, e.n == e.v, e.n != e.v,
    !e.z && e.n == e.v, e.z || e.n != e.v]

/-- The fields in which the start governor shows its queues and loads (R437): any feed's change moves them. -/
def governorShown : List Field :=
  (List.range 32).map (fun f => FEED_STAT.QPOS f) ++ (List.range 4).flatMap (fun g => [SUP_GSTAT.USED g, SUP_GSTAT.QLEN g])

/-- No cell that waits for CP16 may go: each stands behind another of its function, or is a READ while no tag
is free (R379, R381). -/
def State.outStalled (s : State) : Prop :=
  ∀ pre c post, s.brg.outQ = pre ++ c :: post →
    pre.any (fun x => x.fn == c.fn) = true ∨ (c.req ≠ none ∧ s.freeTag = none)

/-- A result that goes on. -/
def goesOn (r : Result) : Prop := ∃ t, r = .next t

/-- `n` steps in a row; a stop ends them. -/
def State.steps (n : Nat) (s : State) : Result :=
  match n with
  | 0 => .next s
  | n + 1 =>
    match step s with
    | .next t => t.steps n
    | .fault f => .fault f
    | .refused r => .refused r

/-- A command that no state stops: it is well-formed, and it is no completion with data, whose length the
request it answers decides. -/
def neverStops (c : Instr) : Prop := c.wf = true ∧ ∀ id bs, c ≠ .hostCompletion id (.data bs)

end Sys2Proof.Machine
end

