-- ==== Sys2Proof/Certificates/Slice0/Obligations.lean ====
section
/-! DEFINITION. The statements about the hub: what a step does, what every step keeps, and for every
command what it does to the state and that it goes on. -/

section

open Sys2Proof Sys2Proof.Machine

/-- For every command c, queue q and state s: a step of s with c in front of q answers exactly what exec answers
for c on s with the queue q; with an empty queue a step lets one tick of the core clock pass, which is the
model's own choice (assumption log 1). (01_architecture.md, assumption log 1) -/
def Obligations.StepRunsTheFrontCommand : Prop :=
  (∀ (c : Instr) (q : List Instr) (s : State),
    step { s with pending := c :: q } = exec c { s with pending := q }) ∧
  ∀ s : State, s.pending = [] → step s = .next (s.advance 1)

/-- For every state, word and word offset from 0x0102 to 0x017F of channel 0xFFFF, REGISTER_WRITE goes on; every
RW field of the register takes its bits of the word, every W1C bit that the word names with a 1 is cleared
and the others stay, every other field keeps its value; nothing else changes. (00_scope.md R8,
14_feeds_and_supply.md R454) -/
def Obligations.RegisterWriteByAccessCode : Prop :=
  ∀ (s : State) (a : BitVec 16) (v : Word), 0x0102 ≤ a.toNat → a.toNat < 0x0180 →
    ∃ t, exec (.registerWrite a v) s = .next t ∧
      (∀ f ∈ regFields a.toNat,
        match f.acc with
        | .rw => t.get f = f.of v
        | .w1c => ∀ i, i < f.width → (t.get f).testBit i = ((s.get f).testBit i && !(f.of v).testBit i)
        | _ => t.get f = s.get f) ∧
      Frame [] (regFields a.toNat) s t

/-- For every state and every word offset at which the register map names no field, REGISTER_WRITE leaves the
state as it is and REGISTER_READ_CLEAR returns the word 0 and changes nothing else; the decode of an access
to another window whose last word lies beyond the implemented layout is a refusal with status RANGE (an
access by T00, or one by any tenant to the ephemeris window 0xFFFE, the one window that other tenants
reach), while an access by T00 to channel 0xFFFF is not refused. (R29) -/
def Obligations.UnmappedRegisterReadsZero : Prop :=
  (∀ (s : State) (a : BitVec 16) (v : Word), regFields a.toNat = [] →
    exec (.registerWrite a v) s = .next s ∧ exec (.registerReadClear a) s = .next (s.emit (.read 0))) ∧
  ∀ (s : State) (ten ch w n : Nat) (ws : Option (List Word)), 0xFFFA ≤ ch → ch ≤ 0xFFFF →
    (ch ≠ 0xFFFF → ten = 0 ∨ ch = 0xFFFE → windowLast ch < w + n - 1 →
      s.decode false ten ch w n ws = (s, .refused stRANGE)) ∧
    (ch = 0xFFFF → ten = 0 → w + n ≤ 0x10000 → s.decode false ten ch w n ws = (s, .window))

/-- For every state and word offset from 0x0800 to 0x0BFF other than 0x0845 whose fields hold values of their
width, REGISTER_READ_CLEAR goes on and returns a word in which each field that is not WO stands at its place
with its value; RC fields become 0, the others keep their value; nothing else changes. (00_scope.md R8,
10_switch_core.md R333) -/
def Obligations.RegisterReadClearsRcFields : Prop :=
  ∀ (s : State) (a : BitVec 16), 0x0800 ≤ a.toNat → a.toNat < 0x0C00 → a.toNat ≠ 0x0845 →
    (∀ f ∈ regFields a.toNat, s.get f < 2 ^ f.width) →
    ∃ t v, exec (.registerReadClear a) s = .next t ∧ t.out = .read v :: s.out ∧
      (∀ f ∈ regFields a.toNat,
        (f.acc ≠ .wo → f.of v = s.get f) ∧ t.get f = if f.acc = .rc then 0 else s.get f) ∧
      Frame [.out] (regFields a.toNat) s t

/-- REMOTE_QUEUE_READ with a message in the remote queue returns its last record word and removes it. TXTS_READ
with a timestamp waiting returns its ticks and removes it. QUEUE_OUT_READ, with the bay brought up to the
present bay clock, of a logical tenon that is not fed by an automatic outward stream, has queue capacity and
a poppable item returns the item's value, notes its priority and leaves the rest of the queue. RNG_DATA_READ
with no nonce waiting, the generator ready and 32 bits in the pool after it has been refilled returns a word
with VALID set, takes 32 bits and draws one value. Nothing else changes. (06_tenons_and_bays.md R219,
12_bridge_and_ethernet.md R400, 15_faults.md R471, 16_lifecycle.md R482) -/
def Obligations.QueueReadsTakeTheOldest : Prop :=
  (∀ (s : State) (m : Nat × Msg) (rest : List (Nat × Msg)), s.flt.remoteQ = m :: rest →
    exec .remoteQueueRead s =
      .next (({ s with flt := { s.flt with remoteQ := rest } } : State).emit (.read (recordWord m.2.raw 2)))) ∧
  (∀ (s : State) (m : Fin 12) (x : TxStamp) (rest : List TxStamp), (s.macRec m.val).stamps = x :: rest →
    x.ticks < 2 ^ 48 →
    exec (.txtsRead m) s =
      .next ((s.setMac m.val { s.macRec m.val with stamps := rest }).emit (.read (word x.ticks)))) ∧
  (∀ (s r : State) (b : Fin 32) (l : Fin 4) (x : Item) (q : Queues), s.settleBay b.val = r →
    (r.on (BAY_STREAM.AUTO b.val l.val) && r.on (BAY_STREAM.DIR b.val l.val)) = false →
    r.qcap b.val l.val ≠ 0 → (r.queues b.val l.val).take = some (x, q) →
    exec (.queueOutRead b l) s =
      .next (((r.setQueues b.val l.val q).set (BAY_QSTAT.LASTPRI b.val l.val) x.pri).emit (.read x.val))) ∧
  ∀ s r : State, s.serveNonces.refillPool = r → r.on RNG_STATUS.READY = true → 32 ≤ r.get RNG_STATUS.BITS →
    ∃ v, v < 2 ^ 32 ∧ exec .rngDataRead s =
      .next (((r.set RNG_STATUS.BITS (r.get RNG_STATUS.BITS - 32)).draw).emit (.read (word (2 ^ 47 + v))))

/-- FABRIC_WRITE by T00 of 1 to 20 words to channel 0xFFFA of this hub (NODE 0 or the own node number), inside
the store, goes on where no king-post register needs a vote: each word of the program store inside the run
holds the word written, every other word stays, and nothing but that store changes. FABRIC_WRITE of 1 to 20
words to any other node puts the cell of the access behind those that wait on the block's core port and does
nothing else. (01_architecture.md R18, R20, R25, R30, R35, 05_detaica.md R188, assumption log 33) -/
def Obligations.FabricWritesAreServedOrSent : Prop :=
  (∀ (s : State) (cp : Fin 32) (addr : Word) (ws : List Word), s.kpFine → s.isHere addr = true →
    wbits addr 31 16 = 0xFFFA → ws ≠ [] → ws.length ≤ 20 → wbits addr 15 0 + ws.length ≤ 16384 →
    ∃ t, exec (.fabricWrite cp 0 addr ws) s = .next t ∧
      (∀ i, Tab.get 0 t.seqStore i =
        if wbits addr 15 0 ≤ i ∧ i < wbits addr 15 0 + ws.length then ws.getD (i - wbits addr 15 0) 0
        else Tab.get 0 s.seqStore i) ∧
      Frame [.seqStore] [] s t) ∧
  ∀ (s : State) (cp : Fin 32) (ten : Fin 16) (addr : Word) (ws : List Word), s.isHere addr = false →
    ws ≠ [] → ws.length ≤ 20 →
    exec (.fabricWrite cp ten addr ws) s =
      .next (s.sendFor cp.val ten.val (s.accessCell kWRITE ten.val addr ws.length ws))

/-- FABRIC_READ by T00 of channel 0xFFFA of this hub, inside the store, with no vote due, puts a RESP with
status OK and the words of the store on core port 27 (the port of the serving block is the model's reading,
assumption log 31) and changes nothing else. A read addressed to the broadcast node is refused with BCAST:
ADDR_BCAST is reported with channel and word, and the RESP without data waits on the requester's core port.
A read of any other node puts its READ cell there. (01_architecture.md R18, R20, R25, R30, R32,
10_switch_core.md R315, assumption log 31, 33) -/
def Obligations.FabricReadsAnswerOrLeave : Prop :=
  (∀ (s : State) (cp : Fin 32) (addr ret : Word) (nm1 : Fin 20), s.kpFine → s.isHere addr = true →
    wbits addr 31 16 = 0xFFFA → wbits addr 15 0 + nm1.val < 16384 →
    exec (.fabricRead cp 0 addr nm1 ret false) s =
      .next (s.sendFor 27 0 (s.respCell ret (s.tenClass 0) stOK
        ((List.range (nm1.val + 1)).map fun i => Tab.get 0 s.seqStore (wbits addr 15 0 + i))))) ∧
  (∀ (s : State) (cp : Fin 32) (ten : Fin 16) (addr ret : Word) (nm1 : Fin 20) (ue : Bool),
    s.isHere addr = false → wbits addr 47 32 = 0xFFFF →
    exec (.fabricRead cp ten addr nm1 ret ue) s =
      .next ((s.raise Kind.ADDR_BCAST (wbits addr 31 16 * 2 ^ 16 + wbits addr 15 0)).sendFor cp.val ten.val
        (s.respCell ret (s.tenClass ten.val) stBCAST []))) ∧
  ∀ (s : State) (cp : Fin 32) (ten : Fin 16) (addr ret : Word) (nm1 : Fin 20) (ue : Bool),
    s.isHere addr = false → wbits addr 47 32 ≠ 0xFFFF →
    exec (.fabricRead cp ten addr nm1 ret ue) s =
      .next (s.sendFor cp.val ten.val (s.accessCell kREAD ten.val addr (nm1.val + 1) [ret]))

/-- BROADCAST_WRITE by T00 of one row word (offset 0 to 2 of a row's sixteen) to channel 0xFFFD, with no vote
due, sets that word of the pending bank and changes nothing else. BROADCAST_WRITE of 1 to 20 words by any
tenant to any other channel from 0xFFF0 up reports ADDR_BCAST with channel and word, and stores nothing:
nothing but the report changes. (01_architecture.md R25, R30, R31, R32, 11_cycle_matrix.md R339) -/
def Obligations.BroadcastWritesReachOneWindow : Prop :=
  (∀ (s : State) (sender : BitVec 16) (w : BitVec 16) (v : Word), s.kpFine → w.toNat % 16 < 3 →
    exec (.broadcastWrite sender 0 0xFFFD w [v]) s = .next { s with cyc := { s.cyc with
      pend := Tab.put 0 s.cyc.pend (3 * (w.toNat / 16) + w.toNat % 16) v.toNat } }) ∧
  ∀ (s : State) (sender : BitVec 16) (ten : Fin 16) (ch w : BitVec 16) (ws : List Word), s.kpFine → ws ≠ [] →
    ws.length ≤ 20 → 0xFFF0 ≤ ch.toNat → ch ≠ 0xFFFD →
    exec (.broadcastWrite sender ten ch w ws) s = .next (s.raise Kind.ADDR_BCAST (ch.toNat * 2 ^ 16 + w.toNat))

/-- EPHEMERIS_WRITE by T00 of the four words of an entry, on an entry boundary of the window, with no vote due,
the entry's old tenant a number below 16, no bad bit in it and no dispatch of it due in this tick (which
R154 puts first): where the content is valid, its state is IDLE and its tenant may have one more entry or
already owns this one, the command goes on, the entry addressed on T00's page holds exactly the fields of
the words, every other entry is as before, no firing of the entry is queued, and of the registers only the
firing count and the tenants' entry counts may change. Where the content is not valid, or its state is past
ARMED, the whole entry stays and SEQ_BAD_ENTRY names it; nothing else changes. (01_architecture.md R26, R27,
04_ephemeris.md R123, R124, R126, R128, R130, R154) -/
def Obligations.EphemerisWritesSetEntries : Prop :=
  ∀ (s : State) (w : BitVec 16) (w0 w1 w2 w3 : Word) (i : Nat) (n : Eph), s.kpFine → w.toNat % 4 = 0 →
    i = 16384 * s.ephPage 0 + w.toNat / 4 → Tab.get 0 s.seq.owner i ≤ 16 → (s.entry i).tenant < 16 →
    i ∉ s.seq.bad → i ∉ s.seq.weak → (∀ f ∈ s.seq.wheel, f.entry = i → s.dispatchDue f = false) →
    n = Eph.ofRaw (w0.toNat * 2 ^ 80 + w1.toNat * 2 ^ 32 + w2.toNat / 2 ^ 16) (s.entry i).nextSet →
    (n.valid = true → n.state = eIDLE → (Tab.get 0 s.seq.owner i = n.tenant + 1 ∨ s.underCap n.tenant = true) →
      ∃ t, exec (.ephemerisWrite 0 w [w0, w1, w2, w3] false) s = .next t ∧
        t.entry i = { n with nextSet := false } ∧ (∀ j, j ≠ i → t.entry j = s.entry j) ∧
        (∀ f ∈ t.seq.wheel, f.entry ≠ i) ∧
        Frame [.seq] (SEQ_STAT.WHEEL :: (List.range 16).map SEQ_TCAP.USED) s t) ∧
    (n.valid = false ∨ 2 < n.state →
      exec (.ephemerisWrite 0 w [w0, w1, w2, w3] false) s = .next (s.raise Kind.SEQ_BAD_ENTRY i))

/-- CELL_ARRIVAL of a slot that is not empty, with twenty payload words and no uncorrectable codeword under it.
On a sealed port, bits that are not the cell's tag are counted in AUTH and reported. On a port that is not
sealed and is not to be sealed: with a CRC that matches: an arbitrated WRITE cell for this hub's node whose
header is good enters the input queue of its core port bound for its local port, if a place is free. A cell
with WRAP 3, NM1 above 19, or LINK or CTRL kind with NM1 other than 19 counts in XBAR_DROP.HDR and reports
XBAR_HDR_BAD. With the complement of the CRC it counts as stomped; with any other CRC it counts in RINGp_CNT
and reports CELL_CRC, or, where the hub was forwarding it cut-through to an unsealed port, leaves there with
its CRC inverted. Nothing else changes. (09_ring_links.md R285, R294, R297, R307, R308, 10_switch_core.md
R319, R320) -/
def Obligations.RingCellsAreCheckedAndQueued : Prop :=
  ∀ (s : State) (p k : Fin 4) (x : Slot), x.cell.words.length = 20 → emptySlot x = false → x.ue = false →
    s.slotHit p.val k.val x.index.val = false →
    (s.get (RINGP_STAT.SEALST p.val) = 2 → (s.offWire p.val k.val x.count x.cell x.crc).2 = false →
      exec (.cellArrival p k x) s =
        .next ((s.inc (RINGP_CNT.AUTH p.val)).raise Kind.SEAL_AUTH (k.val * 256 + p.val))) ∧
    (s.get (RINGP_STAT.SEALST p.val) ≠ 2 → s.on (RINGP_CTL.SEAL p.val) = false →
    (x.crc = cellCrc x.cell → badHeader (4 * p.val + k.val) x.cell = false → x.cell.kind = kWRITE →
      x.cell.cls ≠ cTT → x.cell.node.toNat = s.node → x.cell.node ≠ 0 → s.inqFull (4 * p.val + k.val) = false →
      exec (.cellArrival p k x) s =
        .next (s.queueCell (4 * p.val + k.val) (s.localPort x.cell) x.cell none false)) ∧
    (x.crc = cellCrc x.cell →
      x.cell.wrap = 3 ∨ 19 < x.cell.nm1.toNat ∨ ((x.cell.kind = kCTRL ∨ x.cell.kind = kLINK) ∧ x.cell.nm1 ≠ 19) →
      exec (.cellArrival p k x) s =
        .next ((s.inc XBAR_DROP.HDR).raise Kind.XBAR_HDR_BAD (4 * p.val + k.val))) ∧
    (x.crc = ~~~(cellCrc x.cell) → exec (.cellArrival p k x) s = .next (s.inc (RINGP_CNT.STOMP p.val))) ∧
    ∀ r : State, x.crc ≠ cellCrc x.cell → x.crc ≠ ~~~(cellCrc x.cell) → r = s.inc (RINGP_CNT.CRC p.val) →
      (x.cut = false ∨ r.cutOutput p.val k.val x.cell = none →
        exec (.cellArrival p k x) s = .next (r.raise Kind.CELL_CRC (k.val * 256 + p.val))) ∧
      ∀ (o : Nat) (c : Cell), x.cut = true → r.cutOutput p.val k.val x.cell = some (o, c) →
        s.get (RINGP_STAT.SEALST (cpPort o)) ≠ 2 →
        exec (.cellArrival p k x) s = .next (r.emit (.ring o c (~~~cellCrc c))))

/-- CELL_ADMISSION on a local core port with no cell waiting, of a well-headed WRITE cell for this hub whose
class is not enabled for cut-through: within quota and with a place free, the cell is counted for its tenant
and queued for its local port with the tenant's class; past either it waits on its core port and nothing
else changes. FORWARD_SEND takes the oldest queued message: counted as dropped where no collecting node is
set or it is not present; placed on core port 30 within the control cap. BAR0_REQUEST writing one aligned
container while the link is up is the write of that register; an unaligned read is reported as refused and
completes with Unsupported Request. (10_switch_core.md R320, R326, R327, 15_faults.md R470,
18_register_map.md R519) -/
def Obligations.BlocksAdmitWithinQuota : Prop :=
  (∀ (s : State) (cp : Fin 32) (c : Cell), 16 ≤ cp.val → c.words.length = 20 → badHeader cp.val c = false →
    c.kind = kWRITE → c.node.toNat = s.node → c.node ≠ 0 → s.xbar.waiting = [] →
    s.cutEnabled cp.val (s.tenClass c.ten.toNat) = false →
    (s.mayAdmit cp.val c.ten.toNat c = true →
      exec (.cellAdmission cp c) s =
        .next ((s.countAdmitted c.ten.toNat c true).queueCell cp.val (s.localPort c)
          { c with cls := s.tenClass c.ten.toNat } (some c.ten.toNat) false)) ∧
    (s.mayAdmit cp.val c.ten.toNat c = false →
      exec (.cellAdmission cp c) s =
        .next { s with xbar := { s.xbar with waiting := [(cp.val, [.mk c c.ten.toNat])] } })) ∧
  (∀ (s : State) (m : Msg) (rest : List Msg), s.flt.fwdQ = m :: rest →
    (s.get FLT_FWD.NODE = 0 ∨ s.present (s.get FLT_FWD.NODE) = false →
      exec .forwardSend s =
        .next (({ s with flt := { s.flt with fwdQ := rest } } : State).inc FLT_CNT.FWDDROP)) ∧
    (s.get FLT_FWD.NODE ≠ 0 → s.present (s.get FLT_FWD.NODE) = true →
      s.mayAdmit 30 0 (s.ctrl cCTL (s.get FLT_FWD.NODE) (s.forwardWords m)) = true →
      exec .forwardSend s =
        .next (({ s with flt := { s.flt with fwdQ := rest } } : State).place 30 0
          (s.ctrl cCTL (s.get FLT_FWD.NODE) (s.forwardWords m))))) ∧
  (∀ (s : State) (offset : Nat) (bytes : List Byte), bytes.length = 8 → offset % 8 = 0 → offset + 8 ≤ 2 ^ 19 →
    s.linkUp = true → s.on MGT_STAT.KPLOCK = true →
    exec (.bar0Request true offset bytes) s = .next (s.writeReg (offset / 8) (word (ofBytes (bytes.take 6).reverse)))) ∧
  ∀ (s : State) (offset : Nat) (bytes : List Byte), 0 < bytes.length → offset % 4096 + bytes.length ≤ 4096 →
    offset + bytes.length ≤ 2 ^ 19 → offset % 8 ≠ 0 → s.linkUp = true →
    exec (.bar0Request false offset bytes) s = .next ((s.outRefused 0 0).emit .cplUR)

/-- CELL_TIME with one transit CTL cell in the core, in a crosspoint of a ring output that is open, not shut,
not sealed and not taken by a TT or cut-through cell, and no frame in reassembly, emits that cell with its
CRC on its output, leaves the core empty and takes 8 ticks. QUOTA_WRITE with class PRIO or BULK sets class,
table weight and quota, and OVER exactly where the quota is below the tenant's use; admissions of this tick
still follow the class, the quota and OVER before it (R327). PORT_HOLD_EXPIRY of a ring port whose hold
runs, with no cell in the core, lets the clock run to the end of the hold and ends it. BANK_SPARE_GO with GO
and the spare idle arms the spare for the bank named. XBAR_SPARE_IN with the old bank drained puts the spare
in service and reports it. (10_switch_core.md R322, R323, R326, R330, R332) -/
def Obligations.SwitchCoreMovesOneCell : Prop :=
  (∀ (s : State) (i o : Nat) (q : QCell), i < 32 → o < 16 → s.xbar.inq = [] → s.xbar.xp = [(32 * i + o, [q])] →
    s.xbar.tt = [] → s.xbar.cut = [] → s.get (RINGP_STAT.SEALST (cpPort o)) ≠ 2 →
    s.brg.reasm = [] → q.own = none → q.cell.cls = cCTL → s.outOpen o = true → s.outShut o = false →
    ∃ t, exec (.cellTime 0 0) s = .next t ∧ t.out = .ring o q.cell (cellCrc q.cell) :: s.out ∧ t.xbar.xp = [] ∧ t.xbar.inq = [] ∧
      t.now = s.now + 8 ∧ PartsKept [.clock, .out, .cyc, .xbar] s t) ∧
  (∀ (s : State) (n : Fin 16) (v : Word), 2 ≤ wbits v 25 24 →
    ∃ t, exec (.quotaWrite n v) s = .next t ∧ t.get (XBAR_TQUOTA.CLASS n.val) = wbits v 25 24 ∧
      t.get (XBAR_TQUOTA.TBLW n.val) = wbits v 23 16 ∧ t.get (XBAR_TQUOTA.CELLS n.val) = wbits v 15 0 ∧
      (t.on (XBAR_TSTAT.OVER n.val) = true ↔ wbits v 15 0 < s.use n.val) ∧
      t.tenClass n.val = s.tenClass n.val ∧ t.inQuota n.val = s.inQuota n.val ∧
      { t.xbar with oldQuota := s.xbar.oldQuota } = s.xbar ∧
      Frame [.flt, .xbar] [XBAR_TQUOTA.CLASS n.val, XBAR_TQUOTA.TBLW n.val, XBAR_TQUOTA.CELLS n.val,
        XBAR_TSTAT.OVER n.val] s t) ∧
  (∀ (s : State) (p : Fin 16) (due : Nat), p.val < 4 → Tab.get none s.xbar.hold p.val = some due →
    s.xbar.xp = [] →
    exec (.portHoldExpiry p) s = .next ((s.waitUntil due).endHold p.val)) ∧
  (∀ (s : State) (v : Word), v.getLsbD 13 = true → s.get XBAR_SPARE.STATE = 0 →
    ∃ t, exec (.bankSpareGo v) s = .next t ∧ t.get XBAR_SPARE.STATE = 1 ∧ t.get XBAR_SPARE.SERVES = wbits v 11 8 ∧
      t.get XBAR_SPARE.CELIM = wbits v 23 16 ∧ t.get XBAR_SPARE.AUTO = wbits v 12 12 ∧
      Frame [] [XBAR_SPARE.STATE, XBAR_SPARE.SERVES, XBAR_SPARE.CELIM, XBAR_SPARE.AUTO, XBAR_SPARE.BANK] s t) ∧
  ∀ s : State, s.get XBAR_SPARE.STATE = 2 → s.xbar.xp = [] →
    exec .xbarSpareIn s = .next ((s.set XBAR_SPARE.STATE 3).raise Kind.XBAR_SPARE_IN (s.get XBAR_SPARE.SERVES))

/-- TBL_INVAL and TBL_UPDATE go on. For a channel below 0xFFF0 with fewer than 32 doorbells not complete, the
doorbell is appended with its channel and GEN (an update with the staged entry), DEPTH counts one more, and
nothing else changes. With 32 not complete it is dropped with TBL_DOOR_OVF; for a channel from 0xFFF0 up it
is dropped with TBL_BAD_ENTRY. (02_channel_table.md R64, R65) -/
def Obligations.DoorbellsQueueOrAreReported : Prop :=
  ∀ (s : State) (u : Bool) (v : Word) (live : Nat),
    live = (s.tbl.doors.filter fun d => d.phase != DoorPhase.complete).length →
    (wbits v 15 0 < 0xFFF0 → live < 32 →
      ∃ t, exec (if u then .tblUpdate v else .tblInval v) s = .next t ∧
        t.tbl = { s.tbl with doors := s.tbl.doors ++
          [.mk u (wbits v 15 0) (wbits v 23 16) (if u then s.stagedEntry else 0) .queued] } ∧
        t.get TBL_STAT.DEPTH = live + 1 ∧ Frame [.tbl] [TBL_STAT.DEPTH] s t) ∧
    (wbits v 15 0 < 0xFFF0 → 32 ≤ live →
      exec (if u then .tblUpdate v else .tblInval v) s = .next (s.raise Kind.TBL_DOOR_OVF (wbits v 15 0))) ∧
    (0xFFF0 ≤ wbits v 15 0 →
      exec (if u then .tblUpdate v else .tblInval v) s = .next (s.raise Kind.TBL_BAD_ENTRY (wbits v 15 0)))

/-- One doorbell in the queue. With no home selected a queued INVAL drops the channel's line and a queued
well-formed UPDATE does nothing, and the doorbell is complete at once. With a home that is up and holds no
bad word, requester 5 alive, and fewer than 16 lines in the channel's set: INVAL_SERVICE whose fetch is good
and brings the doorbell's generation installs the entry as the current line, and the doorbell waits for what
is open on the channel; otherwise no line is current and a second fetch is due 1,600 ticks on. INVAL_REFETCH
lets the clock run to that tick: a good fetch of the generation installs likewise; two bad fetches leave no
line and complete; anything else reports TBL_GEN_MISMATCH and leaves a line that awaits the generation.
UPDATE_SERVICE of a staged entry that is not well-formed reports it and completes; of a well-formed one,
where requester 5 reaches the home at once (log 133), its 64 bytes are written, no other byte of memory
changes, a line it has or asks for holds the entry, and the doorbell waits likewise; where it does not, one
write operation opens and no memory changes. DOORBELL_COMPLETE removes the doorbell, counts DONE up and
shows depth 0 where nothing that it waits for is open, else it changes nothing of the table.
(02_channel_table.md R42, R46, R66, R67, R68, R69, R527, assumption log 133) -/
def Obligations.DoorbellServiceUpdatesTheCache : Prop :=
  ∀ (s : State) (d : Doorbell), s.tbl.doors = [d] →
    (∀ ue : Bool, s.homeSel = 0 → d.phase = .queued → (d.update = true → rawWellFormed d.staged s.homeSize = true) →
      ∃ t, exec (if d.update then .updateService else .invalService ue) s = .next t ∧ t.tbl.doors = [] ∧
        (d.update = false → t.line d.ch = none) ∧ t.get TBL_STAT.DONE = (s.get TBL_STAT.DONE + 1) % 2 ^ 16 ∧
        Frame [.tbl] [TBL_STAT.PINNED, TBL_STAT.DEPTH, TBL_STAT.DONE] s t) ∧
    (s.homeSel ≠ 0 → s.homeUp = true → s.alive 5 = true → s.tbl.badSlots = [] → s.tbl.weakSlots = [] →
      (s.tbl.lines.filter fun l => l.ch % 256 == d.ch % 256).length < 16 →
      (∀ ue : Bool, d.update = false → d.phase = .queued →
        ∃ t, exec (.invalService ue) s = .next t ∧
          (if ue = false ∧ (s.fetched d.ch).gen = d.gen
            then (∃ l, t.line d.ch = some l ∧ l.current = true ∧ l.entry = s.fetched d.ch) ∧
              t.tbl.doors = [{ d with phase := .finished (s.openOps d.ch) (s.openVotes d.ch) }]
            else (∀ l, t.line d.ch = some l → l.current = false) ∧
              t.tbl.doors = [{ d with phase := .refetch (s.now + 1600) ue }]) ∧
          Frame [.tbl, .flt] [TBL_STAT.PINNED, TBL_STAT.DEPTH] s t) ∧
      (∀ (due : Nat) (first ue : Bool), d.phase = .refetch due first →
        ∃ t, exec (.invalRefetch ue) s = .next t ∧ t.now = max s.now due ∧
          (if ue = true ∧ first = true then t.line d.ch = none ∧ t.tbl.doors = [] else
            t.tbl.doors = [{ d with phase := .finished (s.openOps d.ch) (s.openVotes d.ch) }] ∧
            if ue = false ∧ (s.fetched d.ch).gen = d.gen
            then ∃ l, t.line d.ch = some l ∧ l.current = true ∧ l.entry = s.fetched d.ch
            else ∃ l, t.line d.ch = some l ∧ l.current = false ∧ l.expect = some d.gen) ∧
          PartsKept [.clock, .cyc, .tbl, .flt] s t) ∧
      (d.update = true → d.phase = .queued → rawWellFormed d.staged s.homeSize = false →
        ∃ t, exec .updateService s = .next t ∧ t.tbl = { s.tbl with doors := [] } ∧
          t.flt = (s.raise Kind.TBL_BAD_ENTRY d.ch).flt ∧
          Frame [.tbl, .flt] [TBL_STAT.DEPTH, TBL_STAT.DONE] s t) ∧
      (d.update = true → d.phase = .queued → rawWellFormed d.staged s.homeSize = true → d.staged < 2 ^ 512 →
        64 ≤ s.tbl.ddrSize → s.servesNow 5 true d.ch 131072 8 = true →
        ∃ t, exec .updateService s = .next t ∧ t.rawEntry d.ch = d.staged ∧
          (∀ o, (∀ i, i < 64 → s.homeAddr o ≠ s.homeAddr (64 * d.ch + i)) → t.homeByte o = s.homeByte o) ∧
          (if s.homeSel = 2 then t.tbl.ddr = s.tbl.ddr else t.tbl.host = s.tbl.host) ∧
          (s.cachesStaged d = true → ∃ l, t.line d.ch = some l ∧ l.current = true ∧ l.entry = t.fetched d.ch) ∧
          t.tbl.doors = [{ d with phase := .finished (s.openOps d.ch) (s.openVotes d.ch) }] ∧
          Frame [.ddr, .host, .tbl, .flt] [TBL_STAT.PINNED, TBL_STAT.DEPTH] s t) ∧
      (d.update = true → d.phase = .queued → rawWellFormed d.staged s.homeSize = true →
        s.servesNow 5 true d.ch 131072 8 = false →
        ∃ t o, exec .updateService s = .next t ∧ t.tbl.ops = s.tbl.ops ++ [o] ∧ o.id = s.tbl.nextOp ∧ o.req = 5 ∧
          o.write = true ∧ o.ch = d.ch ∧ o.closed = false ∧
          t.tbl.doors = [{ d with phase := .writing s.tbl.nextOp }] ∧
          Frame [.tbl] [TBL_WAIT.WAIT 5, TBL_STAT.DEPTH] s t)) ∧
    ∀ ops acts : List Nat, d.phase = .finished ops acts →
      ∃ t, exec .doorbellComplete s = .next t ∧
        (if (s.openOps d.ch).any (fun i => ops.contains i) = false ∧ (s.openVotes d.ch).any (fun i => acts.contains i) = false
          then t.tbl = { s.tbl with doors := [] } ∧ t.get TBL_STAT.DONE = (s.get TBL_STAT.DONE + 1) % 2 ^ 16 ∧
            t.get TBL_STAT.DEPTH = 0
          else t.tbl = s.tbl) ∧
        Frame [.tbl] [TBL_STAT.DONE, TBL_STAT.DEPTH] s t

/-- ENTRY_FETCH of an uncached channel from a home that is up and free of bad words, with room in its set and a
well-formed entry, installs the entry as a current line; after an uncorrectable error it reports TBL_ECC_UE
and installs nothing. TBL_HOME_WRITE with legal SEL and SIZE and no lock sets all copies; if the value
changed, no line is left and HOME_UP tells whether the new home is reachable. HOME_LOST of the selected home
while it is up clears HOME_UP, brings TBL_HOME_LOST into cause and abandons every burst and every operation.
HOME_RETURN of a reachable home that is not up sets HOME_UP, leaves no line and ends the cause. DDR_RETRAIN
runs the clock to the turn of the failed DDR5 channel that is due first, of channel 0 where both are (log
134): a pass returns it, a failure leaves it failed, and its next turn is 10 ms later. (02_channel_table.md
R46, R49, R50, R53, R54, R55, assumption log 134) -/
def Obligations.HomeSelectionLossAndReturn : Prop :=
  (∀ (s : State) (ch : BitVec 16), ch.toNat < 0xFFF0 → s.homeSel ≠ 0 → s.homeUp = true → s.line ch.toNat = none →
    (s.tbl.lines.filter fun l => l.ch % 256 == ch.toNat % 256).length < 16 → s.tbl.badSlots = [] → s.tbl.weakSlots = [] →
    (rawWellFormed (s.rawEntry ch.toNat) s.homeSize = true →
      ∃ t l, exec (.entryFetch ch false) s = .next t ∧ t.line ch.toNat = some l ∧ l.current = true ∧
        l.entry = s.fetched ch.toNat ∧ Frame [.tbl, .flt] [TBL_STAT.PINNED] s t) ∧
    ∃ t, exec (.entryFetch ch true) s = .next t ∧ t.line ch.toNat = none ∧ ch.toNat ∈ t.tbl.broken ∧
      t.flt = (s.raise Kind.TBL_ECC_UE ch.toNat).flt ∧ Frame [.tbl, .flt] [] s t) ∧
  (∀ (s : State) (v : Word), s.kpLocked = false → wbits v 1 0 ≠ 3 → wbits v 5 2 ≠ 15 →
    ∃ t, exec (.tblHomeWrite v) s = .next t ∧ t.kpHome = KpReg.of v ∧
      (s.kpHome.value ≠ v.toNat → t.tbl.lines = [] ∧ (t.homeUp = true ↔ t.homeReachable = true)) ∧
      Frame [.kp, .tbl, .flt] [TBL_STAT.PINNED, TBL_STAT.HOME_UP] s t) ∧
  (∀ (s : State) (c : HomeLoss), s.homeUp = true →
    (match c with | .pcieDown => s.homeSel = 2 | .ddrFatal _ => s.homeSel = 1) →
    ∃ t, exec (.homeLost c) s = .next t ∧ t.homeUp = false ∧ t.inCause Kind.TBL_HOME_LOST 0 = true ∧
      t.tbl.owner = none ∧ t.tbl.flight = [] ∧ t.tbl.staged = [] ∧ (∀ o ∈ t.tbl.ops, o.closed = true) ∧
      Frame [.tbl, .flt, .seq] ([TBL_STAT.HOME_UP, TBL_STAT.DEPTH, BRG_STAT.LINKUP] ++ (List.range 8).map TBL_WAIT.WAIT)
        s t) ∧
  (∀ s : State, s.homeUp = false → s.homeSel ≠ 0 → s.homeReachable = true →
    ∃ t, exec .homeReturn s = .next t ∧ t.homeUp = true ∧ t.tbl = { s.tbl with lines := [], past := s.linesBefore } ∧
      t.inCause Kind.TBL_HOME_LOST 0 = false ∧
      Frame [.tbl, .flt] [TBL_STAT.HOME_UP, TBL_STAT.PINNED] s t) ∧
  ∀ (s : State) (pass : Bool),
    (s.tbl.ddr0 = false → s.tbl.ddr1 = true ∨ s.tbl.retrain0 ≤ s.tbl.retrain1 →
      ∃ t, exec (.ddrRetrain pass) s = .next t ∧ t.now = max s.now s.tbl.retrain0 ∧
        t.tbl = { s.tbl with ddr0 := pass, retrain0 := t.now + msTicks 10 } ∧ PartsKept [.clock, .cyc, .tbl] s t) ∧
    (s.tbl.ddr1 = false → s.tbl.ddr0 = true ∨ s.tbl.retrain1 < s.tbl.retrain0 →
      ∃ t, exec (.ddrRetrain pass) s = .next t ∧ t.now = max s.now s.tbl.retrain1 ∧
        t.tbl = { s.tbl with ddr1 := pass, retrain1 := t.now + msTicks 10 } ∧ PartsKept [.clock, .cyc, .tbl] s t)

/-- No access waits for a way of the cache, no operation is a stream and none is closed. ARBITRATION_ROUND with
a free port and one ready, non-urgent operation of a live requester whose weight covers its next burst and
whose deficit does not grants that burst: it owns the port, the operation's grant moves on, and the deficit
keeps the rest. REVOCATION at a beat boundary, of a non-urgent owner inside its issue slot for another
requester's urgent operation, counts in TBL_REVOKE, refunds the burst's beats, marks it to restart and
grants the urgent one. READ_BURST_ARRIVAL without an uncorrectable error, of a MOVE's burst, takes the
oldest burst in flight and moves its operation on, which closes with its last beat. WRITE_BURST_COMMIT of a
staged burst of a MOVE or MOVC whose words nothing holds back (R525) writes the words of its beats to the
home and moves the operation on; no other word of memory changes. (02_channel_table.md R35, R71, R73, R74,
R76, R525, 10_switch_core.md R328) -/
def Obligations.TablePortGrantsAndTransfers : Prop :=
  (∀ (s : State) (o : Op) (w d : Nat), s.tbl.ops = [o] → s.tbl.owner = none → s.tbl.restart = none → o.req < 8 →
    o.ten < 16 → o.paced = false → s.tbl.blocked = [] →
    s.ready o = true → s.urgent o = false → s.alive o.req = true → w = s.get (TBL_WEIGHT.WEIGHT o.req) →
    d = Tab.get 0 s.tbl.deficit o.req → d < o.nextLen → o.nextLen ≤ d + w → w ≠ 0 →
    ∃ t b, exec .arbitrationRound s = .next t ∧ t.tbl.owner = some b ∧ b.op = o.id ∧ b.req = o.req ∧
      b.first = o.granted ∧ b.len = o.nextLen ∧ t.tbl.ops = [{ o with granted := o.granted + o.nextLen }] ∧
      t.tbl.ptr = o.req ∧ Tab.get 0 t.tbl.deficit o.req = d + w - o.nextLen ∧
      Frame [.tbl] [TBL_WAIT.WAIT o.req] s t) ∧
  (∀ (s : State) (b : Burst) (o p : Op), s.tbl.owner = some b → b.at_ ≤ s.now → (s.now - b.at_) % 3 = 0 →
    s.now < b.slotEnd → b.urgent = false → s.urgentOp = some o → o.req ≠ b.req → s.op b.op = some p →
    s.urgent p = false →
    ∃ t g, exec .revocation s = .next t ∧ t.tbl.owner = some g ∧ g.op = o.id ∧ g.req = o.req ∧
      t.tbl.restart = some b.op ∧
      Tab.get 0 t.tbl.deficit b.req = Tab.get 0 s.tbl.deficit b.req + b.len ∧
      t.get (TBL_REVOKE.COUNT b.req) = min (s.get (TBL_REVOKE.COUNT b.req) + 1) (2 ^ (TBL_REVOKE.COUNT b.req).width - 1) ∧
      PartsKept [.tbl] s t) ∧
  (∀ (s : State) (b : Burst) (rest : List Burst) (o : Op) (a : Nat) (ce : BitVec 16), s.tbl.flight = b :: rest →
    s.op b.op = some o → o.purpose = .move a → o.measures = false → s.tbl.badSlots = [] → s.tbl.blocked = [] →
    (∀ x ∈ s.tbl.ops, x.paced = false ∧ x.closed = false) →
    ∃ t o', exec (.readBurstArrival false ce) s = .next t ∧ t.tbl.flight = rest ∧ t.op b.op = some o' ∧
      o'.moved = o.moved + b.len ∧ o'.closed = decide (o.endBeat ≤ o.moved + b.len) ∧ o'.ch = o.ch ∧
      t.now = max s.now b.slotEnd) ∧
  ∀ (s u : State) (n : Fin 8) (b : Burst) (o : Op) (a : Nat), s.tbl.staged.find? (fun x => x.req == n.val) = some b →
    s.op b.op = some o → o.purpose = .move a ∨ o.purpose = .movc a → o.measures = false → s.tbl.blocked = [] →
    (∀ x ∈ s.tbl.ops, x.paced = false ∧ x.closed = false) →
    s.tbl.ops.any (fun r => o.writeWaits r ((o.beatWords b.first b.len).headD 0)
      (o.beatWords b.first b.len).length) = false →
    u = ((o.beatWords b.first b.len).zip b.words).foldl (fun x p => x.putDataWord o.entry.dataPtr p.1 p.2) s →
    ∃ t o', exec (.writeBurstCommit n) s = .next t ∧ t.tbl.ddr = u.tbl.ddr ∧ t.tbl.host = u.tbl.host ∧
      t.op b.op = some o' ∧ o'.moved = o.moved + b.len ∧ t.now = max s.now b.slotEnd ∧
      PartsKept [.clock, .cyc, .ddr, .host, .tbl] s t

/-- ALIVE_FALL of requester n clears its ALIVE bit and its wait; it owns no burst, has none in flight or staged,
and each of its operations is closed; no other requester's ALIVE bit changes. ALIVE_RISE sets its ALIVE bit
and changes nothing else. TBL_STARVE of a requester that waits lets the clock run until its wait passes the
limit, sets its STARVE bit and reports TBL_STARVE. (02_channel_table.md R75, R76) -/
def Obligations.TablePortRequestersFallRiseAndStarve : Prop :=
  (∀ (s : State) (n : Fin 8), s.get TBL_ARB_STAT.ALIVE < 256 →
    ∃ t, exec (.aliveFall n) s = .next t ∧ (∀ i, t.alive i = (s.alive i && i != n.val)) ∧
      t.get (TBL_WAIT.WAIT n.val) = 0 ∧ (∀ b, t.tbl.owner = some b → b.req ≠ n.val) ∧
      (∀ b ∈ t.tbl.flight, b.req ≠ n.val) ∧ (∀ b ∈ t.tbl.staged, b.req ≠ n.val) ∧
      (∀ o ∈ t.tbl.ops, o.req = n.val → o.closed = true) ∧
      Frame [.tbl, .seq] ([TBL_ARB_STAT.ALIVE, TBL_STAT.DEPTH] ++ (List.range 8).map TBL_WAIT.WAIT) s t) ∧
  (∀ (s : State) (n : Fin 8), s.get TBL_ARB_STAT.ALIVE < 256 →
    ∃ t, exec (.aliveRise n) s = .next t ∧ (∀ i, t.alive i = (s.alive i || i == n.val)) ∧
      Frame [] [TBL_ARB_STAT.ALIVE] s t) ∧
  ∀ (s : State) (n : Fin 8) (since : Nat), Tab.get none s.tbl.since n.val = some since →
    exec (.tblStarve n) s =
      .next (((s.waitUntil (since + (s.get TBL_CFG.STARVE_LIMIT + 1 - s.get (TBL_WAIT.WAIT n.val)))).setBit
        TBL_ARB_STAT.STARVE n.val true).raise Kind.TBL_STARVE n.val)

/-- ROLE_WRITE that changes ROLE, without ACK, puts the domain into IDLE for OFF and ACQUIRE else, with no
model, no pending or own sample and an empty filter, ROLE and AUTORES as written and ONALT 0; the other
domains stay. PH_SRC_WRITE sets NODE and ALT, clears ONALT and notes the basic cycle; nothing else changes.
SLIP_ACK of a SLIPPED domain moves it to TRACK and ends SLIP; in any other state, and in the tick of the
slip, it changes nothing. PH_STALE of a domain with a phase lets the clock run to MAXAGE after its model
took effect, and the domain is LOST with PH_STALE in cause. PH_FAILOVER of a SUBSCRIBER with an alternate
source, three basic cycles on, changes over to the other source and reports it. (03_phase_domains.md R79,
R81, R107, R110, R116) -/
def Obligations.PhaseRolesSourcesAndStates : Prop :=
  (∀ (s : State) (d : Fin 4) (v : Word), wbits v 1 0 ≠ s.phRole d.val → v.getLsbD 7 = false →
    ∃ t, exec (.roleWrite d v) s = .next t ∧ t.phRole d.val = wbits v 1 0 ∧
      t.phState d.val = (if wbits v 1 0 = 0 then phIDLE else phACQUIRE) ∧
      t.get (PH_CTL.AUTORES d.val) = wbits v 6 6 ∧ t.get (PH_STAT.ONALT d.val) = 0 ∧ (t.dom d.val).eff = none ∧
      (t.dom d.val).pend = [] ∧ (t.dom d.val).sample = none ∧ (t.dom d.val).nmeas = 0 ∧
      (∀ j, j ≠ d.val → t.dom j = s.dom j) ∧ PartsKept [.ph, .seq, .eng, .flt] s t) ∧
  (∀ (s : State) (d : Fin 4) (v : Word),
    ∃ t, exec (.phSrcWrite d v) s = .next t ∧ t.get (PH_SRC.NODE d.val) = wbits v 15 0 ∧
      t.get (PH_SRC.ALT d.val) = wbits v 31 16 ∧ t.get (PH_STAT.ONALT d.val) = 0 ∧
      t.dom d.val = { s.dom d.val with srcCycle := s.cyc.ncyc } ∧ (∀ j, j ≠ d.val → t.dom j = s.dom j) ∧
      Frame [.ph] [PH_SRC.NODE d.val, PH_SRC.ALT d.val, PH_STAT.ONALT d.val] s t) ∧
  (∀ (s : State) (d : Fin 4), s.get (PH_CTL.AUTORES d.val) < 2 → s.phRole d.val < 4 →
    (s.phState d.val = phSLIPPED → (s.dom d.val).slipAt ≠ some s.now →
      ∃ t, exec (.slipAck d) s = .next t ∧ t.phState d.val = phTRACK ∧
        t.inCause Kind.SLIP d.val = false ∧ PartsKept [.ph, .seq, .flt] s t) ∧
    (s.phState d.val ≠ phSLIPPED ∨ (s.dom d.val).slipAt = some s.now → ∃ t, exec (.slipAck d) s = .next t ∧
      t.get (PH_CTL.AUTORES d.val) = s.get (PH_CTL.AUTORES d.val) ∧ Frame [] [PH_CTL.AUTORES d.val] s t)) ∧
  (∀ (s : State) (d : Fin 4), s.hasPhase d.val = true →
    ∃ t, exec (.phStale d) s = .next t ∧ t.phState d.val = phLOST ∧ t.inCause Kind.PH_STALE d.val = true ∧
      t.now = max s.now ((s.dom d.val).effAt + s.get (PH_MAXAGE.TICKS d.val)) ∧
      PartsKept [.clock, .cyc, .ph, .seq, .eng, .flt] s t) ∧
  ∀ (s : State) (d : Fin 4), s.phRole d.val = 1 → (s.dom d.val).srcCycle + 3 ≤ s.cyc.ncyc →
    s.get (PH_SRC.ALT d.val) ≠ 0 →
    exec (.phFailover d) s =
      .next (((s.setB (PH_STAT.ONALT d.val) (!s.on (PH_STAT.ONALT d.val))).setDom d.val
        { s.dom d.val with srcCycle := s.cyc.ncyc }).raise Kind.PH_FAILOVER
          ((if s.on (PH_STAT.ONALT d.val) then s.get (PH_SRC.NODE d.val) else s.get (PH_SRC.ALT d.val)) * 2 ^ 16
            + d.val))

/-- For every state and domain that reads a QUAD encoder, an ENCODER_EDGE whose changed inputs have had the time
of their filter since they last changed (R83) goes on. An edge of A alone counts forward where A differs
from B after it (A rises while B is 0), an edge of B alone where they are equal, and REVDIR inverts the
direction; the counter moves by INC in 48.16 fixed point, RAW follows, and nothing else changes. When both
change in one accepted sample nothing is counted, PHd_ERRCNT.ENC increments and PH_ENC_ERR is reported.
(R86) -/
def Obligations.QuadCountsEdgesByTheirOrder : Prop :=
  ∀ (s : State) (d : Fin 4) (a b : Bool) (p : Ph), p = s.dom d.val → s.phReads d.val = true →
    s.phKind d.val = knQUAD → (p.a ≠ a → p.aFrom ≤ s.now) → (p.b ≠ b → p.bFrom ≤ s.now) →
    (∀ fwd : Bool, (p.a ≠ a ∧ p.b = b ∧ fwd = (a != b)) ∨ (p.a = a ∧ p.b ≠ b ∧ fwd = (a == b)) →
      ∃ t, exec (.encoderEdge d a b) s = .next t ∧ (t.dom d.val).a = a ∧ (t.dom d.val).b = b ∧
        (t.dom d.val).counter =
          (if fwd != s.on (PH_CFG.REVDIR d.val) then p.counter + s.get (PH_SCALE.INC d.val)
            else p.counter + 2 ^ 64 - s.get (PH_SCALE.INC d.val)) % 2 ^ 64 ∧
        t.phRaw d.val = counterPhase (t.dom d.val).counter ∧ (∀ j, j ≠ d.val → t.dom j = s.dom j) ∧
        Frame [.ph] [] s t) ∧
    (p.a ≠ a → p.b ≠ b →
      ∃ t, exec (.encoderEdge d a b) s = .next t ∧ (t.dom d.val).a = a ∧ (t.dom d.val).b = b ∧
        (t.dom d.val).counter = p.counter ∧ (∀ j, j ≠ d.val → t.dom j = s.dom j) ∧
        t.get (PH_ERRCNT.ENC d.val) = min (s.get (PH_ERRCNT.ENC d.val) + 1) (2 ^ 16 - 1) ∧
        t.flt = (s.raise Kind.PH_ENC_ERR d.val).flt ∧ Frame [.ph, .flt] [PH_ERRCNT.ENC d.val] s t)

/-- An accepted INDEX_EDGE that ZMODE takes, of a QUAD or LINE domain, in a tick without a SETPH write, sets the
counter to the nearest meridian; it is a home, counted in HOMESEQ and reported, unless an index was seen
before and the counter lay within ZTOL. SSI_READ_START of an SSI domain in a basic cycle in which a read is
due begins a read with the time of its first edge, that of the cycle's start, or, with a read in progress or
TM not over, is skipped as an encoder error. SSI_READ_END with even parity or none runs the clock to the end
of the read, keeps the decoded word for RAW and starts TM. MAINS_EDGE, the first of a MAINS domain, starts
the count of revolutions at 0 (the model's choice, assumption log 135) and counts in RAW. SETPH_WRITE of a
QUAD or LINE domain that reads its encoder sets the counter to the written phase and is a home.
(03_phase_domains.md R85, R87, R88, R89, R90, R91, R93, R98, R119, assumption log 135) -/
def Obligations.EncodersMeasureThePhase : Prop :=
  (∀ (s : State) (d : Fin 4) (p : Ph) (m : Nat), p = s.dom d.val → m = nearestMeridian (counterPhase p.counter) →
    s.phReads d.val = true → s.phKind d.val = knQUAD ∨ s.phKind d.val = knLINE →
    s.get (PH_CFG.ZMODE d.val) ≠ 0 → (s.get (PH_CFG.ZMODE d.val) = 1 → p.zSeen = false) → p.zFrom ≤ s.now →
    (∀ x, p.setAt = some x → x.1 ≠ s.now) →
    ∃ t, exec (.indexEdge d) s = .next t ∧ (t.dom d.val).counter = m * 2 ^ 16 ∧ (t.dom d.val).zSeen = true ∧
      (if p.zSeen = true ∧ (phDiff (counterPhase p.counter) m).natAbs ≤ s.get (PH_ZTOL.STEPS d.val)
        then (t.dom d.val).homeseq = p.homeseq ∧ t.flt = s.flt
        else (t.dom d.val).homeseq = (p.homeseq + 1) % 256 ∧ (t.dom d.val).homed = true ∧
          t.flt = (s.raise Kind.PH_HOMED ((p.homeseq + 1) % 256 * 256 + d.val)).flt) ∧
      Frame [.ph, .flt] [] s t) ∧
  (∀ (s : State) (d : Fin 4) (began : Nat), s.phReads d.val = true → s.phKind d.val = knSSI → s.ssiIsDue d.val = true →
    began = s.cyc.startedAt.getD s.now →
    ((s.dom d.val).ssiRead = none → (s.dom d.val).ssiTm ≤ began →
      exec (.ssiReadStart d) s = .next (s.setDom d.val { s.dom d.val with
        ssiDue := some s.cyc.ncyc
        ssiRead := some ((s.ticks + 2 ^ 49 - (s.now - began) - s.get (PH_LAT.TICKS d.val)) % 2 ^ 48, began) })) ∧
    ((s.dom d.val).ssiRead ≠ none ∨ began < (s.dom d.val).ssiTm →
      exec (.ssiReadStart d) s =
        .next ((s.setDom d.val { s.dom d.val with ssiDue := some s.cyc.ncyc }).encError d.val))) ∧
  (∀ (s : State) (d : Fin 4) (raw : Word) (tm began mt st par v : Nat), (s.dom d.val).ssiRead = some (tm, began) →
    mt = s.get (PH_SSI.MT d.val) → st = s.get (PH_SSI.BITS d.val) → par = s.get (PH_SSI.PAR d.val) →
    v = raw.toNat % 2 ^ (mt + st + par) →
    (par = 1 → (List.range 48).foldl (fun x i => x != v.testBit i) false = false) →
    ∃ t, exec (.ssiReadEnd d raw) s = .next t ∧ (t.dom d.val).ssiRead = none ∧
      t.now = max s.now (began + (mt + st + par + 1) * 2 * s.get (PH_SSI.HALF d.val)) ∧
      (t.dom d.val).ssiTm = t.now + s.get (PH_SSI.TM d.val) ∧
      (t.dom d.val).ssiRaw =
        (if s.on (PH_SSI.GRAY d.val) then grayDecode (mt + st) (v / 2 ^ par) else v / 2 ^ par) ∧
      PartsKept [.clock, .cyc, .ph, .flt] s t) ∧
  (∀ (s : State) (d : Fin 4), s.phReads d.val = true → s.phKind d.val = knMAINS → (s.dom d.val).mainsAt = none →
    (s.dom d.val).nmeas = 0 → (s.dom d.val).aFrom ≤ s.now →
    ∃ t, exec (.mainsEdge d) s = .next t ∧ (t.dom d.val).mainsAt = some (s.edgeTime d.val) ∧
      (t.dom d.val).counter = 0 ∧ (t.dom d.val).nmeas = 1 ∧ (t.dom d.val).p = 0 ∧
      t.phRaw d.val = ((s.dom d.val).edges + 1) % 2 ^ 48 ∧ Frame [.ph] [] s t) ∧
  ∀ (s : State) (d : Fin 4) (v : Word), s.phReads d.val = true → s.phKind d.val = knQUAD ∨ s.phKind d.val = knLINE →
    ∃ t, exec (.setphWrite d v) s = .next t ∧ (t.dom d.val).counter = v.toNat * 2 ^ 16 ∧
      t.phRaw d.val = v.toNat ∧ (t.dom d.val).homeseq = ((s.dom d.val).homeseq + 1) % 256 ∧
      t.flt = (s.raise Kind.PH_HOMED (((s.dom d.val).homeseq + 1) % 256 * 256 + d.val)).flt ∧
      Frame [.ph, .flt] [] s t

/-- SAMPLE_RECEIVED of a sample in order, from the current source of a subscribing domain, of this generation,
not a repetition, with a future T_eff and fewer than 16 pending, joins the pending samples in the order of
T_eff; nothing else changes but the note of it. MODEL_EFFECTIVE of a domain in ACQUIRE whose next pending
sample is not INVALID runs the clock to T_eff; the domain tracks with that model, whose phase and count its
registers show. DIRECTION_CHANGE, where no entry is due or passed, runs the clock to where the phase leaves
the hysteresis band; the direction is reversed and RUNFROM takes the extreme. SIDEREAL_WRAP runs the clock
to the next wrap in the direction named and reports WRAP. RUNFROM_MOVE of a forward domain brings RUNFROM to
2^40 steps behind the extreme where it lags further. (03_phase_domains.md R96, R103, R104, R112, R114,
04_ephemeris.md R132, R148) -/
def Obligations.SamplesBecomeTheDomainsMotion : Prop :=
  (∀ (s : State) (ws : List Word) (d : Nat) (m : Model), ws.length = 20 → d = wbits (ws.getD 0 0) 33 32 →
    m = modelOf ws → s.phRole d = 1 → sampleOk ws = true → m.node ≠ 0 → m.node = s.phSource d →
    (s.dom d).lastKey ≠ some (m.node, m.seqno, m.ts) → m.gen = s.gen → (s.dom d).pend.length < 16 →
    0 < dt m.teff s.ticks →
    ∃ t, exec (.sampleReceived ws) s = .next t ∧
      t.dom d = { s.dom d with
        pend := insertModel s.ticks m (s.dom d).pend, lastKey := some (m.node, m.seqno, m.ts) } ∧
      (∀ j, j ≠ d → t.dom j = s.dom j) ∧ Frame [.ph] [] s t) ∧
  (∀ (s : State) (d : Fin 4) (m : Model) (rest : List Model), (s.dom d.val).pend = m :: rest → m.level ≠ 0 →
    s.phState d.val = phACQUIRE →
    ∃ t, exec (.modelEffective d) s = .next t ∧ t.phState d.val = phTRACK ∧ (t.dom d.val).eff = some m ∧
      (t.dom d.val).pend = rest ∧ t.get (PH_STAT.MSEQ d.val) = (s.get (PH_STAT.MSEQ d.val) + 1) % 2 ^ 16 ∧
      t.get (PH_M_PHASE.PHASE d.val) = m.phase % 2 ^ 48 ∧ t.now = s.now + (dt m.teff s.ticks).toNat) ∧
  (∀ (s : State) (d : Fin 4) (n : Nat), (s.updateX d.val).flipIn d.val = some n →
    s.on SEQ_CTL.RUN = false ∨ (s.seq.eph = [] ∧ s.seq.wheel = []) →
    ∃ t, exec (.directionChange d) s = .next t ∧ t.fwd d.val = !s.fwd d.val ∧ t.now = s.now + n ∧
      t.runfrom d.val = ((((s.updateX d.val).advance n).updateX d.val).dom d.val).x % 2 ^ 48 ∧
      PartsKept [.clock, .cyc, .ph, .seq] s t) ∧
  (∀ (s u : State) (d : Fin 4) (rev : Bool) (m : Model) (n : Nat), s.hasPhase d.val = true →
    (s.dom d.val).eff = some m →
    crossing (!rev) false m (if rev then 2 ^ 48 - 1 else 0) (s.dom d.val).wrapAt (2 ^ 32) = some n →
    u = s.waitTicks (((s.dom d.val).wrapAt + n) % 2 ^ 48) →
    exec (.siderealWrap d rev) s = .next ((u.setDom d.val { s.dom d.val with
      wrapAt := ((s.dom d.val).wrapAt + n) % 2 ^ 48 }).raise Kind.WRAP (d.val + 256 * rev.toNat))) ∧
  ∀ (s : State) (d : Fin 4) (x : Nat), s.hasPhase d.val = true → s.fwd d.val = true →
    x = ((s.updateX d.val).dom d.val).x →
    ∃ t, exec (.runfromMove d) s = .next t ∧
      t.runfrom d.val = (if 2 ^ 40 < phDiff x (s.runfrom d.val) then (((x : Int) - 2 ^ 40).emod (2 ^ 48)).toNat
        else s.runfrom d.val) ∧
      Frame [.ph] [SEQ_RUNFROM.PHASE d.val] s t

/-- SWEEP_VISIT with RUN set, of the entry at which the sweep stands, an ARMED TIME entry without a bad bit
whose action is not LATCH, inside the scanned range but not its last, whose trigger lies ahead within the
horizon, with room in the firing queue, makes the entry QUEUED, appends its firing and moves the sweep on.
DISPATCH with no action waiting or awaiting its instant, RUN set and one firing queued, of a QUEUED TIME
entry with action PROG, no deadline and its tenant not held, runs the clock to the instant (a PROG has no
lead); the firing leaves the queue, the entry is DONE with COUNT one more, and an action with the entry as
captured waits for a lane. Nothing outside the sequencer changes. (04_ephemeris.md R134, R135, R137, R130,
R139) -/
def Obligations.SweepQueuesAndDispatchCaptures : Prop :=
  (∀ (s : State) (e : Fin 262144), s.on SEQ_CTL.RUN = true → e.val < s.get SEQ_SCAN.LIMIT →
    (s.entry e.val).state = eARMED → (s.entry e.val).trigkind = 0 →
    0 < dt (s.entry e.val).trig s.ticks → dt (s.entry e.val).trig s.ticks ≤ s.get SEQ_HORIZON.TICKS →
    s.seq.wheel.length < 16384 → s.seq.sweepAt = e.val → e.val ∉ s.seq.bad → e.val ∉ s.seq.weak →
    (s.entry e.val).act ≠ 1 →
    ∃ t, exec (.sweepVisit e false) s = .next t ∧ t.entry e.val = { s.entry e.val with state := eQUEUED } ∧
      t.seq.wheel = s.seq.wheel ++ [.mk e.val (s.entry e.val).trig none false] ∧ t.seq.sweepAt = e.val + 1 ∧ (∀ j, j ≠ e.val → t.entry j = s.entry j) ∧
      t.get SEQ_STAT.WHEEL = s.seq.wheel.length + 1 ∧ PartsKept [.seq] s t) ∧
  ∀ (s : State) (f : Firing) (e : Eph), s.nextWaiting = none → s.nextLanding = none → s.on SEQ_CTL.RUN = true → s.seq.wheel = [f] →
    e = s.entry f.entry → e.state = eQUEUED → e.trigkind = 0 → e.act = 0 → e.dlkind = 0 →
    s.bit SEQ_HOLD.TENANT e.tenant = false → f.missed = false → f.entry ∉ s.seq.bad → f.entry ∉ s.seq.weak →
    ∃ t, exec (.dispatch false) s = .next t ∧ t.seq.wheel = [] ∧
      t.entry f.entry = { e with state := eDONE, count := (e.count + 1) % 4096 } ∧
      t.seq.acts = s.seq.acts ++ [.mk s.seq.nextAct f.entry
        { e with state := eARMED, count := (e.count + 1) % 4096 } f.instant e.trig (s.fwd e.domain) none true false] ∧
      t.now = s.now + (dt f.instant s.ticks).toNat ∧ PartsKept [.clock, .cyc, .seq] s t

/-- PROGRAM_START of a free lane with a waiting PROG action for it starts the lane at the action's ARG with
entry, instant, trigger and count in r0 to r3, all flags 0 and an empty return stack, and the action is
done. LANE_RUNMAX of a busy lane with a limit runs the clock one tick past it and stops the lane with cause
1. TIMED_COMMAND with one command on its way drives its pins at its instant. MOVE_COMPLETE hands the words
of the oldest finished MOVE on and ends its action. DEADLINE_MISS of the only action with no firing queued,
at the tick its deadline has passed, records entry and policy in SEQ_LASTMISS and counts the miss; policy
HOLD takes its tenant into output hold. HOLD_RELEASE releases exactly the tenants named. RUN_CLEAR clears
RUN and leaves no firing queued. (04_ephemeris.md R125, R139, R140, R142, R144, R146, R147, R155,
05_detaica.md R159, R176) -/
def Obligations.ActionsHaveTheirEffects : Prop :=
  (∀ (s : State) (k : Fin 8) (a : Act), s.laneFree k.val = true → s.seq.acts.find? (s.laneTakes k.val) = some a →
    ∃ t, exec (.programStart k) s = .next t ∧ (t.engine k.val).pc = a.e.arg % 16384 ∧
      Tab.getList 0 (t.engine k.val).regs 0 4 = [word a.entry, word a.instant, word a.e.trig, word a.e.count] ∧
      (t.engine k.val).z = false ∧ (t.engine k.val).n = false ∧ (t.engine k.val).c = false ∧
      (t.engine k.val).v = false ∧ (t.engine k.val).stack = [] ∧ t.get (SEQ_LANE.STATE k.val) = 1 ∧
      (∀ x ∈ t.seq.acts, x.id ≠ a.id) ∧
      Frame [.seq, .eng] [SEQ_LANE.STATE k.val, SEQ_LANE.ENTRY k.val, SEQ_STAT.BUSY] s t) ∧
  (∀ (s : State) (k : Fin 8), s.get (SEQ_LANE.STATE k.val) ≠ 0 → (s.engine k.val).runmax ≠ 0 →
    ∃ t, exec (.laneRunmax k) s = .next t ∧ t.get (SEQ_LANE.STATE k.val) = 0 ∧ t.get SEQ_ABORT.CAUSE = 1 ∧
      t.get SEQ_ABORT.LANE = k.val ∧
      t.now = max s.now ((s.engine k.val).started + (s.engine k.val).runmax + 1)) ∧
  (∀ (s u : State) (c : Timed), s.seq.timed = [c] → u = s.advance (dt c.instant s.ticks).toNat →
    exec .timedCommand s = .next ((({ u with seq := { u.seq with timed := [] } } : State).drivePins c.bay
      (u.discretePins c.bay c.mask) c.value).actEffect c.act)) ∧
  (∀ (s : State) (o : Op) (id : Nat), o.purpose = .move id →
    s.tbl.ops.find? (fun x => x.closed && !x.failed && (match x.purpose with | .move _ => true | .alone => true | _ => false)) =
      some o →
    exec .moveComplete s = .next (((s.moveBeat o).retireOp o).actEffect id)) ∧
  (∀ (s : State) (a : Act) (n : Nat), s.seq.acts = [a] → s.seq.wheel = [] → s.missIn a = some n → a.e.policy < 4 → a.entry < 2 ^ 18 →
    a.e.tenant < 16 → s.get SEQ_HOLD.TENANT < 2 ^ 16 →
    ∃ t, exec .deadlineMiss s = .next t ∧ t.now = s.now + n ∧ t.get SEQ_LASTMISS.ENTRY = a.entry ∧
      t.get SEQ_LASTMISS.POLICY = a.e.policy ∧
      t.get SEQ_COUNT.MISS = min (s.get SEQ_COUNT.MISS + 1) (2 ^ 12 - 1) ∧
      (∀ j, t.bit SEQ_HOLD.TENANT j = (s.bit SEQ_HOLD.TENANT j || (a.e.policy == 2 && j == a.e.tenant)))) ∧
  (∀ (s : State) (v : Word), s.get SEQ_HOLD.TENANT < 2 ^ 16 →
    ∃ t, exec (.holdRelease v) s = .next t ∧
      (∀ j, j < 16 → t.bit SEQ_HOLD.TENANT j = (s.bit SEQ_HOLD.TENANT j && !v.getLsbD j)) ∧
      (∀ j, j < 16 → v.getLsbD j = true → t.inCause Kind.SEQ_HOLD j = false) ∧
      Frame [.flt] [SEQ_HOLD.TENANT] s t) ∧
  ∀ (s : State) (v : Word),
    ∃ t, exec (.runClear v) s = .next t ∧ t.on SEQ_CTL.RUN = false ∧ t.seq.wheel = [] ∧
      t.get SEQ_CTL.LANE_EN = wbits v 15 8 ∧ PartsKept [.seq] s t

/-- For every engine, lane or tenon, that executes a legal word of NOP, MOV, MOVI, MOVH, ADD, SUB, AND, OR, XOR,
ADDI, ANDI, ORI or XORI, with the next program counter inside a lane's store: the command goes on. RD takes
the result that R162 gives modulo 2^48, with IMM sign-extended for MOVI and ADDI and zero-extended for the
logical forms, ADD, SUB and ADDI write Z, N, C and V, the logical instructions Z and N, the others no flag.
The instruction takes one clock. No other register of the engine, flag or return-stack entry changes, no
other engine, no register field and no other part of the hub; from the state before, only the clock runs,
the engine's own clock and pins follow it, a correctable error of the fetch is counted and the side field
applies. (05_detaica.md R158, R160, R162, R163, R167, R186) -/
def Obligations.CoreArithmeticWritesResultsAndFlags : Prop :=
  HasEffect .nop 0x00 (fun u g _ => u.plain g none FlagSet.keep) ∧
  HasEffect .mov 0x02 (fun u g w => u.plain g (some (fRD w, u.reg g (fRA w))) FlagSet.keep) ∧
  HasEffect .movi 0x03 (fun u g w =>
    u.plain g (some (fRD w, (BitVec.ofNat 24 (fIMM w)).signExtend 48)) FlagSet.keep) ∧
  HasEffect .movh 0x04 (fun u g w =>
    u.plain g (some (fRD w, BitVec.ofNat 24 (fIMM w) ++ (u.reg g (fRD w)).extractLsb' 0 24)) FlagSet.keep) ∧
  HasEffect .add 0x05 (fun u g w =>
    let a := u.reg g (fRA w); let b := u.reg g (fRB w)
    u.plain g (some (fRD w, a + b)) (nzcv (a + b) (decide (2 ^ 48 ≤ a.toNat + b.toNat)) (BitVec.saddOverflow a b))) ∧
  HasEffect .sub 0x06 (fun u g w =>
    let a := u.reg g (fRA w); let b := u.reg g (fRB w)
    u.plain g (some (fRD w, a - b)) (nzcv (a - b) (decide (b.toNat ≤ a.toNat)) (BitVec.ssubOverflow a b))) ∧
  HasEffect .and 0x07 (fun u g w => let r := u.reg g (fRA w) &&& u.reg g (fRB w); u.plain g (some (fRD w, r)) (nz r)) ∧
  HasEffect .or 0x08 (fun u g w => let r := u.reg g (fRA w) ||| u.reg g (fRB w); u.plain g (some (fRD w, r)) (nz r)) ∧
  HasEffect .xor 0x09 (fun u g w => let r := u.reg g (fRA w) ^^^ u.reg g (fRB w); u.plain g (some (fRD w, r)) (nz r)) ∧
  HasEffect .addi 0x0D (fun u g w =>
    let a := u.reg g (fRA w); let b := (BitVec.ofNat 24 (fIMM w)).signExtend 48
    u.plain g (some (fRD w, a + b)) (nzcv (a + b) (decide (2 ^ 48 ≤ a.toNat + b.toNat)) (BitVec.saddOverflow a b))) ∧
  HasEffect .andi 0x0E (fun u g w =>
    let r := u.reg g (fRA w) &&& (BitVec.ofNat 24 (fIMM w)).zeroExtend 48; u.plain g (some (fRD w, r)) (nz r)) ∧
  HasEffect .ori 0x0F (fun u g w =>
    let r := u.reg g (fRA w) ||| (BitVec.ofNat 24 (fIMM w)).zeroExtend 48; u.plain g (some (fRD w, r)) (nz r)) ∧
  HasEffect .xori 0x10 (fun u g w =>
    let r := u.reg g (fRA w) ^^^ (BitVec.ofNat 24 (fIMM w)).zeroExtend 48; u.plain g (some (fRD w, r)) (nz r))

/-- For every engine that executes a legal word of SHL, SHR, SAR, SHLI, SHRI, SARI, EXT or INS, with the next
program counter inside a lane's store: RD takes ra shifted by rb[5:0] or IMM (zero fill left and right, sign
fill for SAR and SARI), the zero-extended field of RA, or RD with its field replaced, and Z and N are those
of the result; bit by bit for EXT and INS. CMPR and CMPRI set all four flags as SUB does, TST sets Z and N
of the conjunction, and these three write no register. Each takes one clock, and nothing else changes.
(05_detaica.md R162, R163, R166, R186) -/
def Obligations.ShiftsFieldsAndComparisons : Prop :=
  HasEffect .shl 0x0A (fun u g w =>
    let r := u.reg g (fRA w) <<< ((u.reg g (fRB w)).toNat % 64); u.plain g (some (fRD w, r)) (nz r)) ∧
  HasEffect .shr 0x0B (fun u g w =>
    let r := u.reg g (fRA w) >>> ((u.reg g (fRB w)).toNat % 64); u.plain g (some (fRD w, r)) (nz r)) ∧
  HasEffect .sar 0x0C (fun u g w =>
    let r := (u.reg g (fRA w)).sshiftRight ((u.reg g (fRB w)).toNat % 64); u.plain g (some (fRD w, r)) (nz r)) ∧
  HasEffect .shli 0x11 (fun u g w => let r := u.reg g (fRA w) <<< fIMM w; u.plain g (some (fRD w, r)) (nz r)) ∧
  HasEffect .shri 0x12 (fun u g w => let r := u.reg g (fRA w) >>> fIMM w; u.plain g (some (fRD w, r)) (nz r)) ∧
  HasEffect .sari 0x13 (fun u g w =>
    let r := (u.reg g (fRA w)).sshiftRight (fIMM w); u.plain g (some (fRD w, r)) (nz r)) ∧
  (∃ f : Word → Nat → Nat → Word,
    HasEffect .ext 0x1C (fun u g w =>
      let r := f (u.reg g (fRA w)) (fLSB w) (fWM1 w); u.plain g (some (fRD w, r)) (nz r)) ∧
    ∀ a lsb wm1 i, lsb + wm1 ≤ 47 → (f a lsb wm1).getLsbD i = (decide (i ≤ wm1) && a.getLsbD (lsb + i))) ∧
  (∃ f : Word → Word → Nat → Nat → Word,
    HasEffect .ins 0x1D (fun u g w =>
      let r := f (u.reg g (fRD w)) (u.reg g (fRA w)) (fLSB w) (fWM1 w); u.plain g (some (fRD w, r)) (nz r)) ∧
    ∀ d a lsb wm1 i, lsb + wm1 ≤ 47 → (f d a lsb wm1).getLsbD i =
      if lsb ≤ i ∧ i ≤ lsb + wm1 then a.getLsbD (i - lsb) else d.getLsbD i) ∧
  HasEffect .cmpr 0x14 (fun u g w =>
    let a := u.reg g (fRA w); let b := u.reg g (fRB w)
    u.plain g none (nzcv (a - b) (decide (b.toNat ≤ a.toNat)) (BitVec.ssubOverflow a b))) ∧
  HasEffect .cmpri 0x15 (fun u g w =>
    let a := u.reg g (fRA w); let b := (BitVec.ofNat 24 (fIMM w)).signExtend 48
    u.plain g none (nzcv (a - b) (decide (b.toNat ≤ a.toNat)) (BitVec.ssubOverflow a b))) ∧
  HasEffect .tst 0x16 (fun u g w => u.plain g none (nz (u.reg g (fRA w) &&& u.reg g (fRB w))))

/-- For every engine that executes a legal word of the opcode, with the new program counter inside a lane's
store: BR goes to TARGET where its condition holds, in two clocks on a lane and one on a tenon, else to the
next instruction in one. CALL with room on the return stack pushes the next program counter and goes to
TARGET; RET with an entry pops it and goes there; LOOP decrements RA and goes to TARGET while it is not 0;
JMPR goes to ra, its low eight bits on a tenon. WAIT takes IMM + 1 clocks. No other register and no flag
changes. HALT on a lane leaves it idle; on a tenon it leaves the tenon STOPPED with cause 2, its generator
stopped. (05_detaica.md R162, R164, R165, R167, R168, R169, R176, R186, 06_tenons_and_bays.md R211) -/
def Obligations.ControlFlowMovesTheProgramCounter : Prop :=
  HasEffect .br 0x17 (fun u g w =>
    if (u.engine (engKey g)).conditions.getD (fRD w) false
    then { u.plain g none FlagSet.keep with pc := fTARGET w, clocks := if isLane g then 2 else 1 }
    else u.plain g none FlagSet.keep) ∧
  (∀ (s u : State) (g : Engine) (w : Nat), s.executes g 0x18 w u →
    (u.engine (engKey g)).stack.length < (if isLane g then 4 else 2) →
    ∃ t, exec (.call g) s = .next t ∧ Frame [.eng] [] u t ∧
      Ran g u t { u.plain g none FlagSet.keep with
        stack := u.nextPc g :: (u.engine (engKey g)).stack, pc := fTARGET w, clocks := if isLane g then 2 else 1 }) ∧
  (∀ (s u : State) (g : Engine) (w pc : Nat) (rest : List Nat), s.executes g 0x19 w u →
    (u.engine (engKey g)).stack = pc :: rest → pc < (if isLane g then 16384 else 256) →
    ∃ t, exec (.ret g) s = .next t ∧ Frame [.eng] [] u t ∧
      Ran g u t { u.plain g none FlagSet.keep with stack := rest, pc := pc, clocks := if isLane g then 2 else 1 }) ∧
  HasEffect .loop 0x1A (fun u g w =>
    let v := u.reg g (fRA w) - 1
    if v = 0 then u.plain g (some (fRA w, v)) FlagSet.keep
    else { u.plain g (some (fRA w, v)) FlagSet.keep with pc := fTARGET w, clocks := if isLane g then 2 else 1 }) ∧
  (∀ (s u : State) (g : Engine) (w : Nat), s.executes g 0x1B w u → (isLane g = true → u.pc g + 1 < 16384) →
    ∃ t, exec (.wait g) s = .next t ∧ Frame [.eng] [] u t ∧
      t.engine (engKey g) = { u.engine (engKey g) with
        pc := u.nextPc g, ready := (u.engine (engKey g)).ready + (fIMM w + 1) * clock64 g,
        wait := if isLane g then Wait.none else Wait.clocks } ∧ ∀ k, k ≠ engKey g → t.engine k = u.engine k) ∧
  (∀ (s u : State) (g : Engine) (w : Nat), s.executes g 0x1E w u →
    (isLane g = true → (u.reg g (fRA w)).toNat < 16384) →
    ∃ t, exec (.jmpr g) s = .next t ∧ Frame [.eng] [] u t ∧
      Ran g u t { u.plain g none FlagSet.keep with
        pc := (u.reg g (fRA w)).toNat % (if isLane g then 16384 else 256), clocks := if isLane g then 2 else 1 }) ∧
  (∀ (s u : State) (k : Fin 8) (w : Nat), s.executes (.lane k) 0x01 w u →
    ∃ t, exec (.halt (.lane k)) s = .next t ∧ t.get (SEQ_LANE.STATE k.val) = 0 ∧ t.bit SEQ_STAT.BUSY k.val = false ∧
      (t.engine k.val).wait = Wait.none ∧ PartsKept [.eng, .tbl] u t ∧
      ∀ f : Field, f.key ≠ (SEQ_LANE.STATE k.val).key → f.key ≠ SEQ_STAT.BUSY.key → t.get f = u.get f) ∧
  ∀ (s u : State) (b : Fin 32) (n : Fin 5) (w : Nat), s.executes (.tenon b n) 0x01 w u →
    ∃ t, exec (.halt (.tenon b n)) s = .next t ∧ t.tenState b.val n.val = tnSTOPPED ∧
      t.get (TEN_STAT.CAUSE b.val n.val) = 2 ∧ (t.engine (tenKey b.val n.val)).genMode = 0 ∧
      (t.engine (tenKey b.val n.val)).side = none ∧ PartsKept [.eng] u t

/-- For every engine that runs. A CALL with a full return stack (4 entries on a lane, 2 on a tenon) and a RET
with an empty one do not execute: the command goes on in a state in which the lane is idle with cause 4 or 5
recorded with its number and program counter in SEQ_ABORT, or the tenon is STOPPED and TEN_ILLEGAL is
reported with its program counter. A word that is a reserved encoding has the same effect when it is
fetched, whichever instruction was expected there, with cause 2 on a lane. The registers, the flags and the
return stack of the engine stay. (R169) -/
def Obligations.ReturnStackLimitsAndReservedEncodings : Prop :=
  ∀ (s u : State) (g : Engine) (w : Nat) (r : Result) (cause : Nat),
    (s.executes g 0x18 w u ∧ (if isLane g then 4 else 2) ≤ (u.engine (engKey g)).stack.length ∧
        r = exec (.call g) s ∧ cause = 4) ∨
      (s.executes g 0x19 w u ∧ (u.engine (engKey g)).stack = [] ∧ r = exec (.ret g) s ∧ cause = 5) ∨
      (s.runs g = true ∧ s.fetchWord g = (w, false) ∧ legalWord (isLane g) w = false ∧ u = (s.issue g).countFetch g ∧
        (r = exec (.nop g) s ∨ r = exec (.call g) s ∨ r = exec (.ret g) s) ∧ cause = 2) →
    ∃ t, r = .next t ∧ (t.engine (engKey g)).stack = (u.engine (engKey g)).stack ∧
      (∀ i, i ≠ 5 → Tab.get 0 (t.engine (engKey g)).regs i = Tab.get 0 (u.engine (engKey g)).regs i) ∧
      (t.engine (engKey g)).z = (u.engine (engKey g)).z ∧ (t.engine (engKey g)).n = (u.engine (engKey g)).n ∧
      (t.engine (engKey g)).c = (u.engine (engKey g)).c ∧ (t.engine (engKey g)).v = (u.engine (engKey g)).v ∧
      match g with
      | .lane k => t.get (SEQ_LANE.STATE k.val) = 0 ∧ t.get SEQ_ABORT.CAUSE = cause ∧
          t.get SEQ_ABORT.LANE = k.val ∧ t.get SEQ_ABORT.PC = (u.engine k.val).pc % 2 ^ 14 ∧
          t.flt = (u.raise Kind.SEQ_LANE_ABORT (k.val * 2 ^ 20 + (u.engine k.val).entry)).flt
      | .tenon b n => t.tenState b.val n.val = tnSTOPPED ∧ t.flt =
          (u.raise Kind.TEN_ILLEGAL ((u.engine (engKey g)).pc * 65536 + u.tenAddr b.val n.val)).flt

/-- For every engine that executes SHL, SHR or SAR with rb[5:0] from 48 to 63: the command goes on, and RD takes
0 for SHL and SHR, and 48 copies of bit 47 of ra for SAR. For every word of SHLI, SHRI or SARI with IMM from
48 to 63 or with IMM[23:6] not zero, and of EXT or INS with LSB + WM1 above 47: on both profiles it is a
reserved encoding, and an engine that runs and fetches it is stopped as the reserved encoding stops it.
(R166) -/
def Obligations.ShiftAmountsOfTheWidthAndMore : Prop :=
  (∀ (s u : State) (g : Engine) (w : Nat) (a b : Word), a = u.reg g (fRA w) → b = u.reg g (fRB w) →
    48 ≤ b.toNat % 64 → (isLane g = true → u.pc g + 1 < 16384) →
    (s.executes g 0x0A w u → ∃ t, exec (.shl g) s = .next t ∧ Ran g u t (u.plain g (some (fRD w, 0)) (nz 0))) ∧
    (s.executes g 0x0B w u → ∃ t, exec (.shr g) s = .next t ∧ Ran g u t (u.plain g (some (fRD w, 0)) (nz 0))) ∧
    (s.executes g 0x0C w u → ∃ t, exec (.sar g) s = .next t ∧
      Ran g u t (u.plain g (some (fRD w, if a.msb then BitVec.allOnes 48 else 0))
        (nz (if a.msb then BitVec.allOnes 48 else 0))))) ∧
  ∀ w : Nat,
    (opcode w = 0x11 ∨ opcode w = 0x12 ∨ opcode w = 0x13) ∧ (48 ≤ bits w 5 0 ∨ bits w 23 6 ≠ 0) ∨
      (opcode w = 0x1C ∨ opcode w = 0x1D) ∧ 47 < fLSB w + fWM1 w →
    ∀ lane : Bool, legalWord lane w = false ∧
      ∀ (s : State) (g : Engine), isLane g = lane → s.runs g = true → s.fetchWord g = (w, false) →
        ∀ c ∈ [Instr.shli g, .shri g, .sari g, .ext g, .ins g], exec c s = .next (((s.issue g).countFetch g).illegal g 2)

/-- For a lane that executes the instruction, once what lower-numbered lanes do with the channel in this tick is
done (R175), on a channel whose lookup answers at once with an entry that passes the checks of R138 and
R424, with the next program counter inside the store. LDW of a word inside the extent, with the home
reachable and requester 0 alive: where the table port serves at once, RD is that word and C 0, and the read
acts on an object's lock; with an uncorrectable word RD stays, C is 1 and TBL_ECC_UE is reported; else it
opens a read and the lane waits for it. STW stores RD, C is 0; with the home lost or requester 0 masked C is
1. MOVC of a movable channel begins the move: where it opens an operation the lane waits for it, else C is
0, or 1 where the move can not be done. MOVC_COMPLETE of a closed operation, or of one abandoned, ends the
wait: C tells whether it failed, an LDW's RD is its word. VOTE acts with the present tick, C is 0; TARIFF
registers the tariff, or reports SEQ_BAD_ACTION for a tenant that does not own the feed; both with fewer
than 32 actions open. The engine changes only so, and beside it only the lookup and the access change the
hub. (05_detaica.md R170, R176, R186, 01_architecture.md R35, 02_channel_table.md R45, R53, R54, R56, R75,
04_ephemeris.md R138) -/
def Obligations.LanesAccessChannels : Prop :=
  (∀ (s x u v : State) (k : Fin 8) (w ch i : Nat) (c : Entry) (g : Engine) (lost : Bool), g = .lane k →
    ch = (x.reg g (fRA w)).toNat % 2 ^ 16 → u = x.lowerWords k ch → i = (u.reg g (fRB w)).toNat % 2 ^ 16 → u.pc g + 1 < 16384 →
    ch < 0xFFF0 → u.lookup ch = some (v, c) → channelOk ch (u.engine k.val).tenant c = true →
    lost = (!v.homeUp || !v.alive 0) →
    (s.executes g 0x40 w x → i < c.extent → lost = false →
      (v.servesNow 0 false ch i 1 = true →
        (v.homeBad (64 * c.dataPtr + 8 * i) 8 = false →
          ∃ t, exec (.ldw k false) s = .next t ∧
            Frame [.eng] [] ((v.corrected (64 * c.dataPtr + 8 * i) 8).objectRead ch c i 1) t ∧
            Ran g u t { u.plain g (some (fRD w, (v.dataWords c.dataPtr i 1).getD 0 0)) (cF false) with clocks := 2 }) ∧
        ∃ t, exec (.ldw k true) s = .next t ∧ Frame [.eng] [] (v.raise Kind.TBL_ECC_UE ch) t ∧
          Ran g u t { u.plain g none (cF true) with clocks := 2 }) ∧
      (v.servesNow 0 false ch i 1 = false → ∀ ue : Bool, ∃ t, exec (.ldw k ue) s = .next t ∧
        t.engine k.val = { u.engine k.val with wait := .movc v.tbl.nextOp } ∧ t.get (SEQ_LANE.STATE k.val) = 2 ∧
        Frame [.eng] [SEQ_LANE.STATE k.val]
          (v.openOp 27 (u.engine k.val).tenant false ch c i 1 [] (.ldw k.val (fRD w)) false) t)) ∧
    (s.executes g 0x41 w x → i < c.extent →
      ∃ t, exec (.stw k) s = .next t ∧
        Frame [.eng] [] (v.putChan 27 (u.engine k.val).tenant ch c i [u.reg g (fRD w)]) t ∧
        Ran g u t { u.plain g none (cF lost) with clocks := 2 }) ∧
    (s.executes g 0x42 w x → c.type = tCHAIN ∨ c.type = tSTREAM ∨ c.type = tMBUS ∨ c.type = tTUNNEL →
      ∃ t, exec (.movc k) s = .next t ∧
        if (v.beginMove (.movc k.val) ch c).2 = .opened
        then t.engine k.val = { u.engine k.val with wait := .movc v.tbl.nextOp } ∧ t.get (SEQ_LANE.STATE k.val) = 2 ∧
          Frame [.eng] [SEQ_LANE.STATE k.val] (v.beginMove (.movc k.val) ch c).1 t
        else Ran g u t (u.plain g none (cF (lost && (v.beginMove (.movc k.val) ch c).2 == .never))) ∧
          Frame [.eng] [] (v.beginMove (.movc k.val) ch c).1 t) ∧
    (s.executes g 0x48 w x → s.openActs < 32 → v.voteOk ch c = true →
      ∃ t, exec (.vote k) s = .next t ∧ Frame [.eng] [] (v.vote ch c v.ticks) t ∧
        Ran g u t (u.plain g none (cF false)))) ∧
  (∀ (s u : State) (k : Fin 8) (id : Nat) (g : Engine), g = .lane k → (s.engine k.val).wait = .movc id →
    s.pc g + 1 < 16384 → u = s.setEngine k.val { s.engine k.val with wait := .none, ready := s.now * 64 } →
    (s.op id = none → ∃ t, exec (.movcComplete k) s = .next t ∧ t.get (SEQ_LANE.STATE k.val) = 1 ∧
      Frame [.eng] [SEQ_LANE.STATE k.val] s t ∧ Ran g u t (u.plain g none (cF true))) ∧
    ∀ o : Op, s.op id = some o → o.closed = true →
      ∃ t, exec (.movcComplete k) s = .next t ∧ t.get (SEQ_LANE.STATE k.val) = 1 ∧
        (o.failed = true → Frame [.eng] [SEQ_LANE.STATE k.val] (s.retireOp o) t ∧ Ran g u t (u.plain g none (cF true))) ∧
        (o.failed = false → o.purpose = .movc k.val →
          Frame [.eng] [SEQ_LANE.STATE k.val] ((s.moveBeat o).retireOp o) t ∧ Ran g u t (u.plain g none (cF false))) ∧
        ∀ j rd, o.failed = false → o.purpose = .ldw j rd →
          Frame [.eng] [SEQ_LANE.STATE k.val] ((s.objectRead o.ch o.entry o.first 1).retireOp o) t ∧
            Ran g u t (u.plain g (some (rd, Tab.get 0 o.data o.first)) (cF false))) ∧
  ∀ (s u : State) (k : Fin 8) (w f : Nat) (g : Engine), g = .lane k → s.executes g 0x49 w u → s.openActs < 32 →
    u.pc g + 1 < 16384 → f = bits w 12 8 →
    ∃ t, exec (.tariff k) s = .next t ∧ Ran g u t (u.plain g none FlagSet.keep) ∧
      if (u.engine k.val).tenant = 0 ∨ u.get (FEED_CFG.TENANT f) = (u.engine k.val).tenant
      then t.feed f = { u.feed f with tarReq := some (bits w 1 0) } ∧ (∀ j, j ≠ f → t.feed j = u.feed j) ∧
        Frame [.feeds, .eng] [] u t
      else Frame [.eng] [] (u.raise Kind.SEQ_BAD_ACTION (u.engine k.val).entry) t

/-- For a lane that executes the instruction, once a firing of the entry that is due has been dispatched, an
uncorrectable entry rewritten and what lower-numbered lanes do with the entry in this tick is done (R175),
on an entry whose owner is recorded, with the next program counter inside the store; each takes two clocks.
An entry of another tenant than the program's, T00 apart, is refused: C is 1 and SEQ_BAD_ACTION is reported.
FIRE of an entry that is not FREE dispatches it with the present tick and C 0 where RUN is set; without RUN,
and for a FREE entry, nothing is dispatched and C is 1, with SEQ_BAD_ACTION for a FREE one. ARM of a QUEUED
entry changes nothing; of any other, a FREE one below its tenant's cap included, it leaves the entry ARMED,
a REV entry with the next occurrence of its angle where its domain tracks in a permitted direction; C is 0.
ARM of a FREE entry of a tenant at its cap reports SEQ_CAP and C is 1. DISARM leaves the entry IDLE with no
firing queued, C 0. No other entry changes. (05_detaica.md R170, R186, 04_ephemeris.md R128, R129, R130,
R131, R141, R154, R155) -/
def Obligations.LanesActOnEntries : Prop :=
  ∀ (s u v : State) (k : Fin 8) (w i : Nat) (ue : Bool) (g : Engine) (e : Eph), g = .lane k → v.pc g + 1 < 16384 →
    i = (u.reg g (fRA w)).toNat % 2 ^ 18 → v = ((u.dispatchDueOf (fun j => j == i) 1).touchEntry i ue).lowerEntries k i → e = v.entry i →
    ((v.engine k.val).tenant ≠ 0 → e.tenant ≠ (v.engine k.val).tenant → ∀ (op : Nat) (c : Instr), s.executes g op w u →
      op = 0x43 ∧ c = .fire k ue ∨ op = 0x44 ∧ c = .arm k ue ∨ op = 0x45 ∧ c = .disarm k ue →
      ∃ t, exec c s = .next t ∧ Frame [.eng] [] (v.raise Kind.SEQ_BAD_ACTION i) t ∧
        Ran g v t { v.plain g none (cF true) with clocks := 2 }) ∧
    ((v.engine k.val).tenant = 0 ∨ e.tenant = (v.engine k.val).tenant →
      Tab.get 0 v.seq.owner i = (if e.state = eFREE then 0 else e.tenant + 1) →
      (s.executes g 0x43 w u →
        ∃ t, exec (.fire k ue) s = .next t ∧
          if e.state = eFREE then Frame [.eng] [] (v.raise Kind.SEQ_BAD_ACTION i) t ∧
            Ran g v t { v.plain g none (cF true) with clocks := 2 }
          else if v.on SEQ_CTL.RUN then Frame [.eng] [] (v.dispatch i v.ticks .fire) t ∧
            Ran g (v.dispatch i v.ticks .fire) t
              { (v.dispatch i v.ticks .fire).plain g none (cF false) with clocks := 2 }
          else Frame [.eng] [] v t ∧ Ran g v t { v.plain g none (cF true) with clocks := 2 }) ∧
      (s.executes g 0x44 w u →
        ∃ t, exec (.arm k ue) s = .next t ∧ (∀ j, j ≠ i → t.entry j = v.entry j) ∧
          (e.state = eQUEUED → Frame [.eng] [] v t ∧ Ran g v t { v.plain g none (cF false) with clocks := 2 }) ∧
          (e.state ≠ eQUEUED → (e.state = eFREE → v.get (SEQ_TCAP.USED e.tenant) < v.get (SEQ_TCAP.CAP e.tenant)) →
            Frame [.seq, .eng] (if e.state = eFREE then [SEQ_TCAP.USED e.tenant] else []) v t ∧
            Ran g v t { v.plain g none (cF false) with clocks := 2 } ∧ t.seq.wheel = v.seq.wheel ∧
            t.entry i =
              if e.trigkind ≠ 2 then { e with state := eARMED }
              else if v.phState e.domain = phTRACK ∧ permits e.dir (v.fwd e.domain) = true
              then ({ e with state := eARMED } : Eph).withNext
                (nextAhead (v.fwd e.domain) (v.phaseNow e.domain) (e.trig % 2 ^ 24))
              else { e with state := eARMED, nextSet := false }) ∧
          (e.state = eFREE → v.get (SEQ_TCAP.CAP e.tenant) ≤ v.get (SEQ_TCAP.USED e.tenant) →
            Frame [.eng] [] (v.raise Kind.SEQ_CAP (i + 2 ^ 18 * e.tenant)) t ∧
            Ran g v t { v.plain g none (cF true) with clocks := 2 })) ∧
      (s.executes g 0x45 w u →
        ∃ t, exec (.disarm k ue) s = .next t ∧ t.entry i = { e with state := eIDLE } ∧
          (∀ j, j ≠ i → t.entry j = v.entry j) ∧ t.seq.wheel = v.seq.wheel.filter (fun f => f.entry != i) ∧
          Frame [.seq, .eng] (SEQ_STAT.WHEEL :: if e.state = eFREE then [SEQ_TCAP.USED e.tenant] else []) v t ∧
          Ran g v t { v.plain g none (cF false) with clocks := 2 }))

/-- For a lane that executes the instruction, with the next program counter inside the store. WAIT_PHASE gives
RD 3 where the domain has no tracked phase, 1 where the target is reached already, each with Z 0; else the
lane waits with the direction fixed at issue. WAIT_TIME gives RD 1 and Z 0 where the tick has come, else the
lane waits for it. PHASE_WAIT_END of a lane whose wait a slip or loss has ended gives RD the recorded answer
and Z accordingly; of a lane whose target is reached now or first n ticks on, and of TIME_WAIT_END, the
clock runs to that tick, RD is 0 and Z 1. A resuming lane runs again, one clock later, at the next
instruction. (05_detaica.md R171, R172) -/
def Obligations.LanesWaitForPhaseAndTime : Prop :=
  (∀ (s u : State) (k : Fin 8) (w : Nat) (g : Engine), g = .lane k → u.pc g + 1 < 16384 →
    (∀ (d target : Nat) (fwd : Bool), s.executes g 0x46 w u → d = bits w 1 0 →
      fwd = (if bits w 3 2 = 3 then u.fwd d else decide (bits w 3 2 = 1)) → target = (u.reg g (fRA w)).toNat →
      (u.phState d ≠ phTRACK ∨ (u.dom d).eff = none →
        ∃ t, exec (.waitPhase k) s = .next t ∧ Frame [.eng] [] u t ∧
          Ran g u t (u.plain g (some (fRD w, 3)) (zF false))) ∧
      (∀ m : Model, u.phState d = phTRACK → (u.dom d).eff = some m →
        (reached fwd m target u.ticks = true → ∃ t, exec (.waitPhase k) s = .next t ∧ Frame [.eng] [] u t ∧
          Ran g u t (u.plain g (some (fRD w, 1)) (zF false))) ∧
        (reached fwd m target u.ticks = false → ∃ t, exec (.waitPhase k) s = .next t ∧
          t.engine k.val = { u.engine k.val with wait := .phase d target fwd (fRD w) } ∧
          t.get (SEQ_LANE.STATE k.val) = 2 ∧ Frame [.eng] [SEQ_LANE.STATE k.val] u t))) ∧
    (s.executes g 0x47 w u →
      ∃ t, exec (.waitTime k) s = .next t ∧
        if dt (u.reg g (fRA w)).toNat u.ticks ≤ 0
        then Frame [.eng] [] u t ∧ Ran g u t (u.plain g (some (fRD w, 1)) (zF false))
        else t.engine k.val = { u.engine k.val with wait := .time (u.reg g (fRA w)).toNat (fRD w) } ∧
          t.get (SEQ_LANE.STATE k.val) = 2 ∧ Frame [.eng] [SEQ_LANE.STATE k.val] u t)) ∧
  ∀ (s u : State) (k : Fin 8) (c : Instr) (val rd : Nat), s.pc (.lane k) + 1 < 16384 →
    (c = .phaseWaitEnd k ∧ (s.engine k.val).wait = .phaseOut val rd ∧ u = s) ∨
      (∃ d target fwd m n, c = .phaseWaitEnd k ∧ (s.engine k.val).wait = .phase d target fwd rd ∧
        (s.dom d).eff = some m ∧ val = 0 ∧
        (reached fwd m target s.ticks = true ∧ u = s ∨
          reached fwd m target s.ticks = false ∧ cross fwd m target s.ticks (2 ^ 46) = some n ∧ u = s.advance n)) ∨
      (∃ tick, c = .timeWaitEnd k ∧ (s.engine k.val).wait = .time tick rd ∧
        u = s.advance (dt tick s.ticks).toNat ∧ val = 0) →
    ∃ t, exec c s = .next t ∧ t.get (SEQ_LANE.STATE k.val) = 1 ∧ Frame [.eng] [SEQ_LANE.STATE k.val] u t ∧
      Ran (.lane k) (u.setEngine k.val { u.engine k.val with wait := .none, ready := u.now * 64 }) t
        (u.plain (.lane k) (some (rd, word val)) (zF (decide (val = 0))))

/-- For every lane that executes RDT or RDPH, with the next program counter inside the store. RDT gives RD the
48 ticks bits of ring time at the tick of its issue, and no flag changes. RDPH gives RD the phase of DOMAIN
now and C 0 while the domain has a phase; otherwise RD is 0 and C 1. Each takes one clock and changes
nothing else. (R173) -/
def Obligations.LanesReadTimeAndPhase : Prop :=
  ∀ (s u : State) (k : Fin 8) (w : Nat) (g : Engine), g = .lane k → u.pc g + 1 < 16384 →
    (s.executes g 0x4B w u → ∃ t, exec (.rdt k) s = .next t ∧ Frame [.eng] [] u t ∧
      Ran g u t (u.plain g (some (fRD w, word u.ticks)) FlagSet.keep)) ∧
    (s.executes g 0x4C w u → ∃ t, exec (.rdph k) s = .next t ∧ Frame [.eng] [] u t ∧
      if u.hasPhase (bits w 1 0) then
        Ran g u t (u.plain g (some (fRD w, word (u.phaseNow (bits w 1 0)))) (cF false))
      else Ran g u t (u.plain g (some (fRD w, 0)) (cF true)))

/-- For every lane that executes SIGNAL. With CLASS below 3, or for a program of tenant T00, the lane goes on
after one clock and a report is on its way with source 0x06, kind 0x40 × CLASS + 0x30 + CODE and the address
ra[31:0], at the ring time of its issue; nothing else changes. The kinds lie in 0x30 to 0x3F, 0x70 to 0x7F,
0xB0 to 0xBF and 0xF0 to 0xFF. A program of another tenant with CLASS 3 is stopped: its lane is idle,
SEQ_ABORT records cause 6, and the only report is that of the stop. (R174) -/
def Obligations.SignalReportsAProgramsMessage : Prop :=
  ∀ (s u : State) (k : Fin 8) (w : Nat) (g : Engine), g = .lane k → s.executes g 0x4A w u →
    (bits w 7 6 ≠ 3 ∨ (u.engine k.val).tenant = 0 → u.pc g + 1 < 16384 →
      ∃ (t : State) (kd : Kind), exec (.signal k) s = .next t ∧ Ran g u t (u.plain g none FlagSet.keep) ∧
        kd.src = 0x06 ∧ kd.kind = 0x40 * bits w 7 6 + 0x30 + bits w 3 0 ∧ kd.kind % 64 / 16 = 3 ∧ kd.kind < 256 ∧
        t.flt = { u.flt with reports := u.flt.reports ++
          [.mk u.gen u.ticks kd ((u.reg g (fRA w)).toNat % 2 ^ 32)] } ∧
        Frame [.eng, .flt] [] u t) ∧
    (bits w 7 6 = 3 → (u.engine k.val).tenant ≠ 0 →
      ∃ t, exec (.signal k) s = .next t ∧ t.get (SEQ_LANE.STATE k.val) = 0 ∧ t.get SEQ_ABORT.CAUSE = 6 ∧
        t.get SEQ_ABORT.LANE = k.val ∧
        t.flt = (u.raise Kind.SEQ_LANE_ABORT (k.val * 2 ^ 20 + (u.engine k.val).entry)).flt ∧
        PartsKept [.eng, .tbl, .flt] u t)

/-- For a tenon that executes the instruction. SHIFTO or SHIFTI whose own generator is stopped moves nothing and
sets C 1. Else, with nothing to pop, it clears C and begins its steps at its issue clock: on the own clock
it ends after the clocks that R181 and R203 give, on an external one it waits for the edges; in target mode
it keeps SR and waits for its select frame, a frame already under way apart. A step of SHIFTO drives and
emits the next group of SR and shifts it out with zero fill; one of SHIFTI shifts the group's pins in, a pin
outside the mortise as 0; neither changes another register. Of a shift on the own clock exactly the steps
whose edge has come are taken when the tenon is brought up to date. SELECT_RELEASE of a frame of fewer edges
than steps restores SR, sets C 1, counts and reports SHORT_WORD; of enough edges it completes with C 0, of
more it counts and reports OVERRUN too; of a frame that was under way at issue it only starts the wait for
the next one. CLKCTL sets the generator's mode at the issue clock and changes no register. WCLK on own edges
completes after them in free run, with C 1 in another mode; on other edges it waits for their number. CMP
sets only Z, to ((ra xor CV) and CM) = 0. (05_detaica.md R177, R179, R180, R181, R182, R183,
06_tenons_and_bays.md R201, R203, R204, R205, R206) -/
def Obligations.TenonsShiftOnTheirClock : Prop :=
  (∀ (s u : State) (b : Fin 32) (n : Fin 5) (w c : Nat) (g : Engine) (own : Bool) (samples : List (BitVec 16)),
    g = .tenon b n → c = (u.engine (engKey g)).ready / 250 → own = u.ownClock b.val n.val →
    s.executes g 0x80 w u ∨ s.executes g 0x81 w u →
    ∀ (shift : Instr) (taken : List (BitVec 16)),
    opcode w = 0x80 ∧ shift = .shifto b n ∧ taken = [] ∨ opcode w = 0x81 ∧ shift = .shifti b n samples ∧ taken = samples →
    (u.genStopped b.val n.val = true → ∃ t, exec shift s = .next t ∧ Frame [.eng] [] u t ∧
      Ran g u t (u.plain g none (cF true))) ∧
    (u.genStopped b.val n.val = false → opcode w = 0x81 ∨ w.testBit 17 = false →
      u.on (TEN_CFG.TGT b.val n.val) = true →
      ∃ t, exec shift s = .next t ∧ Frame [.eng] [] (u.settleBay b.val) t ∧
        t.engine (engKey g) = { (u.settleBay b.val).engine (engKey g) with
          wait := .select ((u.settleBay b.val).reg g 4) (.mk w c 0 (own && !shPushes w) taken)
            (if (u.settleBay b.val).bit (BAY_PIN.IN b.val) (u.get (TEN_CFG.SELPIN b.val n.val)) = u.on (TEN_CFG.SELPOL b.val n.val)
              then none else some 0) }) ∧
    (u.genStopped b.val n.val = false → opcode w = 0x81 ∨ w.testBit 17 = false →
      u.on (TEN_CFG.TGT b.val n.val) = false →
      ∃ t, exec shift s = .next t ∧ Frame [.eng] [] u t ∧ (∀ k, k ≠ engKey g → t.engine k = u.engine k) ∧
        t.engine (engKey g) = { u.engine (engKey g) with
          c := false
          wait := .shift (.mk w c 0 (own && !shPushes w) taken)
          pc := if own then (if shPushes w then u.pc g % 256 else u.nextPc g) else u.pc g
          ready := (u.engine (engKey g)).ready +
            (if own then u.stepClocks b.val n.val (shSteps w) (opcode w == 0x81) c * 250 else 0) })) ∧
  (∀ (s : State) (b : Fin 32) (n : Fin 5) (w pins d p : Nat) (sr : Word),
    sr = Tab.get 0 (s.engine (tenKey b.val n.val)).regs 4 → d = shWidth w → p = bits w 23 20 →
    PartsKept [.eng, .out] s (s.shiftOne b.val n.val w pins) ∧
    (∀ k, k ≠ tenKey b.val n.val → (s.shiftOne b.val n.val w pins).engine k = s.engine k) ∧
    ∃ r : Word, (s.shiftOne b.val n.val w pins).engine (tenKey b.val n.val) =
      { s.engine (tenKey b.val n.val) with regs := Tab.put 0 (s.engine (tenKey b.val n.val)).regs 4 r } ∧
      (shIn w = false → r = (if w.testBit 19 then sr >>> d else sr <<< d) ∧ (s.shiftOne b.val n.val w pins).out =
        .shift b.val n.val (if w.testBit 19 then sr.toNat % 2 ^ d else sr.toNat / 2 ^ (48 - d)) :: s.out) ∧
      (shIn w = true → (s.shiftOne b.val n.val w pins).out = s.out ∧
        ∃ v : Nat, v < 2 ^ d ∧ (∀ i, i < d → v.testBit i = (s.inMortise b.val n.val (p + i) && pins.testBit (p + i))) ∧
          r = if w.testBit 19 then sr >>> d ||| word v <<< (48 - d) else sr <<< d ||| word v)) ∧
  (∀ (s : State) (b : Fin 32) (n : Fin 5) (x : Shift), s.tenState b.val n.val = tnRUNNING →
    s.ownClock b.val n.val = true → (s.engine (tenKey b.val n.val)).wait = .shift x → shSteps x.word ≤ 48 →
    ∃ d, ((s.settleTen b.val n.val).engine (tenKey b.val n.val)).wait = .shift { x with done := d } ∧ x.done ≤ d ∧
      (∀ j, x.done ≤ j → j < d → j < shSteps x.word ∧ s.stepAt b.val n.val { x with done := j } ≤ s.bayClock) ∧
      (d < shSteps x.word → s.bayClock < s.stepAt b.val n.val { x with done := d })) ∧
  (∀ (s u v : State) (b : Fin 32) (n : Fin 5) (edges m N : Nat) (g : Engine) (sr : Word) (x : Shift)
    (samples : List (BitVec 16)), g = .tenon b n → u = s.frameSteps b.val n.val edges samples → v = u.resumeNow b n →
    N = shSteps x.word → (s.engine (engKey g)).wait = .select sr x (some m) → shPushes x.word = false →
    ∃ t, exec (.selectRelease b n edges samples) s = .next t ∧
      Ran g v t (v.plain g (some (4, if m + edges < N then sr else u.reg g 4)) (cF (decide (m + edges < N)))) ∧
      (m + edges < N → t.get (TEN_ERR.SHORT b.val n.val) = min (s.get (TEN_ERR.SHORT b.val n.val) + 1) (2 ^ 16 - 1) ∧
        t.flt = (s.raise Kind.SHORT_WORD (s.tenAddr b.val n.val)).flt) ∧
      (N < m + edges → t.get (TEN_ERR.OVER b.val n.val) = min (s.get (TEN_ERR.OVER b.val n.val) + 1) (2 ^ 16 - 1) ∧
        t.flt = (s.raise Kind.OVERRUN (s.tenAddr b.val n.val)).flt) ∧
      (m + edges = N → t.flt = s.flt) ∧ PartsKept [.eng, .out, .flt] s t) ∧
  (∀ (s : State) (b : Fin 32) (n : Fin 5) (edges : Nat) (g : Engine) (sr : Word) (x : Shift) (samples : List (BitVec 16)),
    g = .tenon b n → (s.engine (engKey g)).wait = .select sr x none →
    ∃ t, exec (.selectRelease b n edges samples) s = .next t ∧ Frame [.eng] [BAY_PIN.IN b.val] s t ∧
      t.engine (engKey g) = { s.engine (engKey g) with wait := .select sr x (some 0) }) ∧
  (∀ (s u : State) (b : Fin 32) (n : Fin 5) (w : Nat) (g : Engine), g = .tenon b n →
    (s.executes g 0x8A w u → ∃ t, exec (.clkctl b n) s = .next t ∧
      (t.engine (engKey g)).genMode = bits w 1 0 ∧ (t.engine (engKey g)).genAt = (u.engine (engKey g)).ready / 250 ∧
      (∀ i, t.reg g i = u.reg g i) ∧ (t.engine (engKey g)).pc = u.nextPc g ∧
      (t.engine (engKey g)).ready = (u.engine (engKey g)).ready + 250 ∧ PartsKept [.eng] u t) ∧
    (s.executes g 0x82 w u → ∃ t, exec (.wclk b n) s = .next t ∧ Frame [.eng] [] u t ∧
      if bits w 31 30 < 2 ∧ u.ownClock b.val n.val = true then
        (if (u.engine (engKey g)).genMode = 1 then ∃ c h, c = (u.engine (engKey g)).ready / 250 ∧
            h = (if bits w 31 30 = 1 then u.sampleOffset b.val n.val else 0) ∧
            Ran g (u.waits b n .wclk) t { u.plain g none (cF false) with
              clocks := u.driveEdge b.val n.val (u.edgesBy b.val n.val h c + bits w 15 0) + h - c }
          else Ran g u t (u.plain g none (cF true)))
      else t.engine (engKey g) = { u.engine (engKey g) with c := false, wait := .edges (bits w 15 0 + 1) }) ∧
    (s.executes g 0x84 w u → ∃ t, exec (.cmp b n) s = .next t ∧ Frame [.eng] [] u t ∧
      Ran g u t (u.plain g none (zF (decide (((u.reg g (fRA w) ^^^ u.reg g 6) &&& u.reg g 7) = 0))))))

/-- For a tenon that executes the instruction; q are the queues of the logical tenon it serves. POP of an item
that is visible on this bay clock gives RD the one of the highest priority, the oldest of equals, and C 0;
with none, NB 1 sets C 1 and moves nothing, NB 0 waits. PUSH with space appends the item with its priority,
C 0, and lets streams go on; without space as POP. MARK, REWIND and RELEASE change the input queue as R214
says where it has a capacity. An item popped after a mark is popped again after a rewind; a release removes
what was popped and shows the rest. WPIN completes where the pin reads LEVEL, else it waits.
INSTRUCTION_WAIT_END shows the bay's pins at the levels given, which stand where the bay drives none; then a
POP with an item, a PUSH or SHIFTI push with space and a WPIN whose pin reads LEVEL go on from the present
bay clock as if they had just been issued; a SHIFTO goes on to its steps, a SHIFTI on the own clock to its
end. (05_detaica.md R179, R182, R184, 06_tenons_and_bays.md R214, R215, R216, R217, R218) -/
def Obligations.TenonsExchangeItemsAndAwaitPins : Prop :=
  (∀ (s u : State) (b : Fin 32) (n : Fin 5) (w l : Nat) (g : Engine) (q : Queues), g = .tenon b n →
    l = (u.logical b.val n.val).getD 0 → q = u.queues b.val l →
    (s.executes g 0x85 w u → ∃ t, exec (.pop b n) s = .next t ∧
      match (if u.qcap b.val l = 0 then none else bestItem (q.inq.filter fun x => x.visible u.bayClock)) with
      | some x => Ran g u t (u.plain g (some (fRD w, x.val)) (cF false)) ∧ Frame [.eng, .bay] [] u t ∧
          (t.queues b.val l).outq = q.outq ∧ (t.queues b.val l).marked = q.marked ∧
          (t.queues b.val l).inq = q.inq.map fun y =>
            if y.seqno = x.seqno then { y with popped := true, late := q.marked } else y
      | none => Frame [.eng] [] u t ∧
          if w.testBit 16 then Ran g u t (u.plain g none (cF true))
          else t.engine (engKey g) = { u.engine (engKey g) with wait := .pop }) ∧
    (s.executes g 0x86 w u → ∃ t, exec (.push b n) s = .next t ∧
      if q.outq.length < u.qcap b.val l then Ran g u t (u.plain g none (cF false)) ∧
        ∃ v, Frame [.eng] [] (v.pump b.val l) t ∧ Frame [.bay, .eng] [] u v ∧ (v.queues b.val l).inq = q.inq ∧
          (v.queues b.val l).outq = q.outq ++
            [.mk (u.reg g (fRA w)) (bits w 2 0) (u.bayRec b.val).seqctr u.bayClock false false false false]
      else Frame [.eng] [] u t ∧
        if w.testBit 16 then Ran g u t (u.plain g none (cF true))
        else t.engine (engKey g) = { u.engine (engKey g) with wait := .push }) ∧
    (∀ (c : Instr) (f : Queues → Queues),
      s.executes g 0x87 w u ∧ c = .mark b n ∧ f = (fun q => q.mark u.bayClock) ∨
        s.executes g 0x88 w u ∧ c = .rewind b n ∧ f = Queues.rewind ∨
        s.executes g 0x89 w u ∧ c = .release b n ∧ f = Queues.release →
      ∃ t, exec c s = .next t ∧ Ran g u t (u.plain g none FlagSet.keep) ∧
        Frame [.eng] [] ((if u.qcap b.val l = 0 then u else u.setQueues b.val l (f q)).pump b.val l) t) ∧
    (s.executes g 0x83 w u → ∃ t, exec (.wpin b n) s = .next t ∧ Frame [.eng] [] (u.settleBay b.val) t ∧
      if (u.settleBay b.val).bit (BAY_PIN.IN b.val) (fRA w) = w.testBit 0
      then Ran g (u.settleBay b.val) t ((u.settleBay b.val).plain g none FlagSet.keep)
      else t.engine (engKey g) = { (u.settleBay b.val).engine (engKey g) with wait := .pin })) ∧
  (∀ (q r : Queues) (v : Word) (c d : Nat), (q.inq.map Item.seqno).Nodup → (q.mark c).pop d = some (v, r) →
    ∃ r', r.rewind.pop d = some (v, r')) ∧
  (∀ q : Queues, (∀ x ∈ q.release.inq, x.popped = false ∧ x.hid = false) ∧
    q.release.inq.length = (q.inq.filter fun x => !x.popped).length) ∧
  ∀ (s v u : State) (b : Fin 32) (n : Fin 5) (pins : BitVec 16) (w l : Nat) (g : Engine), g = .tenon b n →
    v = s.seePins b pins → w = (v.fetchWord g).1 → l = (v.logical b.val n.val).getD 0 → u = v.resumeNow b n →
    (s.driversOn b.val = false → ∀ p, p < 16 → v.bit (BAY_PIN.IN b.val) p = pins.getLsbD p) ∧
    (∀ (x : Word) (q : Queues), (v.engine (engKey g)).wait = .pop → v.qcap b.val l ≠ 0 →
      (v.queues b.val l).pop v.bayClock = some (x, q) →
      (opcode w = 0x85 → ∃ t, exec (.instructionWaitEnd b n pins) s = .next t ∧
        Ran g u t (u.plain g (some (fRD w, x)) (cF false)) ∧ (t.queues b.val l).inq = q.inq ∧ Frame [.eng, .bay] [] u t) ∧
      (opcode w = 0x80 → exec (.instructionWaitEnd b n pins) s =
        .next (((u.setQueues b.val l q).setReg g 4 x).shiftRun b n w []))) ∧
    ((v.engine (engKey g)).wait = .push → (v.queues b.val l).outq.length < v.qcap b.val l →
      ∃ t r, exec (.instructionWaitEnd b n pins) s = .next t ∧ Ran g u t (u.plain g none (cF false)) ∧
        Frame [.eng] [] (r.pump b.val l) t ∧ Frame [.bay, .eng] [] u r ∧
        (r.queues b.val l).outq = (v.queues b.val l).outq ++
          [.mk (if opcode w = 0x81 then u.reg g 4 else u.reg g (fRA w))
            (if opcode w = 0x81 then bits w 16 14 else bits w 2 0) (v.bayRec b.val).seqctr v.bayClock
            false false false false]) ∧
    ((v.engine (engKey g)).wait = .pin → v.bit (BAY_PIN.IN b.val) (fRA w) = w.testBit 0 →
      ∃ t, exec (.instructionWaitEnd b n pins) s = .next t ∧ Ran g u t (u.plain g none FlagSet.keep) ∧
        Frame [.eng] [] u t) ∧
    ∀ x : Shift, (v.engine (engKey g)).wait = .shift x → v.ownClock b.val n.val = true → x.timed = false →
      exec (.instructionWaitEnd b n pins) s = .next (v.shiftPush b n w)

/-- SEQ_STORE_WRITE of a word below 16,384 sets that word of the sequencer store, whose fetch is intact again;
no other word changes. TENON_STORE_WRITE of a word below 40,960 does the same in the store of tenon (w mod
1280) / 256 of bay w / 1280 while that tenon neither runs nor tests itself nor takes part in a substitution;
otherwise nothing is written and PROG_WHILE_RUN is reported. COUNTER_PIN_EDGE brings the bay up to date and
shows the pin's new level; where no running tenon of the bay waits for an edge, each tenon's CNT takes 1
more where its CSRC counts that edge, rising, falling or both of CPIN, or a drive or sample edge of an
external shift clock, and otherwise stays; no other register and no other part of the hub changes.
(05_detaica.md R185, R187, R188, R189, 06_tenons_and_bays.md R204, R207, R213, 01_architecture.md R25) -/
def Obligations.StoresTakeWordsAndCountersCount : Prop :=
  (∀ (s : State) (w : BitVec 16) (v : Word), w.toNat < 16384 →
    ∃ t, exec (.seqStoreWrite w v) s = .next t ∧ Tab.get 0 t.seqStore w.toNat = v ∧
      w.toNat ∉ t.seqUe ∧ w.toNat ∉ t.seqWeak ∧
      (∀ j, j ≠ w.toNat → Tab.get 0 t.seqStore j = Tab.get 0 s.seqStore j ∧ (j ∈ t.seqUe ↔ j ∈ s.seqUe) ∧
        (j ∈ t.seqWeak ↔ j ∈ s.seqWeak)) ∧
      Frame [.seqStore] [] s t) ∧
  (∀ (s : State) (w : BitVec 16) (v : Word) (b n : Nat), w.toNat < 40960 → b = w.toNat / 1280 →
    n = w.toNat % 1280 / 256 →
    if s.tenState b n ≠ tnRUNNING ∧ s.tenState b n ≠ tnSELFTEST ∧
        (∀ x, (s.bayRec b).swap = some x → x.old ≠ n ∧ x.new ≠ n)
    then ∃ t, exec (.tenonStoreWrite w v) s = .next t ∧ Tab.get 0 t.tenStore w.toNat = v ∧
      w.toNat ∉ t.tenUe ∧ w.toNat ∉ t.tenWeak ∧
      (∀ j, j ≠ w.toNat → Tab.get 0 t.tenStore j = Tab.get 0 s.tenStore j ∧ (j ∈ t.tenUe ↔ j ∈ s.tenUe) ∧
        (j ∈ t.tenWeak ↔ j ∈ s.tenWeak)) ∧
      Frame [.tenStore] [] s t
    else exec (.tenonStoreWrite w v) s =
      .next (s.raise Kind.PROG_WHILE_RUN (w.toNat % 256 * 65536 + s.tenAddr b n))) ∧
  ∀ (s u : State) (b : Fin 32) (pin : Fin 16) (rising : Bool),
    u = (s.settleBay b.val).setBit (BAY_PIN.IN b.val) pin.val rising →
    (∀ n : Fin 5, u.tenState b.val n.val = tnRUNNING →
      (u.engine (tenKey b.val n.val)).wait ∈ [Wait.none, .clocks, .wclk, .pop, .push]) →
    ∃ t, exec (.counterPinEdge b pin rising) s = .next t ∧ t.bit (BAY_PIN.IN b.val) pin.val = rising ∧
      (∀ (n : Fin 5) (i src : Nat) (drive : Bool), src = u.get (TEN_CFG.CSRC b.val n.val) →
        drive = (rising != u.on (TEN_CLK.IDLE b.val n.val)) →
        t.reg (.tenon b n) i = u.reg (.tenon b n) i +
          if i = 5 ∧ (u.get (TEN_CFG.CPIN b.val n.val) = pin.val ∧
                ((src = 2 ∧ rising = true) ∨ (src = 3 ∧ rising = false) ∨ src = 4) ∨
              u.get (TEN_CLK.SRC b.val n.val) = 2 ∧ u.get (TEN_CLK.CKPIN b.val n.val) = pin.val ∧
                ((src = 5 ∧ drive = true) ∨ (src = 6 ∧ drive = false)))
          then 1 else 0) ∧
      (∀ k, (∀ n : Fin 5, k ≠ tenKey b.val n.val) → t.engine k = u.engine k) ∧ Frame [.eng] [] u t

/-- BANK_OUT_OF_BAND clears BANKOK and brings TEN_BANK into cause; BANK_IN_BAND of a bank with a voltage set
sets it and ends TEN_BANK; beside them, and the bay brought up to date, only pin levels may change.
TENON_START without STOP of a STOPPED tenon: with the checks of R210 passed it is RUNNING at ENTRY with
flags 0, an empty return stack, its generator stopped, and issues on the next bay clock, its registers kept;
else it stays STOPPED and TEN_CONFIG is reported. TENON_STOP of a RUNNING tenon leaves it STOPPED with cause
1, registers kept, generator stopped, at the instruction in progress or, where that is over, at the next
one. TENON_TEST of a STOPPED or FAILED tenon and a due PERIODIC_SELFTEST of a spare in STANDBY begin a
self-test of 2,048 bay clocks. SELFTEST_COMPLETE runs the clock to its end and sets LAST; a store with an
uncorrectable word fails, and its correctable words count in CE; a pass counts in PASS and returns the
tenon, a FAILED one to STOPPED where the map names it, else to STANDBY; a failure counts in FAIL, leaves it
FAILED and reports TEN_TEST_FAIL. (05_detaica.md R159, 06_tenons_and_bays.md R196, R209, R210, R211, R212,
R213, R224, R225, 15_faults.md R459) -/
def Obligations.BanksAndTenonsChangeState : Prop :=
  (∀ (s u : State) (b : Fin 32), u = s.settleBay b.val →
    (s.on (BAY_CTL.BANKOK b.val) = true → ∃ t, exec (.bankOutOfBand b) s = .next t ∧
      t.on (BAY_CTL.BANKOK b.val) = false ∧ t.inCause Kind.TEN_BANK (b.val * 256) = true ∧
      Frame [.flt] [BAY_CTL.BANKOK b.val, BAY_PIN.IN b.val] u t) ∧
    (s.on (BAY_CTL.BANK b.val) = true → ∃ t, exec (.bankInBand b) s = .next t ∧
      t.on (BAY_CTL.BANKOK b.val) = true ∧ t.inCause Kind.TEN_BANK (b.val * 256) = false ∧
      t.flt.reports = s.flt.reports ∧ Frame [.flt] [BAY_CTL.BANKOK b.val, BAY_PIN.IN b.val] u t)) ∧
  (∀ (s : State) (b : Fin 32) (n : Fin 5) (v : Word) (g : Engine), g = .tenon b n → v.getLsbD 9 = false →
    s.tenState b.val n.val = tnSTOPPED →
    (s.startOk b.val n.val = true → ∃ t, exec (.tenonStart b n v) s = .next t ∧
      t.tenState b.val n.val = tnRUNNING ∧ (∀ i, t.reg g i = s.reg g i) ∧
      t.engine (engKey g) = { t.engine (engKey g) with
        z := false, n := false, c := false, v := false, stack := [], wait := .none, genMode := 0
        pc := wbits v 7 0, issued := wbits v 7 0, ready := (s.bayClock + 1) * 250 } ∧ PartsKept [.eng] s t) ∧
    (s.startOk b.val n.val = false → ∃ t, exec (.tenonStart b n v) s = .next t ∧
      t.flt = (s.raise Kind.TEN_CONFIG ((0x18 + 8 * n.val) * 65536 + s.tenAddr b.val n.val)).flt ∧
      t.get (TEN_CTL.ENTRY b.val n.val) = wbits v 7 0 ∧ Frame [.flt] [TEN_CTL.ENTRY b.val n.val] s t)) ∧
  (∀ (s u : State) (b : Fin 32) (n : Fin 5) (g : Engine), g = .tenon b n → s.get (TEN_CTL.ENTRY b.val n.val) < 256 →
    u = s.settleTen b.val n.val →
    (s.tenState b.val n.val = tnRUNNING → ∃ t, exec (.tenonStop b n) s = .next t ∧
      t.tenState b.val n.val = tnSTOPPED ∧ t.get (TEN_STAT.CAUSE b.val n.val) = 1 ∧ (∀ i, t.reg g i = u.reg g i) ∧
      (t.engine (engKey g)).genMode = 0 ∧ (t.engine (engKey g)).wait = .none ∧
      (t.engine (engKey g)).pc = u.atPc (u.engine (engKey g)) ∧ PartsKept [.eng, .out] s t) ∧
    (s.tenState b.val n.val = tnSTOPPED ∨ s.tenState b.val n.val = tnFAILED →
      ∃ t, exec (.tenonTest b n) s = .next t ∧ t.tenState b.val n.val = tnSELFTEST ∧
        t.engine (engKey g) = { s.engine (engKey g) with
          testOf := some (s.tenState b.val n.val), testEnd := s.bayClock + 2048 } ∧
        Frame [.eng] [TEN_STAT.STATE b.val n.val, TEN_CTL.ENTRY b.val n.val, BAY_PIN.IN b.val] s t)) ∧
  (∀ (s : State) (b : Fin 32) (sp : Fin 5), s.get (BAY_MAP.SPARE b.val) = sp.val → s.tenState b.val sp.val = tnSTANDBY →
    (∀ k, (s.bayRec b.val).tested = some k → s.get (BAY_SPARE.TINT b.val) ≠ 0 ∧
      k + s.get (BAY_SPARE.TINT b.val) ≤ s.cyc.ncyc) →
    ∃ t, exec (.periodicSelftest b) s = .next t ∧ t.tenState b.val sp.val = tnSELFTEST ∧
      t.bayRec b.val = { s.bayRec b.val with tested := some s.cyc.ncyc } ∧
      t.engine (tenKey b.val sp.val) = { s.engine (tenKey b.val sp.val) with
        testOf := some tnSTANDBY, testEnd := s.bayClock + 2048 } ∧
      Frame [.eng, .bay] [TEN_STAT.STATE b.val sp.val, BAY_PIN.IN b.val] s t) ∧
  ∀ (s : State) (b : Fin 32) (n : Fin 5) (given pass : Bool) (ce : BitVec 8) (back : Nat),
    pass = (given && (inStore s.tenUe b.val n.val).isEmpty) →
    s.tenState b.val n.val = tnSELFTEST → (s.engine (tenKey b.val n.val)).testOf = some back → back < 8 →
    ∃ t, exec (.selftestComplete b n given ce) s = .next t ∧
      t.now = max s.now (bayTick (s.engine (tenKey b.val n.val)).testEnd) ∧
      t.on (TEN_TEST.LAST b.val n.val) = pass ∧ t.get (TEN_TEST.CE b.val n.val) =
        min (s.get (TEN_TEST.CE b.val n.val) + (ce.toNat + (inStore s.tenWeak b.val n.val).length)) 255 ∧
      (if pass then t.get (TEN_TEST.PASS b.val n.val) = min (s.get (TEN_TEST.PASS b.val n.val) + 1) (2 ^ 16 - 1) ∧
          t.tenState b.val n.val = if back ≠ tnFAILED then back
            else if (s.logical b.val n.val).isSome then tnSTOPPED else tnSTANDBY
        else t.get (TEN_TEST.FAIL b.val n.val) = min (s.get (TEN_TEST.FAIL b.val n.val) + 1) 255 ∧
          t.tenState b.val n.val = tnFAILED ∧
          ∃ r ∈ t.flt.reports, r.kind = Kind.TEN_TEST_FAIL ∧ r.addr = s.tenAddr b.val n.val) ∧
      PartsKept [.clock, .free, .cyc, .eng, .bay, .flt, .mgt] s t

/-- QLINK_WRITE that changes QLINK takes effect while no logical tenon runs and all queues are empty, else
TEN_CONFIG is reported. QUEUE_IN_WRITE appends the item with priority PRI, hidden under a mark, where the
queue has space; a full queue drops it and counts in DROP. FLUSH empties both queues of a logical tenon that
does not run and has no transfer open, else it reports TEN_CONFIG. AUTO_STREAM_BURST inward, with its
channel found and right, the home up and the bay's requester alive, reads as many of the next 8 words up to
the channel's end as there is space for: at once where the table port serves it, else through an operation,
which a later burst command lands once it has closed; the words are appended and WPTR moves on and wraps.
Outward it takes up to as many items and writes them to those words. A wrong channel clears AUTO and reports
TEN_STREAM_ABORT with reason 1. STREAM_STALL with a limit runs the clock just past it and ends the transfer
that waited longest with reason 0. (06_tenons_and_bays.md R214, R218, R219, R220, R222, R223,
02_channel_table.md R56, R70) -/
def Obligations.QueuesAndStreamsOfABay : Prop :=
  (∀ (s : State) (b : Fin 32) (v : Word), wbits v 14 12 ≠ s.get (BAY_CTL.QLINK b.val) →
    if ∀ l : Fin 4, s.tenState b.val (s.physical b.val l.val) ≠ tnRUNNING ∧ (s.queues b.val l.val).inq = [] ∧
        (s.queues b.val l.val).outq = []
    then ∃ t, exec (.qlinkWrite b v) s = .next t ∧ t.get (BAY_CTL.QLINK b.val) = wbits v 14 12 ∧
      Frame [] [BAY_CTL.QLINK b.val] s t
    else exec (.qlinkWrite b v) s = .next (s.raise Kind.TEN_CONFIG (b.val * 256))) ∧
  (∀ (s : State) (b : Fin 32) (l : Fin 4) (v : Word) (q : Queues), q = s.queues b.val l.val →
    (q.inq.length < s.qcap b.val l.val → ∃ t, exec (.queueInWrite b l v) s = .next t ∧
      (t.queues b.val l.val).inq = q.inq ++
        [.mk v (s.get (BAY_STREAM.PRI b.val l.val)) (s.bayRec b.val).seqctr s.bayClock false false q.marked false] ∧
      (t.queues b.val l.val).outq = q.outq ∧ (t.queues b.val l.val).marked = q.marked ∧
      (∀ j, j ≠ l.val → t.queues b.val j = s.queues b.val j) ∧
      (t.bayRec b.val).seqctr = (s.bayRec b.val).seqctr + 1 ∧ Frame [.bay] [] s t) ∧
    (s.qcap b.val l.val ≤ q.inq.length → ∃ t, exec (.queueInWrite b l v) s = .next t ∧
      t.get (BAY_QSTAT.DROP b.val l.val) = min (s.get (BAY_QSTAT.DROP b.val l.val) + 1) (2 ^ 16 - 1) ∧
      Frame [] [BAY_QSTAT.DROP b.val l.val] s t) ∧
    (if s.tenState b.val (s.physical b.val l.val) = tnRUNNING ∨ ∃ o ∈ s.tbl.ops, o.streams b.val l.val = true
      then exec (.flush b l) s = .next (s.tenConfig b.val (s.physical b.val l.val) (0x0B + 4 * l.val))
      else ∃ t, exec (.flush b l) s = .next t ∧ (t.queues b.val l.val).inq = [] ∧
        (t.queues b.val l.val).outq = [] ∧ (t.queues b.val l.val).marked = false ∧
        (∀ j, j ≠ l.val → t.queues b.val j = s.queues b.val j) ∧
        (s.on (BAY_STREAM.AUTO b.val l.val) = false → t.flt = s.flt) ∧ PartsKept [.bay, .flt] s t)) ∧
  (∀ (s v : State) (b : Fin 32) (l : Fin 4) (c : Entry) (ch p most cp : Nat) (g : Field),
    g = BAY_STREAM.WPTR b.val l.val → cp = bayPort b.val → s.autoOp b.val l.val = none →
    s.on (BAY_STREAM.AUTO b.val l.val) = true →
    ch = s.get (BAY_STREAM.CH b.val l.val) → s.lookup ch = some (v, c) →
    if c.valid = true ∧ c.type = tSTREAM ∧ c.bay = b.val ∧ c.tenon = l.val
    then v.homeUp = true → v.alive (accessReq cp) = true → p = (if s.get g < c.points then s.get g else 0) →
      c.points ≤ 65536 → most = min 8 (c.points - p) →
      (s.on (BAY_STREAM.DIR b.val l.val) = false → ∀ n : Nat, n = min most (s.qcap b.val l.val - (s.queues b.val l.val).inq.length) →
        n ≠ 0 →
        (v.servesNow (accessReq cp) false ch p n = true → v.homeBad (64 * c.dataPtr + 8 * p) (8 * n) = false →
          ∃ t, exec (.autoStreamBurst b l) s = .next t ∧
            (t.queues b.val l.val).inq.map Item.val =
              (s.queues b.val l.val).inq.map Item.val ++ v.dataWords c.dataPtr p n ∧
            t.get g = (if c.points ≤ p + n then 0 else p + n) ∧
            Frame [.bay] [g] (v.corrected (64 * c.dataPtr + 8 * p) (8 * n)) t) ∧
        (v.servesNow (accessReq cp) false ch p n = false →
          exec (.autoStreamBurst b l) s = .next (v.openOp cp 0 false ch c p n [] .auto false))) ∧
      (s.on (BAY_STREAM.DIR b.val l.val) = true → ∀ (r : State) (ws : List Word), v.takeItems b.val l.val most = (r, ws) → ws ≠ [] →
        ∃ t, exec (.autoStreamBurst b l) s = .next t ∧
          t.get g = (if c.points ≤ p + ws.length then 0 else p + ws.length) ∧
          Frame [.bay] [g] (r.putChan cp 0 ch c p ws) t)
    else ∃ t, exec (.autoStreamBurst b l) s = .next t ∧ t.on (BAY_STREAM.AUTO b.val l.val) = false ∧
      t.flt = (v.raise Kind.TEN_STREAM_ABORT
        (65536 + b.val * 256 + s.physical b.val l.val * 16 + l.val)).flt ∧
      Frame [.bay, .flt] [BAY_STREAM.AUTO b.val l.val] v t) ∧
  (∀ (s : State) (b : Fin 32) (l : Fin 4) (o : Op) (g : Field), g = BAY_STREAM.WPTR b.val l.val →
    s.autoOp b.val l.val = some o → o.closed = true → o.first + o.count ≤ 65536 →
    (s.queues b.val l.val).inq.length + o.count ≤ s.qcap b.val l.val →
    ∃ t, exec (.autoStreamBurst b l) s = .next t ∧
      (t.queues b.val l.val).inq.map Item.val =
        (s.queues b.val l.val).inq.map Item.val ++ Tab.getList 0 o.data o.first o.count ∧
      t.get g = (if o.entry.points ≤ o.first + o.count then 0 else o.first + o.count) ∧
      t.tbl = { s.tbl with ops := s.tbl.ops.filter (fun x => x.id != o.id) } ∧ Frame [.bay, .tbl] [g] s t) ∧
  ∀ (s : State) (b : Fin 32) (l : Fin 4) (t0 k : Nat), s.stalledSince b.val l.val = some t0 →
    k = s.get (BAY_STREAM.STALL b.val l.val) → k ≠ 0 →
    ∃ t, exec (.streamStall b l) s = .next t ∧ t.now = max s.now (t0 + k * 4000 + 1) ∧
      (∀ o, s.stalledOp b.val l.val = some o → ∀ x ∈ t.tbl.ops, x.id = o.id → x.closed = true) ∧
      (∃ r ∈ t.flt.reports, r.kind = Kind.TEN_STREAM_ABORT ∧
        r.addr = b.val * 256 + s.physical b.val l.val * 16 + l.val) ∧
      PartsKept [.clock, .cyc, .tbl, .ddr, .host, .seq, .bay, .flt] s t

/-- SWAP_GO without CANCEL, with no substitution under way and a spare in STANDBY whose last test passed, makes
one pending for the logical tenon named, its copy complete 256 bay clocks on; else it is refused with
TEN_SWAP_FAIL and RESULT failed with reason 1. STORE_COPY_COMPLETE runs the clock to the end of the copy:
the spare's 256 words are those of the old tenon and no other word changes, or an uncorrectable word, met in
the copy or known of the store, ends the request with reason 0. TENON_SWAP_CANCEL ends it with reason 2.
TEN_SPARE_IN of an armed substitution in its basic cycle at a swap point: the map names the new tenon, which
has the registers, flags, return stack, program counter and wait of the old one and runs if it ran; no
output register changes, nor a pin's level where each driven pin stood at its output and the map names each
tenon once; the old one has stopped with cause 6, FAILED with no spare left under RETIRE, else it is the
spare, with LAST 0, in self-test; TEN_SPARE_IN is reported. (06_tenons_and_bays.md R228, R229, R230) -/
def Obligations.SubstitutionOfATenon : Prop :=
  (∀ (s : State) (b : Fin 32) (v : Word) (l p sp : Nat), v.getLsbD 5 = false → l = wbits v 1 0 →
    p = s.physical b.val l → sp = s.get (BAY_MAP.SPARE b.val) →
    ∃ t, exec (.swapGo b v) s = .next t ∧ t.get (BAY_SWAP.LOG b.val) = l ∧
      if s.get (BAY_SWAP.STATE b.val) = 0 ∧ sp < 5 ∧ s.tenState b.val sp = tnSTANDBY ∧ s.on (TEN_TEST.LAST b.val sp) = true
      then t.get (BAY_SWAP.STATE b.val) = 1 ∧ t.get (BAY_SWAP.RESULT b.val) = 0 ∧
        (t.bayRec b.val).swap = some (.mk l p sp (v.getLsbD 2) (v.getLsbD 3) (!v.getLsbD 2) (s.bayClock + 256) 0) ∧
        (∀ j, t.queues b.val j = s.queues b.val j) ∧
        Frame [.bay] [BAY_SWAP.LOG b.val, BAY_SWAP.COPY b.val, BAY_SWAP.RETIRE b.val, BAY_SWAP.STATE b.val,
          BAY_SWAP.RESULT b.val, BAY_SWAP.REASON b.val] s t
      else t.flt = (s.raise Kind.TEN_SWAP_FAIL (65536 + b.val * 256 + p * 16 + l)).flt ∧
        t.get (BAY_SWAP.RESULT b.val) = 2 ∧ t.get (BAY_SWAP.REASON b.val) = 1 ∧
        Frame [.flt] [BAY_SWAP.LOG b.val, BAY_SWAP.COPY b.val, BAY_SWAP.RETIRE b.val, BAY_SWAP.RESULT b.val,
          BAY_SWAP.REASON b.val] s t) ∧
  (∀ (s : State) (b : Fin 32) (w : Swap) (k : Nat), (s.bayRec b.val).swap = some w →
    (∀ c : Instr, c = .tenonSwapCancel b ∧ k = 2 ∨ (∃ ue, c = .storeCopyComplete b ue ∧ w.copied = false ∧ k = 0 ∧
        (ue = true ∨ inStore s.tenUe b.val w.old ≠ [])) →
      ∃ t, exec c s = .next t ∧ (t.bayRec b.val).swap = none ∧ t.get (BAY_SWAP.STATE b.val) = 0 ∧
        t.get (BAY_SWAP.RESULT b.val) = 2 ∧ t.get (BAY_SWAP.REASON b.val) = k ∧
        (∃ r ∈ t.flt.reports, r.kind = Kind.TEN_SWAP_FAIL ∧
          r.addr = k * 65536 + b.val * 256 + w.old * 16 + w.log) ∧ PartsKept [.clock, .cyc, .bay, .flt] s t) ∧
    (w.copied = false → inStore s.tenUe b.val w.old = [] → ∃ t, exec (.storeCopyComplete b false) s = .next t ∧ t.now = max s.now (bayTick w.ends) ∧
      t.bayRec b.val = { s.bayRec b.val with swap := some { w with copied := true } } ∧
      (∀ i, i < 256 → Tab.get 0 t.tenStore (storeWord b.val w.new i) = Tab.get 0 s.tenStore (storeWord b.val w.old i)) ∧
      (∀ j, inSpan j (storeWord b.val w.new 0) (storeWord b.val w.new 256) = false →
        Tab.get 0 t.tenStore j = Tab.get 0 s.tenStore j) ∧ PartsKept [.clock, .cyc, .tenStore, .bay] s t) ∧
    (∀ o n : Fin 5, w.old = o.val → w.new = n.val → o ≠ n → s.get (BAY_SWAP.STATE b.val) = 2 → w.cycle = s.cycKey →
      s.swapPoint b.val o.val = true → (∀ f ∈ tenConfigFields b.val o.val, s.get f < 2 ^ f.width) →
      ∀ u : State, u = s.settleBay b.val →
      ∃ t E, exec (.tenSpareIn b) s = .next t ∧ t.physical b.val w.log = n.val ∧ (t.bayRec b.val).swap = none ∧
        (∀ i, t.reg (.tenon b n) i = u.reg (.tenon b o) i) ∧ E = u.engine (tenKey b.val o.val) ∧
        (∃ R C X Y, t.engine (tenKey b.val n.val) = { E with regs := R, cntAt := C, testOf := none, testEnd := X, ceCount := Y }) ∧
        (t.tenState b.val n.val = tnRUNNING ↔ s.tenState b.val o.val = tnRUNNING) ∧
        t.get (BAY_PIN.OUT b.val) = u.get (BAY_PIN.OUT b.val) ∧
        (w.log < 4 → (∀ l, l < 4 → (s.physical b.val l = o.val ↔ l = w.log) ∧ s.physical b.val l ≠ n.val) →
          (∀ p, p < 16 → u.pinDriven b.val p = true → u.bit (BAY_PIN.IN b.val) p = u.bit (BAY_PIN.OUT b.val) p) →
          t.get (BAY_PIN.IN b.val) = u.get (BAY_PIN.IN b.val)) ∧
        t.get (TEN_STAT.CAUSE b.val o.val) = 6 ∧ t.get (BAY_SWAP.RESULT b.val) = 1 ∧
        (if w.retire then t.tenState b.val o.val = tnFAILED ∧ t.get (BAY_MAP.SPARE b.val) = 7
          else t.tenState b.val o.val = tnSELFTEST ∧ t.get (BAY_MAP.SPARE b.val) = o.val ∧
            t.on (TEN_TEST.LAST b.val o.val) = false) ∧
        t.flt = (s.raise Kind.TEN_SPARE_IN (o.val * 65536 + b.val * 256 + n.val * 16 + w.log)).flt ∧
        PartsKept [.eng, .bay, .flt, .out] s t))

/-- In every state. CHAIN_ENABLE of a disabled port with its pins right makes it idle, with no frame and no
readback to judge, and shows FTIME; with wrong pins it reports CHN_CONFIG; of an enabled one it writes
HOLDACT only; its KICK bit kicks. KICK of a port that is on and REFRESH_DUE of one that sends make a REPEAT
frame due, the latter at the tick that keeps the period. FRAME_START acts after the LATCHes that wait in
Hold are dropped. With a LATCH waiting, and no REPEAT frame that is due to start before it, it starts a NEW
frame at the LATCH's start tick: SEQ counts, CURRENT takes PENDING if a MOVE filled it, PREVIOUS takes
CURRENT, and the frame with its header and CRC goes out where the drivers of the bay are on; a due REPEAT
frame sends CURRENT again; a LATCH that must start before a REPEAT frame is over aborts it, counted, with a
LAT edge. FRAME_END runs the clock to the LAT edge, emits it, leaves the port idle, notes the frame for
judgement and ends the action; after a NEW frame under VERIFY and after a re-drive a REPEAT frame is due; a
late re-drive reports CHN_DEADLINE. Where nothing is due, nothing happens. (07_chain_ports.md R234, R236,
R237, R238, R239, R240, R242, R243, R246, R248, R249, R252) -/
def Obligations.ChainPortsRunTheirFrames : Prop :=
  (∀ (s : State) (p : Fin 64) (v : Word) (r : Chp), r = s.port p.val →
    ∃ t, exec (.chainEnable p v) s = .next t ∧ t.on (CHP_CTL.EN p.val) = true ∧
      t.get (CHP_CTL.HOLDACT p.val) = wbits v 1 1 ∧ (∀ j, j ≠ p.val → t.port j = s.port j) ∧
      if s.on (CHP_CTL.EN p.val) = true then
        t.port p.val = (if v.getLsbD 2 = true ∧ s.chOn p.val = true then { r with repDue := true } else r) ∧
        Frame [.chp] [CHP_CTL.EN p.val, CHP_CTL.HOLDACT p.val] s t
      else if s.chPinsOk p.val = true then t.get (CHP_STAT.STATE p.val) = cpIDLE ∧
        t.get (CHP_STAT.FTIME p.val) = s.ftime p.val % 2 ^ 27 ∧
        t.port p.val = { r with
          prev := none, frame := none, lastLat := s.now, parity := 0, unused := true, repDue := v.getLsbD 2 } ∧
        Frame [.chp] [CHP_CTL.EN p.val, CHP_CTL.HOLDACT p.val, CHP_STAT.STATE p.val, CHP_STAT.FTIME p.val,
          BAY_PIN.OUT (p.val / 2), BAY_PIN.IN (p.val / 2)] s t
      else t.flt = (s.raise Kind.CHN_CONFIG p.val).flt ∧
        t.port p.val = (if v.getLsbD 2 = true ∧ s.chOn p.val = true then { r with repDue := true } else r) ∧
        Frame [.chp, .flt] [CHP_CTL.EN p.val, CHP_CTL.HOLDACT p.val] s t) ∧
  (∀ (s : State) (p : Fin 64), ∃ t, exec (.kick p) s = .next t ∧
    t.port p.val = (if s.chOn p.val = true then { s.port p.val with repDue := true } else s.port p.val) ∧
    (∀ j, j ≠ p.val → t.port j = s.port j) ∧ Frame [.chp] [] s t) ∧
  (∀ (s : State) (p : Fin 64),
    if s.chSends p.val = true ∧ s.get (CHP_REFRESH.PERIOD p.val) ≠ 0 ∧ (s.port p.val).frame = none then
      ∃ t, exec (.refreshDue p) s = .next t ∧ t.port p.val = { s.port p.val with repDue := true } ∧
        t.now = max s.now ((s.port p.val).lastLat + s.get (CHP_REFRESH.PERIOD p.val) - s.ftime p.val) ∧
        PartsKept [.clock, .cyc, .chp] s t
    else exec (.refreshDue p) s = .next s) ∧
  (∀ (s u : State) (p : Fin 64) (r : Chp), u = (if s.holdLike = true then s.dropLatches p.val else s) → r = u.port p.val →
    (u.chOn p.val = false ∨ u.mode = mRecovery → exec (.frameStart p) s = .next u) ∧
    (u.chOn p.val = true → u.mode ≠ mRecovery →
      (∀ (l : Latch) (rest : List Latch) (start cur image : Nat), r.frame = none → r.latches = l :: rest →
        start = u.latchStart p.val l →
        ¬(r.repDue = true ∧ u.chSends p.val = true ∧ max u.now r.gapEnd < start) →
        cur = (if r.fresh then r.pending else r.current) → image = cur % 2 ^ u.chPoints p.val →
        ∃ t f h, exec (.frameStart p) s = .next t ∧ t.now = max u.now start ∧ (t.port p.val).frame = some f ∧
          f.isNew = true ∧ f.seqno = (u.get (CHP_STAT.SEQ p.val) + 1) % 256 ∧
          f.claim = (if l.claim = 0 then u.eclaim else l.claim) ∧ f.act = some l.act ∧ f.judged = false ∧
          f.latAt = max (u.tickOf l.instant) (start + u.ftime p.val) ∧
          (t.port p.val).current = cur ∧ (t.port p.val).previous = r.current ∧ (t.port p.val).fresh = false ∧
          (t.port p.val).latches = rest ∧ (t.port p.val).repDue = r.repDue ∧
          t.get (CHP_STAT.SEQ p.val) = f.seqno ∧ t.get (CHP_STAT.STATE p.val) = cpFRAME ∧
          wbits h 47 40 = f.claim % 256 ∧ wbits h 39 32 = f.seqno ∧ wbits h 31 28 = 1 ∧
          wbits h 13 0 = u.get (CHP_CFG.PM1 p.val) % 2 ^ 14 ∧
          t.out = (if u.driversOn (p.val / 2) = true
            then .chainFrame p.val h image (frameCrc h image (u.chD p.val)) :: u.out else u.out) ∧
          PartsKept [.clock, .cyc, .chp, .out] u t) ∧
      (∀ image : Nat, r.frame = none → u.chSends p.val = true →
        (r.latches = [] ∧ (r.repDue = true ∨ r.takeover = true) ∨
          r.repDue = true ∧ ∃ l rest, r.latches = l :: rest ∧ max u.now r.gapEnd < u.latchStart p.val l) →
        image = r.current % 2 ^ u.chPoints p.val →
        ∃ t f h, exec (.frameStart p) s = .next t ∧ t.now = max u.now r.gapEnd ∧ (t.port p.val).frame = some f ∧
          f.isNew = false ∧ f.act = none ∧ f.claim = (if r.claim = 0 then u.eclaim else r.claim) ∧
          f.latAt = t.now + u.ftime p.val ∧ (t.port p.val).current = r.current ∧
          (t.port p.val).previous = r.current ∧ (t.port p.val).latches = r.latches ∧ (t.port p.val).repDue = false ∧
          t.get (CHP_STAT.SEQ p.val) = (u.get (CHP_STAT.SEQ p.val) + 1) % 256 ∧ wbits h 31 28 = 2 ∧
          t.out = (if u.driversOn (p.val / 2) = true
            then .chainFrame p.val h image (frameCrc h image (u.chD p.val)) :: u.out else u.out) ∧
          PartsKept [.clock, .cyc, .chp, .out] u t) ∧
      (r.frame = none → r.latches = [] → ¬((r.repDue = true ∨ r.takeover = true) ∧ u.chSends p.val = true) →
        exec (.frameStart p) s = .next u) ∧
      (∀ (f : ChFrame) (l : Latch) (rest : List Latch), r.frame = some f → r.latches = l :: rest → f.isNew = false →
        u.latchStart p.val l < f.latAt + u.latGap p.val →
        ∃ t, exec (.frameStart p) s = .next t ∧ t.now = max u.now (u.latchStart p.val l - u.latGap p.val) ∧
          t.port p.val = { r with
            frame := none, gapEnd := t.now + u.latGap p.val
            latFall := if f.sent then t.bayClock + u.get (CHP_TIMING.LATW p.val) else r.latFall } ∧
          t.get (CHP_ERR.ABORT p.val) = min (u.get (CHP_ERR.ABORT p.val) + 1) (2 ^ 12 - 1) ∧
          t.get (CHP_STAT.STATE p.val) = cpABORTING ∧
          t.out = (if f.sent = true ∧ u.driversOn (p.val / 2) = true then .chainLat p.val :: u.out else u.out) ∧
          PartsKept [.clock, .cyc, .chp, .out] u t) ∧
      ∀ f : ChFrame, r.frame = some f →
        (∀ l rest, r.latches = l :: rest → f.isNew = true ∨ f.latAt + u.latGap p.val ≤ u.latchStart p.val l) →
        exec (.frameStart p) s = .next u)) ∧
  ∀ (s : State) (p : Fin 64) (r : Chp), r = s.port p.val →
    (r.frame = none → exec (.frameEnd p) s = .next s) ∧
    ∀ (f : ChFrame) (late : Bool), r.frame = some f →
    late = (f.redrive && decide (s.get (CHP_VERIFY.BUDGET p.val) ≠ 0 ∧
      r.firstLat.getD f.latAt + s.get (CHP_VERIFY.BUDGET p.val) < f.latAt)) →
    ∃ t, exec (.frameEnd p) s = .next t ∧ t.now = max s.now f.latAt ∧
      t.port p.val = { r with
        frame := none, prev := if f.first then none else some f.seqno, lastLat := t.now
        gapEnd := t.now + s.latGap p.val, firstLat := some (r.firstLat.getD t.now)
        latFall := if f.sent then t.bayClock + s.get (CHP_TIMING.LATW p.val) else r.latFall
        repDue := r.repDue || f.redrive || (f.isNew && s.on (CHP_CFG.VERIFY p.val) && s.mode != mShadow) } ∧
      t.get (CHP_STAT.STATE p.val) = cpIDLE ∧
      t.out = (if f.sent = true ∧ s.driversOn (p.val / 2) = true then .chainLat p.val :: s.out else s.out) ∧
      t.get (CHP_ERR.DEADLINE p.val) =
        (if late then min (s.get (CHP_ERR.DEADLINE p.val) + 1) (2 ^ 12 - 1) else s.get (CHP_ERR.DEADLINE p.val)) ∧
      (late = false → t.flt = s.flt) ∧ (∀ a, f.act = some a → ∀ x ∈ t.seq.acts, x.id ≠ a) ∧
      PartsKept [.clock, .cyc, .chp, .out, .seq, .flt] s t

/-- READBACK_JUDGEMENT of a sent frame not judged yet runs the clock to the end of the readback and stores the
status. The fourth parity failure in a row brings CHN_NO_HEAD into cause; a good status decides
CHN_HEAD_SAFE and CHN_HEAD_FAULT. With a frame before it: with good parity, RESULT LATCHED, LSEQ that of the
frame before, and lane bits and CRC of PREVIOUS, VSEQ takes LSEQ and no counter moves; with good parity and
RESULT CLAIM, CLAIM counts; else MISMATCH counts, CHN_RB_MISMATCH is reported and the frame is a re-drive if
it carries the same image. HEAD_FRAME_DECISION of one frame: the head has returned, on RB, as many bits as
the frame has clocks of its status word with odd parity, lane LSEQ mod 4 of its image and the image CRC. A
frame of 40 + D clocks with the preamble, PM1 = S - 1, the right CRC and a claim not below the one held is
latched with its claim, SEQ and side, SAFE 0 and both timers running; else only that input's RESULT changes,
to the first check that fails; one of no clock changes nothing. Of two frames the one of the higher claim is
decided first, A on a tie. The two timeouts clear the claim, the second also sets SAFE. HEAD_POWER_UP gives
the state of R256. (07_chain_ports.md R239, R240, R241, R244, R245, R246, R247, R253, R254, R255, R256) -/
def Obligations.ReadbackIsJudgedAndHeadsDecide : Prop :=
  (∀ (s : State) (p : Fin 64) (r : Chp) (f : ChFrame) (sq : Nat) (st : BitVec 24) (lane : Nat) (crc : BitVec 16)
      (good : Bool), r = s.port p.val → r.frame = some f → f.judged = false → f.sent = true → sq = r.prev.getD 0 →
    good = statusParity st →
    ∃ t f', exec (.readbackJudgement p st lane crc) s = .next t ∧ t.now = max s.now f.judgeAt ∧
      t.get (CHP_RBSTAT.STATUS p.val) = st.toNat ∧ (t.port p.val).frame = some f' ∧ f'.judged = true ∧
      (t.port p.val).current = r.current ∧ (t.port p.val).previous = r.previous ∧
      (if r.prev = none
        then t.get (CHP_STAT.VSEQ p.val) = s.get (CHP_STAT.VSEQ p.val) ∧ f'.redrive = false ∧
          t.get (CHP_ERR.MISMATCH p.val) = s.get (CHP_ERR.MISMATCH p.val) ∧
          t.get (CHP_ERR.CLAIM p.val) = s.get (CHP_ERR.CLAIM p.val)
        else if good = true ∧ bits st.toNat 5 3 = 0 ∧ bits st.toNat 15 8 = sq ∧
          lane = laneOf r.previous (s.chD p.val) (sq % 4) ∧ crc = imageCrc r.previous (s.chD p.val)
        then t.get (CHP_STAT.VSEQ p.val) = sq ∧ f'.redrive = false ∧ (t.port p.val).takeover = false ∧
          t.get (CHP_ERR.MISMATCH p.val) = s.get (CHP_ERR.MISMATCH p.val) ∧
          t.get (CHP_ERR.CLAIM p.val) = s.get (CHP_ERR.CLAIM p.val)
        else if good = true ∧ bits st.toNat 5 3 = 2
        then t.get (CHP_ERR.CLAIM p.val) = min (s.get (CHP_ERR.CLAIM p.val) + 1) (2 ^ 12 - 1) ∧ f'.redrive = false ∧
          t.get (CHP_STAT.VSEQ p.val) = s.get (CHP_STAT.VSEQ p.val)
        else t.get (CHP_ERR.MISMATCH p.val) = min (s.get (CHP_ERR.MISMATCH p.val) + 1) (2 ^ 12 - 1) ∧
          (f'.redrive = true ↔ r.current = r.previous) ∧
          (∃ x ∈ t.flt.reports, x.kind = Kind.CHN_RB_MISMATCH ∧ x.addr = chnAddr p.val sq) ∧
          t.get (CHP_STAT.VSEQ p.val) = s.get (CHP_STAT.VSEQ p.val)) ∧
      (t.port p.val).parity = (if good then 0 else r.parity + 1) ∧
      ((∃ c ∈ t.flt.causes, c.kind = Kind.CHN_NO_HEAD ∧ c.addr % 64 = p.val) ↔ 4 ≤ (t.port p.val).parity) ∧
      (good = true → ((∃ c ∈ t.flt.causes, c.kind = Kind.CHN_HEAD_SAFE ∧ c.addr % 64 = p.val) ↔ st.getLsbD 7 = true) ∧
        ((∃ c ∈ t.flt.causes, c.kind = Kind.CHN_HEAD_FAULT ∧ c.addr % 64 = p.val) ↔ bits st.toNat 2 1 ≠ 0)) ∧
      PartsKept [.clock, .cyc, .chp, .flt] s t) ∧
  (∀ (s : State) (h : Fin 64) (x : Head) (side : Bool) (f : HeadFrame) (d res : Nat), s.head h.val = some x →
    d = ceilDiv x.size 4 →
    res = (if f.clocks ≠ 40 + d then 5 else if f.preamble ≠ 0xA5C35A3C96F0 then 4
      else if wbits f.header 13 0 ≠ x.size - 1 then 3 else if f.crc ≠ frameCrc f.header f.points d then 1
      else if wbits f.header 47 40 < x.claim then 2 else 0) →
    ∃ t y, exec (if side then .headFrameDecision h none (some f) else .headFrameDecision h (some f) none) s = .next t ∧
      t.head h.val = some y ∧
      (x.claim < 256 → x.lseq < 256 → x.resultA < 8 → x.resultB < 8 →
        ∃ st : BitVec 24, statusParity st = true ∧ bits st.toNat 23 16 = x.claim ∧ bits st.toNat 15 8 = x.lseq ∧
          st.getLsbD 7 = x.safe ∧ st.getLsbD 6 = x.sideB ∧
          bits st.toNat 5 3 = (if side then x.resultB else x.resultA) ∧ bits st.toNat 2 1 = f.health.toNat ∧
          t.out = .rb h.val side (((List.range 24).map (fun i => st.getLsbD (23 - i)) ++
            (List.range d).map (fun c => x.image.testBit (4 * c + x.lseq % 4)) ++
            (List.range 16).map (fun i => x.crc.getLsbD (15 - i))).take f.clocks) :: s.out) ∧
      (if f.clocks = 0 then y = x
        else if side then y.resultB = res ∧ y.resultA = x.resultA else y.resultA = res ∧ y.resultB = x.resultB) ∧
      (f.clocks ≠ 0 → y.health = f.health.toNat ∧
        if res = 0
        then y.claim = wbits f.header 47 40 ∧ y.lseq = wbits f.header 39 32 ∧ y.sideB = side ∧ y.safe = false ∧
          y.image = f.points % 2 ^ x.size ∧ y.crc = imageCrc f.points d ∧ y.chtRuns = true ∧ y.tsRuns = true ∧
          y.size = x.size
        else { y with resultA := 0, resultB := 0, health := 0 } = { x with resultA := 0, resultB := 0, health := 0 }) ∧
      (∀ j, j ≠ h.val → t.head j = s.head j) ∧ Frame [.heads, .out] [] s t) ∧
  (∀ (s : State) (h : Fin 64) (x : Head) (f g : HeadFrame) (c d : Instr), s.head h.val = some x →
    (if wbits f.header 47 40 < wbits g.header 47 40
      then c = .headFrameDecision h none (some g) ∧ d = .headFrameDecision h (some f) none
      else c = .headFrameDecision h (some f) none ∧ d = .headFrameDecision h none (some g)) →
    ∃ t u v, exec (.headFrameDecision h (some f) (some g)) s = .next t ∧ exec c s = .next u ∧ exec d u = .next v ∧
      t.head h.val = v.head h.val ∧ (∀ j, j ≠ h.val → t.head j = s.head j) ∧ Frame [.heads, .out] [] s t) ∧
  (∀ (s : State) (h : Fin 64) (x y : Head) (c : Instr), s.head h.val = some x →
    (c = .claimHoldExpiry h ∧ x.chtRuns = true ∧ y = { x with claim := 0, chtRuns := false }) ∨
      (c = .safeTimeout h ∧ x.tsRuns = true ∧ y = { x with claim := 0, safe := true, tsRuns := false }) →
    ∃ t, exec c s = .next t ∧ t.head h.val = some y ∧ (∀ j, j ≠ h.val → t.head j = s.head j) ∧ Frame [.heads] [] s t) ∧
  ∀ (s : State) (h : Fin 64) (size : Nat), 0 < size → size ≤ 16384 →
    ∃ t y, exec (.headPowerUp h size) s = .next t ∧ t.head h.val = some y ∧ y.size = size ∧ y.claim = 0 ∧
      y.safe = true ∧ y.lseq = 0 ∧ y.resultA = 6 ∧ y.resultB = 6 ∧ y.image = 0 ∧
      y.crc = imageCrc 0 (ceilDiv size 4) ∧ (∀ j, j ≠ h.val → t.head j = s.head j) ∧ Frame [.heads] [] s t

/-- MB_MODE_WRITE with a legal WAKESRC notes the new mode, or reports MB_CONFIG where it would sleep without G1
or start with a bit timing out of limits. MB_MODE_APPLY, with no frame of the controller on the bus, ends
the waits for an idle bus and puts the noted mode in effect; OFF ends a bus-off with counters 0. FMASK_WRITE
commits FID and FMASK to the selected object, ends its lock, which makes LOST 1 where a frame was dropped,
and moves OBJ on. MB_FRAME_RECEIVED at a controller that takes part, of a form that it receives, is
acknowledged outside Shadow: a frame that no object accepts counts in NOMATCH; the lowest object that
accepts it, if locked, drops it with MB_LOST; else the sixteen words go to its channel, where that is bound
to it, with NEW 1 and LOST where NEW was or stayed set, and RX counts, or wait with a lookup that must wait;
REC below 128 counts down but in RESTRICTED. MB_LOCK_TIMEOUT runs the clock to the limit, ends the lock and
reports. MB_WAKE of a sleeping controller by a source it watches puts it in NORMAL and reports.
(08_message_bus.md R261, R262, R264, R265, R268, R269, R270, R271, R272, R273, R277, R280) -/
def Obligations.BusControllersReceiveAndChangeMode : Prop :=
  (∀ (s : State) (c : Fin 16) (v : Word) (bad : Bool), wbits v 3 2 ≠ 3 →
    bad = ((wbits v 1 0 == mbSLEEP && !s.on (MB_CFG.G1 c.val)) ||
      (s.get (MB_CTL.MODE c.val) == mbOFF && wbits v 1 0 != mbOFF && !s.mbTimingOk c.val)) →
    ∃ t, exec (.mbModeWrite c v) s = .next t ∧ t.get (MB_CTL.WAKESRC c.val) = wbits v 3 2 ∧
      if bad then t.flt = (s.raise Kind.MB_CONFIG c.val).flt ∧ Frame [.flt] [MB_CTL.WAKESRC c.val] s t
      else t.mbus c.val = { s.mbus c.val with newMode := some (wbits v 1 0) } ∧
        (∀ j, j ≠ c.val → t.mbus j = s.mbus j) ∧ Frame [.mb] [MB_CTL.WAKESRC c.val] s t) ∧
  (∀ (s : State) (c : Fin 16),
    ((s.mbus c.val).onBus ≠ none → exec (.mbModeApply c) s = .next s) ∧
    ((s.mbus c.val).onBus = none → (s.mbus c.val).newMode = none → ∃ t, exec (.mbModeApply c) s = .next t ∧
      (t.mbus c.val).busy = false ∧ (t.mbus c.val).integ = false ∧ Frame [.mb, .out] [] s t) ∧
    ∀ m, (s.mbus c.val).onBus = none → (s.mbus c.val).newMode = some m → m < 4 →
      ∃ t, exec (.mbModeApply c) s = .next t ∧ t.get (MB_CTL.MODE c.val) = m ∧ (t.mbus c.val).newMode = none ∧
        (t.mbus c.val).busy = false ∧ (t.mbus c.val).integ = false ∧ (m = mbOFF → (t.mbus c.val).onBus = none) ∧
        (m = mbOFF → s.get (MB_ERR.STATE c.val) = mbBusOff → t.get (MB_ERR.STATE c.val) = mbErrActive ∧
          t.get (MB_ERR.TEC c.val) = 0 ∧ t.get (MB_ERR.REC c.val) = 0 ∧ t.inCause Kind.MB_BUSOFF c.val = false) ∧
        PartsKept [.mb, .flt, .out] s t) ∧
  (∀ (s : State) (c : Fin 16) (v : Word) (o : Nat), o = s.get (MB_FSEL.OBJ c.val) →
    ∃ t, exec (.fmaskWrite c v) s = .next t ∧ (t.mbObj c.val o).fmask = v.toNat ∧
      (t.mbObj c.val o).fid = s.get (MB_FID.EN c.val) % 2 * 2 ^ 47 + s.get (MB_FID.IDE c.val) % 2 * 2 ^ 46 +
        s.get (MB_FID.RTR c.val) % 2 * 2 ^ 45 + s.get (MB_FID.TUN c.val) % 2 * 2 ^ 44 + s.get (MB_FID.ID c.val) % 2 ^ 29 ∧
      (t.mbObj c.val o).locked = none ∧ (t.mbObj c.val o).isNew = (s.mbObj c.val o).isNew ∧
      (t.mbObj c.val o).lost = ((s.mbObj c.val o).lost || (s.mbObj c.val o).dropped) ∧
      (∀ j, j ≠ o → t.mbObj c.val j = s.mbObj c.val j) ∧ t.get (MB_FSEL.OBJ c.val) = (o + 1) % 512 ∧
      ((s.mbObj c.val o).dropped = false → Frame [.mb] [MB_FMASK.CH c.val, MB_FMASK.MIDE c.val, MB_FMASK.MRTR c.val,
        MB_FMASK.MASK c.val, MB_FSEL.OBJ c.val] s t) ∧ PartsKept [.free, .mb, .tbl, .ddr, .host, .flt, .mgt] s t) ∧
  (∀ (s : State) (c : Fin 16) (f : BusFrame) (ago : Nat), (Instr.mbFrameReceived c (.mk f ago)).wf = true →
    s.mbTakesPart c.val = true → (f.fdf = true → s.on (MB_CFG.FDEN c.val) = true ∧ f.rtr = false) →
    ∃ t sent, exec (.mbFrameReceived c (.mk f ago)) s = .next t ∧
      t.out = sent ++ (if s.mode = mShadow then s.out else .busAck c.val :: s.out) ∧
      (s.get (MB_ERR.REC c.val) < 128 → t.get (MB_ERR.REC c.val) =
        if s.mbMode c.val = mbRESTRICTED then s.get (MB_ERR.REC c.val) else s.get (MB_ERR.REC c.val) - 1) ∧
      PartsKept [.free, .mb, .tbl, .ddr, .host, .flt, .mgt, .out] s t ∧
      match s.mbMatch c.val f with
      | none => t.get (MB_CNT.NOMATCH c.val) = min (s.get (MB_CNT.NOMATCH c.val) + 1) (2 ^ 16 - 1) ∧
          (∀ o, t.mbObj c.val o = s.mbObj c.val o) ∧ t.tbl = s.tbl
      | some o => if (s.mbObj c.val o).locked.isSome
        then t.mbObj c.val o = { s.mbObj c.val o with dropped := true } ∧
          t.get (MB_CNT.DROP c.val) = min (s.get (MB_CNT.DROP c.val) + 1) (2 ^ 16 - 1) ∧
          (∃ r ∈ t.flt.reports, r.kind = Kind.MB_LOST ∧ r.addr = o * 16 + c.val) ∧ t.tbl = s.tbl
        else ∀ (ch : Nat) (ws : List Word) (lost : Bool), ch = (s.mbObj c.val o).fmask / 2 ^ 32 % 2 ^ 16 →
          ws = s.objectWords f ago → lost = ((s.mbObj c.val o).lost || (s.mbObj c.val o).isNew) →
          (s.lookup ch = none → t.tbl = { s.tbl with blocked := s.tbl.blocked ++ [.frame c.val o ws] }) ∧
          ∀ (v : State) (e : Entry), s.lookup ch = some (v, e) →
            e.valid = true → e.type = tMBUS → e.port = c.val → e.index = o →
            t.mbObj c.val o = { s.mbObj c.val o with
              isNew := true, lost := lost, last := 2 + ceilDiv (dlcLength f.fdf f.dlc.toNat) 6 } ∧
            t.get (MB_CNT.RX c.val) = min (s.get (MB_CNT.RX c.val) + 1) (2 ^ 16 - 1) ∧
            t.tbl = (v.putChan 18 0 ch e 0
              (word (2 ^ 47 + lost.toNat * 2 ^ 46 + (ws.getD 0 0).toNat % 2 ^ 46) :: ws.tail)).tbl) ∧
  (∀ (s : State) (c : Fin 16) (o : Fin 512) (x : MbObj) (t0 : Nat), x = s.mbObj c.val o.val → x.locked = some t0 →
    s.get (MB_CFG.LOCKTO c.val) ≠ 0 →
    ∃ t, exec (.mbLockTimeout c o) s = .next t ∧ t.now = max s.now (t0 + s.get (MB_CFG.LOCKTO c.val)) ∧
      t.mbObj c.val o.val = { x with locked := none, lost := x.lost || x.dropped, dropped := false } ∧
      (∃ r ∈ t.flt.reports, r.kind = Kind.MB_LOCK_TIMEOUT ∧ r.addr = o.val * 16 + c.val) ∧
      PartsKept [.clock, .cyc, .free, .mb, .tbl, .ddr, .host, .flt, .mgt] s t) ∧
  ∀ (s : State) (c : Fin 16) (src : WakeSource), s.mbMode c.val = mbSLEEP →
    (match src with
      | .dominant n => 40 ≤ n ∧ s.get (MB_CTL.WAKESRC c.val) ≠ 1
      | .frame f _ => (s.mbObj c.val (s.get (MB_CFG.WAKEOBJ c.val))).accepts f = true ∧ s.get (MB_CTL.WAKESRC c.val) ≠ 0 ∧
          (f.fdf = true → s.on (MB_CFG.FDEN c.val) = true ∧ f.rtr = false)
      | .txRequest => s.get (MB_TXSTAT.PEND c.val) ≠ 0 ∨ (s.mbus c.val).tunQ ≠ []) →
    ∃ t, exec (.mbWake c src) s = .next t ∧ t.get (MB_CTL.MODE c.val) = mbNORMAL ∧
      (∃ r ∈ t.flt.reports, r.kind = Kind.MB_WAKE ∧ r.addr = c.val) ∧
      PartsKept [.free, .mb, .tbl, .ddr, .host, .flt, .mgt, .out] s t

/-- TXREQ_WRITE outside Hold makes exactly the named buffers pending as well; then, on a free bus of a
controller that sends, the offer of the least arbitration field goes on the bus. In Hold the request of a
buffer ends with RESULT 3. TXCAN_WRITE of a pending buffer not on the bus ends it with RESULT 3; on the bus
it is marked. TRANSMISSION_END of a buffer's frame: sent ends its request with RESULT 1, or 2 where it was
cancelled; else a cancelled one, or any in Hold, ends with 3, in RESTRICTED an error ends it with 4 and a
collision with 5, ONESHOT ends it with 4, newer contents end it with 3, another stays pending; the result
goes to the channel that loaded the frame, a newer request stays pending. MB_BUS_ERR counts TEC and REC as
ISO 11898-1 has them, but in RESTRICTED, which waits for integration; above 255 the controller is bus-off,
above 127 passive; a collision shows its buffer and position. MB_RECOVERED ends bus-off with counters 0, no
sooner than 128 times 11 bits. (08_message_bus.md R264, R265, R266, R274, R275, R276, R277, R278, R279) -/
def Obligations.BusControllersSendAndConfineErrors : Prop :=
  (∀ (s : State) (c : Fin 16) (v : Word), s.mode ≠ mHold →
    ∃ t, exec (.txreqWrite c v) s = .next t ∧
      (∀ b, b < 32 → t.bit (MB_TXSTAT.PEND c.val) b = (s.bit (MB_TXSTAT.PEND c.val) b || v.getLsbD b)) ∧
      ((s.mbus c.val).onBus = none → s.mbSends c.val = true → t.mbOffers c.val ≠ [] →
        ∃ x ∈ t.mbOffers c.val, (∀ y ∈ t.mbOffers c.val, x.1 ≤ y.1) ∧
          (t.mbus c.val).onBus.map (fun m => (m.src, m.words)) = some x.2 ∧
          t.out = .bus c.val (frameOf x.2.2 (s.get (MB_ERR.STATE c.val) == mbErrPassive)) :: s.out) ∧
      ((s.mbus c.val).onBus ≠ none ∨ s.mbSends c.val = false →
        (t.mbus c.val).onBus = (s.mbus c.val).onBus ∧ t.out = s.out) ∧
      Frame [.mb, .out] [MB_TXSTAT.PEND c.val] s t) ∧
  (∀ (s : State) (c : Fin 16) (v : Word) (b : Nat), b < 32 → v.toNat % 2 ^ 32 = 2 ^ b →
    (s.mode = mHold → exec (.txreqWrite c v) s = .next (s.endWaiting c.val b)) ∧
    (s.bit (MB_TXSTAT.PEND c.val) b = true →
      if (s.mbus c.val).onBus.map MbSend.src = some (.buf b)
      then ∃ t, exec (.txcanWrite c v) s = .next t ∧
        t.mbBuf c.val b = { s.mbBuf c.val b with cancel := true, again := false } ∧ Frame [.mb] [] s t
      else exec (.txcanWrite c v) s = .next (s.endWaiting c.val b)) ∧
    (s.bit (MB_TXSTAT.PEND c.val) b = false → exec (.txcanWrite c v) s = .next s)) ∧
  (∀ (s : State) (c : Fin 16) (r : TxEnd) (b : Nat) (m : MbSend) (x : MbBuf) (res : Option Nat) (code : Nat),
    (s.mbus c.val).onBus = some m → m.src = .buf b → b < 32 → x = s.mbBuf c.val b →
    code = (match r with | .lostArbitration => 0 | .collision _ => 5 | _ => 4) →
    res = (if r = .sent then some (if x.cancel then 2 else 1)
      else if x.cancel ∨ s.mode = mHold then some 3
      else if s.mbMode c.val = mbRESTRICTED ∧ code ≠ 0 then some code
      else if (m.words.getD 0 0).getLsbD 46 then some 4 else if x.again then some 3 else none) →
    ∃ t, exec (.transmissionEnd c r) s = .next t ∧
      t.bit (MB_TXSTAT.PEND c.val) b = (if res = none then s.bit (MB_TXSTAT.PEND c.val) b else x.again) ∧
      (match res, m.chan with
        | some k, some ch => t.tbl =
            (if k ≤ 2 then s.resultAt c.val b ch k m.gen m.ticks else s.resultAt c.val b ch k 0 0).tbl
        | _, _ => t.tbl = s.tbl) ∧
      (r = .sent → s.mbMode c.val ≠ mbRESTRICTED → s.get (MB_ERR.TEC c.val) < 512 →
        t.get (MB_ERR.TEC c.val) = s.get (MB_ERR.TEC c.val) - 1) ∧
      PartsKept [.free, .mb, .tbl, .ddr, .host, .flt, .mgt, .out] s t) ∧
  (∀ (s : State) (c : Fin 16) (err : BusError) (tec rec : Nat), s.mbTakesPart c.val = true →
    ((s.mbus c.val).onBus ≠ none ∨ err = .receiving ∨ err = .dominantAfterFlag true ∨ err = .dominantAfterFlag false) →
    tec = s.get (MB_ERR.TEC c.val) + (match err with
      | .collision _ => 8 | .transmitting => 8 | .noAck => if s.get (MB_ERR.STATE c.val) = mbErrPassive then 0 else 8
      | .arbitrationStuff => 0 | .receiving => 0 | .dominantAfterFlag own => if own then 8 else 0) →
    rec = s.get (MB_ERR.REC c.val) + (match err with
      | .receiving => 1 | .dominantAfterFlag own => if own then 0 else 8 | _ => 0) →
    ∃ t, exec (.mbBusErr c err) s = .next t ∧
      (∀ pos, err = .collision pos → t.get (MB_COLL.POS c.val) = pos.toNat ∧
        ∀ m b, (s.mbus c.val).onBus = some m → m.src = .buf b → b < 32 → t.get (MB_COLL.BUF c.val) = b) ∧
      (∃ r ∈ t.flt.reports, r.kind = (match err with | .collision _ => Kind.ID_COLLISION | _ => Kind.MB_BUS_ERR)) ∧
      (if s.mbMode c.val = mbRESTRICTED
        then t.get (MB_ERR.TEC c.val) = s.get (MB_ERR.TEC c.val) ∧ t.get (MB_ERR.REC c.val) = s.get (MB_ERR.REC c.val) ∧
          t.get (MB_ERR.STATE c.val) = s.get (MB_ERR.STATE c.val) ∧ (t.mbus c.val).integ = true
        else t.get (MB_ERR.TEC c.val) = min tec 511 ∧ t.get (MB_ERR.REC c.val) = min rec 255 ∧
          t.get (MB_ERR.STATE c.val) = (if 255 < tec then mbBusOff
            else if (127 < tec ∨ 127 < rec) ∧ s.get (MB_ERR.STATE c.val) = mbErrActive then mbErrPassive
            else s.get (MB_ERR.STATE c.val)) ∧
          (255 < tec → t.inCause Kind.MB_BUSOFF c.val = true)) ∧
      PartsKept [.free, .mb, .tbl, .ddr, .host, .flt, .mgt, .out] s t) ∧
  ∀ (s : State) (c : Fin 16), s.get (MB_ERR.STATE c.val) = mbBusOff →
    ∃ t, exec (.mbRecovered c) s = .next t ∧
      t.now = max s.now ((s.mbus c.val).offAt + mbTicks (128 * 11 * s.mbBit c.val)) ∧
      t.get (MB_ERR.STATE c.val) = mbErrActive ∧
      t.get (MB_ERR.TEC c.val) = 0 ∧ t.get (MB_ERR.REC c.val) = 0 ∧ t.inCause Kind.MB_BUSOFF c.val = false ∧
      (∃ r ∈ t.flt.reports, r.kind = Kind.MB_RECOVERED ∧ r.addr = c.val) ∧
      PartsKept [.clock, .cyc, .mb, .flt, .out] s t

/-- CODEWORD_RECEIVED on an enabled port outside Recovery shows the eye, and the lane sends a lane word with the
next CSEQ, its position and its state. An uncorrectable one counts and takes its place in CSEQ, and the
eighth in a row takes the lane down; short of that a LOCKED lane with too small an eye or too many
corrections is DEGRADED, and no other changes its state. A good one, block i's side bit being bit 19 - i of
its lane word, counts its corrections, and the fourth with continuous CSEQ locks a lane, ending its
LANE_DOWN and TRAIN_FAIL. LANE_DOWN of a locked lane brings LANE_DOWN into cause, ends LANE_DEGRADED, and if
it is the lane whose position is copied to the spare, the swap is done at once. TRAIN_FAIL of an unlocked
lane past TRAINTO comes into cause once. LANE_SWAP_GO while idle requests the swap; COPY_LOCKED of a copied
spare moves it on; LANE_SWAP_FAIL past TRAINTO, LANE_SWAP_CANCEL before the swap and LANE_SWAP_BACK after it
act as R300 says. KEY_EXCHANGE_RECEIVED on a port to be sealed records node and nonce, and the key is due
where the own nonce is drawn. SEAL_FAIL past TRAINTO of an unsealed port comes into cause once.
(09_ring_links.md R289, R290, R291, R294, R295, R297, R298, R299, R300, R306, R308, R311) -/
def Obligations.RingLanesLockFailAndSwap : Prop :=
  (∀ (s : State) (p : Fin 4) (l : Fin 9) (eye : BitVec 8) (x : RLane) (g : Field), x = s.rlane p.val l.val →
    g = RINGP_LANE.STATE p.val l.val → s.on (RINGP_CTL.EN p.val) = true → s.mode ≠ mRecovery →
    (∀ w : Codeword, ∃ t lw rest, exec (.codewordReceived p l w eye) s = .next t ∧
      t.get (RINGP_LANE.EYE p.val l.val) = eye.toNat ∧ t.out = .laneWord p.val l.val lw :: rest ∧
      (x.tx < 33 → bits lw.toNat 19 14 = x.tx ∧ (t.rlane p.val l.val).tx = (x.tx + 1) % 33) ∧
      bits lw.toNat 13 10 = (if l = 8 then (t.rport p.val).dup.getD 8 else l.val) % 16 ∧
      bits lw.toNat 9 8 = (if l = 8 ∧ (t.rport p.val).dup ≠ none then 3 else if t.locked p.val l.val = false then 0
        else if s.mode = mCommission ∨ s.mode = mJoin then 1 else 2)) ∧
    (∃ t, exec (.codewordReceived p l .uncorrectable eye) s = .next t ∧
      t.get (RINGP_LANE.UNCORR p.val l.val) = min (s.get (RINGP_LANE.UNCORR p.val l.val) + 1) 255 ∧
      if x.badRun = 7 then t.locked p.val l.val = false
      else t.rlane p.val l.val = { x with
          badRun := x.badRun + 1, good := 0, hist := [], cseq := x.cseq.map (fun c => (c + 1) % 33)
          bad := (match x.cseq with
            | some c => (c + 1) % 33 :: x.bad.filter (fun y => y != (c + 1) % 33)
            | none => x.bad)
          tx := (x.tx + 1) % 33 } ∧
        if s.get g = 1 ∧ (eye.toNat < s.get (RINGP_MARGIN.EYEMIN p.val) ∨ s.get (RINGP_MARGIN.FECMAX p.val) < x.fec)
        then t.get g = 2 ∧ t.inCause Kind.LANE_DEGRADED (l.val * 16 + p.val) = true else t.get g = s.get g) ∧
    ∀ (n c : Nat) (side lw : BitVec 20), (∀ i, i < 20 → lw.getLsbD (19 - i) = side.getLsbD i) → c < 33 →
      bits lw.toNat 19 14 = (c + 1) % 33 → x.cseq = some c → 3 ≤ x.good →
      ∃ t, exec (.codewordReceived p l (.good n side) eye) s = .next t ∧ t.locked p.val l.val = true ∧
        t.get (RINGP_LANE.FECCORR p.val l.val) = min (s.get (RINGP_LANE.FECCORR p.val l.val) + n) (2 ^ 24 - 1) ∧
        (s.locked p.val l.val = false → t.inCause Kind.LANE_DOWN (l.val * 16 + p.val) = false ∧
          t.inCause Kind.TRAIN_FAIL (l.val * 16 + p.val) = false) ∧
        (t.rlane p.val l.val).cseq = some ((c + 1) % 33) ∧ (t.rlane p.val l.val).badRun = 0 ∧
        (t.rlane p.val l.val).fec = x.fec + n) ∧
  (∀ (s : State) (p : Fin 4) (l : Fin 9), s.locked p.val l.val = true →
    ∃ t, exec (.laneDown p l) s = .next t ∧ t.locked p.val l.val = false ∧
      t.rlane p.val l.val = { RLane.reset with fec := (s.rlane p.val l.val).fec, tx := (s.rlane p.val l.val).tx } ∧
      t.inCause Kind.LANE_DOWN (l.val * 16 + p.val) = true ∧
      t.inCause Kind.LANE_DEGRADED (l.val * 16 + p.val) = false ∧
      (s.get (RINGP_SWAP.STATE p.val) = 2 → (s.rport p.val).swapPos < 8 →
        s.laneOf p.val (s.rport p.val).swapPos = l.val →
        t.laneOf p.val (s.rport p.val).swapPos = 8 ∧ t.get (RINGP_SWAP.STATE p.val) = 3 ∧
          t.get (RINGP_SWAP.RESULT p.val) = 1 ∧
          ∃ r ∈ t.flt.reports, r.kind = Kind.LANE_SWAP ∧ r.addr = (s.rport p.val).swapPos * 16 + p.val)) ∧
  (∀ (s : State) (p : Fin 4) (l : Fin 9) (r : RPort), r = s.rport p.val → s.on (RINGP_CTL.EN p.val) = true →
    s.locked p.val l.val = false → l.val ∉ r.failed → Tab.get 0 r.trainAt l.val + s.get RING_CFG.TRAINTO ≤ s.cyc.ncyc →
    ∃ t, exec (.trainFail p l) s = .next t ∧ t.rport p.val = { r with failed := l.val :: r.failed } ∧
      t.inCause Kind.TRAIN_FAIL (l.val * 16 + p.val) = true ∧ (∀ j, j ≠ p.val → t.rport j = s.rport j) ∧
      Frame [.ring, .flt] [] s t) ∧
  (∀ (s : State) (p : Fin 4) (q : Fin 8), ∃ t, exec (.laneSwapGo p q) s = .next t ∧
    t.get (RINGP_SWAP.POS p.val) = q.val ∧
    if s.get (RINGP_SWAP.STATE p.val) = 0
    then t.get (RINGP_SWAP.STATE p.val) = 1 ∧ t.get (RINGP_SWAP.RESULT p.val) = 0 ∧
      t.rport p.val = { s.rport p.val with swapPos := q.val, swapAt := s.cyc.ncyc, backDue := false } ∧
      Frame [.ring] [RINGP_SWAP.POS p.val, RINGP_SWAP.STATE p.val, RINGP_SWAP.RESULT p.val] s t
    else Frame [] [RINGP_SWAP.POS p.val] s t) ∧
  (∀ (s : State) (p : Fin 4), s.get (RINGP_SWAP.STATE p.val) = 1 →
    (∀ f : Nat, s.locked p.val 8 = true → (s.rlane p.val 8).acted = some f → lwPos f = (s.rport p.val).swapPos →
      lwState f = 3 → ∃ t, exec (.copyLocked p) s = .next t ∧ t.get (RINGP_SWAP.STATE p.val) = 2 ∧
        Frame [] [RINGP_SWAP.STATE p.val] s t) ∧
    ((s.rport p.val).swapAt + s.get RING_CFG.TRAINTO ≤ s.cyc.ncyc →
      ∃ t, exec (.laneSwapFail p) s = .next t ∧ t.get (RINGP_SWAP.STATE p.val) = 0 ∧
        t.get (RINGP_SWAP.RESULT p.val) = 2 ∧
        t.flt = (s.raise Kind.LANE_SWAP_FAIL ((s.rport p.val).swapPos * 16 + p.val)).flt ∧
        Frame [.flt] [RINGP_SWAP.STATE p.val, RINGP_SWAP.RESULT p.val] s t)) ∧
  (∀ (s : State) (p : Fin 4),
    (s.get (RINGP_SWAP.STATE p.val) = 1 ∨ s.get (RINGP_SWAP.STATE p.val) = 2 →
      ∃ t, exec (.laneSwapCancel p) s = .next t ∧ t.get (RINGP_SWAP.STATE p.val) = 0 ∧
        Frame [] [RINGP_SWAP.STATE p.val] s t) ∧
    (s.get (RINGP_SWAP.STATE p.val) = 3 → ∃ t, exec (.laneSwapBack p) s = .next t ∧
      if s.get (RINGP_LANE.STATE p.val (s.rport p.val).swapPos) = 1
      then t.rport p.val = { s.rport p.val with backDue := true } ∧ Frame [.ring] [] s t
      else t.get (RINGP_SWAP.RESULT p.val) = 2 ∧
        t.flt = (s.raise Kind.LANE_SWAP_FAIL ((s.rport p.val).swapPos * 16 + p.val)).flt ∧
        Frame [.flt] [RINGP_SWAP.RESULT p.val] s t)) ∧
  (∀ (s : State) (p : Fin 4) (ws : List Word) (r : RPort) (peer : Nat × Nat), ws.length = 20 → r = s.rport p.val →
    s.on (RINGP_CTL.SEAL p.val) = true → wordAt ws 0 / 2 ^ 40 = 3 →
    peer = (wordAt ws 0 % 2 ^ 16, wordAt ws 1 * 2 ^ 48 + wordAt ws 2) → r.peer ≠ some peer →
    ∃ t, exec (.keyExchangeReceived p ws) s = .next t ∧
      t.rport p.val = { r with peer := some peer, keyDue := r.nonce.isSome } ∧ Frame [.ring] [] s t) ∧
  ∀ (s : State) (p : Fin 4) (r : RPort) (c : Nat), r = s.rport p.val → r.readyAt = some c →
    s.on (RINGP_CTL.SEAL p.val) = true → s.get (RINGP_STAT.SEALST p.val) = 1 → r.sealSaid = false →
    c + s.get RING_CFG.TRAINTO ≤ s.cyc.ncyc →
    ∃ t, exec (.sealFail p) s = .next t ∧ t.rport p.val = { r with sealSaid := true } ∧
      t.inCause Kind.SEAL_FAIL p.val = true ∧ Frame [.ring, .flt] [] s t

/-- BASIC_CYCLE_START of a cycle whose start is due takes no time, else the clock runs to the cycle's end and
CYC or MSEQ moves on; the cycle counts, its deviations, seen slots and correction begin anew, and it takes
min(SLEW, REMAIN) of the remaining slew. MATRIX_BOUNDARY where it is due is applied once: RATE moves by the
matrix's corrections within 0.0005 and its sum restarts; a pending substitution whose copy is complete is
armed; a steering announcement of this matrix becomes a slew below THRESH, else TICKS moves by the offset in
a new generation with EPOCH. CYC_CFG_WRITE in Commission with a legal value begins a new matrix at the next
tick; else CYC_CONFIG. ACTIVATION_WRITE in Commission and Join activates PENDING at once, locks the
guardian's node and shows the check word, or reports TABLE_BAD with the first bad row and leaves ACTIVE; in
other modes it waits. STEER_REQUEST of the steering sync hub announces for matrix MSEQ + 2; of another hub
it does nothing. (11_cycle_matrix.md R335, R336, R342, R344, R358, R359, R363, R364, R365, R371) -/
def Obligations.CycleStartsAndMatrixBoundaries : Prop :=
  (∀ (s : State), s.cyc.started ≠ some s.cycKey →
    ∃ t, exec .basicCycleStart s = .next t ∧ t.now = s.now ∧ t.cycKey = s.cycKey ∧
      t.cyc.started = some s.cycKey ∧ t.cyc.ncyc = s.cyc.ncyc + 1 ∧ t.cyc.startedAt = some s.now ∧
      t.cyc.devs = [] ∧ t.cyc.rxSlots = [] ∧ t.cyc.seenA = [] ∧ t.cyc.seenB = [] ∧ t.cyc.corrected = false ∧
      t.cyc.rtSlew = clampInt (s.get CYC_STEP.SLEW) (s.getInt CYC_STEERST.REMAIN) ∧
      t.cyc.rtWin = s.bc - s.cyc.offset) ∧
  (∀ (s : State), s.cyc.started = some s.cycKey → s.cyc.slew = 0 → s.cyc.slewWin = 0 → s.cyc.rtSlew = 0 →
    s.cyc.frac.natAbs < 256 → s.cyc.offset < s.bc → s.cycNow < s.matrixLen → s.matrixLen ≤ 64 →
    ∃ t, exec .basicCycleStart s = .next t ∧ t.now = s.now + (s.bc - s.cyc.offset) ∧ t.cyc.offset = 0 ∧
      t.cycNow = (s.cycNow + 1) % s.matrixLen ∧
      t.mseq = (s.mseq + (if s.cycNow + 1 = s.matrixLen then 1 else 0)) % 2 ^ 32 ∧
      t.cyc.started = some t.cycKey ∧ t.cyc.ncyc = s.cyc.ncyc + 1 ∧ t.cyc.startedAt = some t.now ∧
      t.cyc.devs = [] ∧ t.cyc.corrected = false) ∧
  (∀ (s : State), s.cycNow = 0 → s.cyc.bnd ≠ some s.mseq → s.sstate ≠ ssLISTEN →
    ∃ t, exec .matrixBoundary s = .next t ∧ t.now = s.now ∧ t.cyc.bnd = some s.mseq ∧ t.cyc.csum = 0 ∧
      t.getInt CYC_OFFS.RATE = clampInt 2147484
        (s.getInt CYC_OFFS.RATE + rnd (s.cyc.csum * 2 ^ 32) (256 * s.matrixLen * s.bc : Nat)) ∧
      (∀ b, b < 32 → s.get (BAY_SWAP.STATE b) = 1 → ∀ w, (s.bayRec b).swap = some w → w.copied = true →
        t.get (BAY_SWAP.STATE b) = 2) ∧
      (∀ (x : Steer), s.cyc.steer = some x → s.cyc.labelDue = false →
        if x.apply = s.mseq then t.cyc.steer = none ∧
          if x.off.natAbs < s.get CYC_STEP.THRESH
          then t.get CYC_STEERST.REMAIN = (x.off.emod (2 ^ 40)).toNat ∧ t.ticks = s.ticks ∧ t.gen = s.gen
          else t.get CYC_STEERST.REMAIN = 0 ∧ t.ticks = shiftTicks s.ticks x.off ∧
            t.gen = (s.gen + 1) % 2 ^ 16 ∧ t.cyc.prevGen = some s.gen ∧ t.cyc.epochOff = x.off ∧
            ∃ r ∈ t.flt.reports, r.kind = Kind.EPOCH ∧ r.addr = t.gen
        else t.cyc.steer = some x ∧ t.ticks = s.ticks ∧ t.gen = s.gen)) ∧
  (∀ (s : State) (v : Word),
    if s.mode = mCommission ∧ cycCfgReserved v = false
    then ∃ t, exec (.cycCfgWrite v) s = .next t ∧ t.now = s.now + 1 ∧ t.get CYC_CFG.KERF = wbits v 39 32 ∧
      t.sslot = wbits v 30 24 ∧ t.get CYC_CFG.MEXP = wbits v 19 17 ∧ t.bc = wbits v 16 0 ∧
      t.mseq = (s.mseq + 1) % 2 ^ 32 ∧ t.cycNow = 0 ∧ t.cyc.offset = 0 ∧ t.get CYC_TCRC.TCRC = t.tableCrc ∧
      t.cyc.active = s.cyc.active ∧
      Frame [.clock, .cyc] [CYC_CFG.KERF, CYC_CFG.SSLOT, CYC_CFG.MEXP, CYC_CFG.BC, CYC_STAT.MSEQ, CYC_STAT.CYC,
        CYC_STEERST.REMAIN, CYC_TICKS.TICKS, CYC_TCRC.TCRC] s t
    else exec (.cycCfgWrite v) s = .next (s.raise Kind.CYC_CONFIG 0)) ∧
  (∀ (s : State) (v : Word), ∃ t, exec (.activationWrite v) s = .next t ∧ t.cyc.am = wbits v 31 0 ∧
    t.cyc.pend = s.cyc.pend ∧
    if s.mode = mCommission ∨ s.mode = mJoin
    then t.cyc.amPend = false ∧ match s.firstBad [] (validRows s.cyc.pend) with
      | some r => t.cyc.active = s.cyc.active ∧ t.cyc.grdNode = s.cyc.grdNode ∧
          t.flt = (s.raise Kind.TABLE_BAD r).flt ∧ Frame [.cyc, .flt] [] s t
      | none => t.cyc.active = s.cyc.pend ∧ t.cyc.grdNode = s.gslot ∧
          t.cyc.grdSlot = (if s.on CYC_CTL.SYNC then some (s.get CYC_CTL.SLOT) else none) ∧
          t.get CYC_TCRC.TCRC = t.tableCrc ∧ t.flt = (s.raise Kind.TABLE_SWAP (s.mseq % 2 ^ 16)).flt ∧
          Frame [.cyc, .flt] [CYC_TCRC.TCRC] s t
    else t.cyc.amPend = true ∧ t.cyc.active = s.cyc.active ∧ Frame [.cyc] [] s t) ∧
  ∀ (s : State) (v : Word),
    if s.on CYC_CTL.STEER = true ∧ s.on CYC_CTL.SYNC = true
    then ∃ t x, exec (.steerRequest v) s = .next t ∧ x.stseq = (s.get CYC_STEERST.STSEQ + 1) % 256 ∧
      x.off = v.toInt ∧ x.apply = (s.mseq + 2) % 2 ^ 32 ∧ t.cyc.mySteer = some x ∧ t.cyc.steer = some x ∧
      t.get CYC_STEERST.STSEQ = x.stseq ∧ { t.cyc with mySteer := s.cyc.mySteer, steer := s.cyc.steer } = s.cyc ∧
      Frame [.cyc] [CYC_STEERST.STSEQ] s t
    else exec (.steerRequest v) s = .next s

/-- TT_WINDOW of an own row whose start lies ahead, while cells may leave: the clock runs to START; the one cell
offered leaves as TT on SUB of AE and of BW where TT cells may, in the clear with its CRC or sealed with its
tag; one for an absent node leaves as ORPHAN with NODE_ABSENT; one for this hub is served here and never
enters the ring, a broadcast write is served here too; without a slot a cell is discarded with TT_COLLIDE; a
guardian whose node is not the row's owner lets nothing pass and trips on both ports. SYNC_CELL_RECEIVED:
its own cell ends at the sender, a wrapped one only goes on; a first copy records the deviation and the slot
and goes on with its link delay and residence time added to CORR; a second copy on one path is dropped by
policing; a listening hub in Join integrates on it, and so does one in COLDSTART in Join that backs off from
a lower node. OFFSET_CORRECTION runs the clock to the end of the window plus SPAN, shows the count and the
trimmed mean, and slews by its negative within 64 ticks; the second mean in a row beyond SYNCLIM loses
synchronisation. LINK_DELAY_RECEIVED answers a request with both times and takes half the difference of a
response. (11_cycle_matrix.md R341, R346, R352, R353, R354, R355, R356, R357, R358, R361, R367) -/
def Obligations.WindowsSyncCellsAndCorrections : Prop :=
  (∀ (s : State) (row : Fin 4096) (busy : BitVec 14) (c : Cell) (r : Row) (u : State),
    s.ownRows.find? (fun x => x.idx == row.val) = some r → s.cyc.offset ≤ r.start → s.cellsLeave = true →
    s.cyc.stopped = false → r.hb = false → r.src ≠ 27 → r.src ≠ 29 → c.words.length = 20 → 1 ≤ r.cells →
    c.kind ≠ kORPHAN → u = s.advance (r.start - s.cyc.offset) →
    (if c.kind = kBWRITE then r.dest = 0xFFFF else c.node.toNat = r.dest ∧ r.dest ≠ 0) →
    ∃ t, exec (.ttWindow row busy [c]) s = .next t ∧ t.now = s.now + (r.start - s.cyc.offset) ∧
      if s.cyc.grdNode ≠ r.owner
      then t.out = s.out ∧ t.bit CYC_GUARD.TRIP 0 = true ∧ t.bit CYC_GUARD.TRIP 3 = true ∧
        t.inCause Kind.GUARD_TRIP 0 = true ∧ t.inCause Kind.GUARD_TRIP 3 = true ∧
        Frame [.cyc, .flt] [CYC_GUARD.TRIP] u t
      else if u.cellHere c = true then t = u.deliverCell r.src { c with cls := cTT }
      else if r.cells + 1 ≤ busy.toNat
      then t.get CYC_TTCNT.COLLIDE = min (s.get CYC_TTCNT.COLLIDE + 1) (2 ^ 16 - 1) ∧
        t.flt = (u.raise Kind.TT_COLLIDE r.idx).flt ∧ Frame [.flt] [CYC_TTCNT.COLLIDE] u t
      else if c.kind = kBWRITE ∨ c.kind = kRESP ∨ c.kind = kLINK ∨ c.node = 0xFFFF#16 ∨ u.present c.node.toNat
      then ∃ v d, d = { c with cls := cTT } ∧ v = (u.sendTt r.sub d).sendTt (12 + r.sub) d ∧
        t = if c.kind = kBWRITE then v.deliverCell r.src d else v
      else ∃ d, d = { c with cls := cTT, kind := kORPHAN, node := BitVec.ofNat 16 u.node } ∧
        t = ((u.raise Kind.NODE_ABSENT (c.node.toNat * 2 ^ 16 + c.f1.toNat)).sendTt r.sub d).sendTt (12 + r.sub) d) ∧
  (∀ (s : State) (cp : Nat) (c : Cell), c.words.length = 20 →
    if s.ttOpen (cpPort cp) (cpSub cp) = true
    then ∃ d tag, (s.sendTt cp c).out = .ring cp d tag :: s.out ∧ Frame [.out, .free] [] s (s.sendTt cp c) ∧
      if s.sealKey (cpPort cp) true = none then d = c ∧ tag = cellCrc c ∧ Frame [.out] [] s (s.sendTt cp c)
      else (s.sendTt cp c).free = s.free + 1 ∧ ∀ key salt, s.sealKey (cpPort cp) true = some (key, salt) →
        ∃ iv, iv = sealIv salt (cpSub cp) (Config.txSlot s.free) ∧ d = cellOfBytes (aesCounter key iv (cellBytes c)) ∧
          tag = sealTag key iv (aesCounter key iv (cellBytes c))
    else s.sendTt cp c = s) ∧
  (∀ (s : State) (p k : Fin 4) (c : Cell) (arrival : BitVec 48), c.words.length = 20 →
    (c.f1.toNat = s.node → c.wrap.toNat ≠ 1 → exec (.syncCellReceived p k c arrival) s = .next s) ∧
    (c.wrap.toNat = 1 →
      exec (.syncCellReceived p k c arrival) s = .next (s.forwardSync p.val k.val c (syncOf c.words)))) ∧
  (∀ (s : State) (p k : Fin 4) (c : Cell) (arrival : BitVec 48) (x : SyncCell) (delay : Int),
    c.words.length = 20 → c.wrap.toNat ≠ 1 → c.f1.toNat ≠ s.node → x = syncOf c.words →
    delay = x.corr + s.get (CYC_LINKDLY.DELAY p.val) →
    if (if pathB p.val then s.cyc.seenB else s.cyc.seenA).contains x.slot = true
    then exec (.syncCellReceived p k c arrival) s = .next (s.police p.val k.val)
    else s.cyc.seenA.contains x.slot = false → s.cyc.seenB.contains x.slot = false →
      (s.sstate = ssCOLDSTART → s.mode = mJoin) →
      ∃ t, exec (.syncCellReceived p k c arrival) s = .next t ∧ t.now = s.now ∧
        (if pathB p.val then t.cyc.seenB = x.slot :: s.cyc.seenB ∧ t.cyc.seenA = s.cyc.seenA
          else t.cyc.seenA = x.slot :: s.cyc.seenA ∧ t.cyc.seenB = s.cyc.seenB) ∧
        (∀ (cp : Nat) (c2 : Cell),
          s.route (otherPort p.val) k.val
            { c with words := c.words.set 4 (BitVec.ofInt 48 (delay + Config.residence s.free)) } = .ok (cp, c2) →
          s.ttLink (cpPort cp) (cpSub cp) = true → s.sealKey (cpPort cp) true = none →
          t.out = .ring cp c2 (cellCrc c2) :: s.out ∧ t.free = s.free + 1) ∧
        if s.sstate = ssLISTEN ∨ (s.sstate = ssCOLDSTART ∧ x.cs = true ∧ x.node < s.node)
        then s.mode = mJoin → t.sstate = ssINTEGRATE ∧ t.gen = x.gen ∧
          t.ticks = shiftTicks (x.ticks + (-s.arrivedAt arrival / 256).toNat) (delay.tdiv 256) ∧ t.cyc.devs = [] ∧
          t.cyc.corrected = true ∧ t.cyc.bnd = some t.mseq ∧ t.cyc.started = some t.cycKey
        else t.cyc.devs = s.cyc.devs ++ [(x.slot, s.deviation x delay (s.arrivedAt arrival))] ∧
          t.cyc.rxSlots = x.slot :: s.cyc.rxSlots ∧ PartsKept [.free, .cyc, .flt, .out] s t) ∧
  (∀ (s u : State) (ds : List Int) (avg : Int), s.cyc.corrected = false → s.sstate ≠ ssLISTEN →
    u = s.advance (16 * s.sslot + s.span - s.cyc.offset) →
    ds = s.cyc.devs.map (fun d => d.2) ++ (if s.on CYC_CTL.SYNC then [0] else []) → ds ≠ [] → avg = trimmedMean ds →
    s.cyc.noSync = 0 →
    ∃ t, exec .offsetCorrection s = .next t ∧ t.now = s.now + (16 * s.sslot + s.span - s.cyc.offset) ∧
      t.cyc.corrected = true ∧ t.get CYC_STAT.NSYNC = ds.length % 32 ∧
      t.get CYC_OFFS.DEV = (avg.emod (2 ^ 24)).toNat ∧
      if avg.natAbs ≤ s.get CYC_LIMIT.SYNCLIM * 256
      then t.cyc.slew = u.cyc.slew + clampInt (64 * 256) (-avg) ∧ t.cyc.csum = s.cyc.csum + clampInt (64 * 256) (-avg) ∧
        t.cyc.slewWin = s.bc - s.kerf - u.cyc.offset ∧ t.cyc.overLim = 0 ∧
        (4 ≤ ds.length → Frame [.cyc] [CYC_STAT.NSYNC, CYC_OFFS.DEV] u t) ∧
        (ds.length < 4 → t.flt = (u.raise Kind.SYNC_FEW ds.length).flt)
      else if s.cyc.overLim = 0 then t.cyc.overLim = 1 ∧ t.mode = s.mode
      else t.sstate = ssLISTEN ∧ t.cyc.stopped = true ∧ t.inCause Kind.SYNC_LOST 0 = true ∧
        t.mode = if s.mode = mRun ∨ s.mode = mShadow then mJoin else s.mode) ∧
  ∀ (s : State) (p : Fin 4) (ws : List Word) (arrival : BitVec 48), ws.length = 20 → bits (wordAt ws 0) 47 40 = 5 →
    if (wordAt ws 0).testBit 39 = false
    then s.linkOpen p.val = true → s.sealOpen p.val = true → s.xbar.ctlUsed < s.get XBAR_CTLCAP.CELLS →
      ∃ t d tag, exec (.linkDelayReceived p ws arrival) s = .next t ∧ t.out = .link p.val d tag :: s.out ∧
        (s.sealKey p.val true = none →
          d.words = pad20 (linkDelayWords true (bits (wordAt ws 0) 15 8) (wordAt ws 1) arrival.toNat
            (s.now * 256 % 2 ^ 48)) ∧ d.kind = kLINK ∧ d.cls = cCTL ∧ d.nm1 = 19 ∧ tag = cellCrc d) ∧
        t.xbar = { s.xbar with ctlUsed := s.xbar.ctlUsed + 1 } ∧ Frame [.out, .xbar, .free] [] s t
    else ∀ (x : LinkDelay) (rs : List Int), x = s.linkDelay p.val →
      rs = ((halfRange 48 arrival.toNat (wordAt ws 1) - halfRange 48 (wordAt ws 3) (wordAt ws 2)).tdiv 2 ::
        x.results).take 8 →
      ∃ t, exec (.linkDelayReceived p ws arrival) s = .next t ∧
        if x.t1 = some (wordAt ws 1) ∧ bits (wordAt ws 0) 15 8 = x.exch
        then t.linkDelay p.val = { x with t1 := none, results := rs } ∧
          t.get (CYC_LINKDLY.DELAY p.val) = (((rs.foldl (· + ·) 0).tdiv rs.length).emod (2 ^ 32)).toNat ∧
          Frame [.cyc] [CYC_LINKDLY.DELAY p.val] s t
        else t = s

/-- Every BAR2 request that PCIe can carry is answered. While the link is down it does nothing. One that the
window does not admit, or a write that cuts a word, counts in REFUSED with BRG_OUT_REFUSED, a read also ends
with UR. Else its words, from the first it touches on, become cells of up to twenty for the window's node,
channel and word: writes go to CP16 at once where none of the function's cells wait, else behind them; reads
take free tags in turn, name node and tag in their payload, and wait where none is free, nothing that waits
being able to go. What waits keeps its order and goes as soon as it may. RESP_ARRIVAL frees its tag and adds
its words; the last one of a request completes it with the bytes asked for, or UR where any refused; of an
unknown or quarantined tag it counts in LATE. BRG_RD_TIMEOUT runs the clock to the due tick, completes with
CA, quarantines the request's tags for twice RDTO and reports; TAG_QUARANTINE_END frees the tag.
FUNCTION_LEVEL_RESET drops the function's waiting requests and quarantines its tags; BRG_LINK_DOWN does so
for all, loses a table home in host memory and comes into cause until PCIE_LINK_UP.
(12_bridge_and_ethernet.md R376, R377, R378, R379, R380, R381, R382, R394) -/
def Obligations.OutboundRequestsBecomeCells : Prop :=
  (∀ (s : State) (fn : Fin 16) (offset n o i j z : Nat) (pk di : Bool) (bytes : List Byte) (cells : List OutCell),
    1 ≤ bytes.length → bytes.length ≤ 512 → offset + bytes.length ≤ 2 ^ 25 → offset % 4096 + bytes.length ≤ 4096 →
    n = offset / 524288 → o = offset % 524288 → pk = s.on (BRG_OWINB.PACK n) → di = s.on (BRG_OWINB.RULE n) →
    z = wordSize pk → i = o / z → j = (o + bytes.length - 1) / z → s.outStalled →
    cells = (chunks 512 0 (j + 1 - i)).map (fun c => OutCell.mk fn.val none 0
      (s.fnCell fn.val true (s.get (BRG_OWINA.NODE n)) (s.get (BRG_OWINA.CH n)) (s.get (BRG_OWINA.WORD n) + i + c.1) c.2
        (((hostWords pk di (j + 1 - i) (List.replicate (o % z) 0 ++ bytes ++ List.replicate 8 0)).drop c.1).take c.2))) →
    exec (.outboundWrite fn offset bytes) s = .next
      (if s.linkUp = false then s
       else if s.owinOk fn.val n j = false ∨ z * i + dataAt pk di < o ∨ o + bytes.length < z * j + dataAt pk di + 6
       then (s.inc BRG_CNT.REFUSED).raise Kind.BRG_OUT_REFUSED (fn.val * 2 ^ 16 + n)
       else if s.brg.outQ.any (fun c => c.fn == fn.val)
       then { s with brg := { s.brg with outQ := s.brg.outQ ++ cells } }
       else cells.foldl (fun s c => s.sendFor 16 fn.val c.cell) s)) ∧
  (∀ (s : State) (fn : Fin 16) (offset len n o i j z : Nat) (pk : Bool) (cells : List OutCell),
    1 ≤ len → len ≤ 4096 → offset + len ≤ 2 ^ 25 → offset % 4096 + len ≤ 4096 →
    n = offset / 524288 → o = offset % 524288 → pk = s.on (BRG_OWINB.PACK n) →
    z = wordSize pk → i = o / z → j = (o + len - 1) / z → s.outStalled →
    cells = (chunks 1024 0 (j + 1 - i)).map (fun c => OutCell.mk fn.val (some s.brg.nextReq) c.1
      (s.fnCell fn.val false (s.get (BRG_OWINA.NODE n)) (s.get (BRG_OWINA.CH n)) (s.get (BRG_OWINA.WORD n) + i + c.1) c.2 [])) →
    ∃ t, exec (.outboundRead fn offset len) s = .next t ∧
      if s.linkUp = false then t = s
      else if s.owinOk fn.val n j = false
      then t = ((s.inc BRG_CNT.REFUSED).raise Kind.BRG_OUT_REFUSED (fn.val * 2 ^ 16 + n)).emit .cplUR
      else t.brg.reads = s.brg.reads ++
          [.mk s.brg.nextReq fn.val pk (s.on (BRG_OWINB.RULE n)) (o % z) len [] cells.length false] ∧
        t.brg.nextReq = s.brg.nextReq + 1 ∧ Frame [.brg, .xbar] [BRG_STAT.OUTRD] s t ∧
        ∃ ts : List Nat, ts.Nodup ∧ ts.length ≤ cells.length ∧ t.brg.outQ = s.brg.outQ ++ cells.drop ts.length ∧
          (ts.length < cells.length → t.freeTag = none) ∧
          t.xbar = ((cells.zip ts).foldl (fun (s : State) x => s.sendFor 16 fn.val
            { x.1.cell with words := pad20 [word (s.node * 2 ^ 32 + x.2)] }) s).xbar ∧
          (∀ x ∈ cells.zip ts, x.2 < 1024 ∧ Tab.get TagUse.free s.brg.tags x.2 = .free ∧
            Tab.get TagUse.free t.brg.tags x.2 =
              .busy s.brg.nextReq x.1.at_ (x.1.cell.nm1.toNat + 1) (s.now + usTicks (s.get BRG_CFG.RDTO))) ∧
          ∀ k, k ∉ ts → Tab.get TagUse.free t.brg.tags k = Tab.get TagUse.free s.brg.tags k) ∧
  (∀ (s : State), s.pump16.outStalled ∧ s.pump16.brg.outQ.Sublist s.brg.outQ ∧ s.pump16.brg.reads = s.brg.reads ∧
    (s.outStalled → s.pump16 = s) ∧ Frame [.brg, .xbar] [BRG_STAT.OUTRD] s s.pump16) ∧
  (∀ (s : State) (c : Cell), c.words.length = 20 →
    match (if c.f2.toNat < 1024 then Tab.get TagUse.free s.brg.tags c.f2.toNat else TagUse.free) with
    | .busy q a n _ => ∃ u, exec (.respArrival c) s = .next u.pump16 ∧
        (∀ k, Tab.get TagUse.free u.brg.tags k =
          if k = c.f2.toNat then .free else Tab.get TagUse.free s.brg.tags k) ∧ Frame [.brg, .out] [BRG_STAT.OUTRD] s u ∧
        match s.brg.reads.find? (fun (r : OutRead) => r.id == q) with
        | none => u.brg.reads = s.brg.reads ∧ u.out = s.out
        | some r => ∀ x : OutRead, x = { r with
              words := if c.ten = 0 then Tab.putList 0 r.words a (c.words.take n) else r.words
              left := r.left - 1, bad := r.bad || c.ten != 0 } →
            if r.left ≤ 1
            then u.brg.reads = s.brg.reads.filter (fun y => y.id != q) ∧
              u.brg.outQ = s.brg.outQ.filter (fun y => y.req != some q) ∧
              u.out = (if x.bad then .cplUR else .cplData x.bytes) :: s.out
            else u.brg.reads = s.brg.reads.map (fun y => if y.id == q then x else y) ∧ u.out = s.out ∧
              u.brg.outQ = s.brg.outQ
    | _ => exec (.respArrival c) s = .next
        ((s.inc BRG_CNT.LATE).raise Kind.BRG_LATE_RESP (c.f2.toNat % 4096))) ∧
  (∀ (s : State) (tag : Fin 1024), match Tab.get TagUse.free s.brg.tags tag.val with
    | .busy q _ _ due =>
      (match s.brg.reads.find? (fun (r : OutRead) => r.id == q) with
        | none => exec (.brgRdTimeout tag) s = .next (s.waitUntil due)
        | some r => ∃ u, exec (.brgRdTimeout tag) s = .next u.pump16 ∧ u.now = max s.now due ∧ u.out = .cplCA :: s.out ∧
          u.brg.reads = s.brg.reads.filter (fun (x : OutRead) => x.id != q) ∧
          u.brg.outQ = s.brg.outQ.filter (fun x => x.req != some q) ∧
          (∀ k, Tab.get TagUse.free u.brg.tags k = match Tab.get TagUse.free s.brg.tags k with
            | .busy x a n d => if x = q then .quarantine (u.now + 2 * usTicks (s.get BRG_CFG.RDTO)) else .busy x a n d
            | x => x) ∧
          (∃ e ∈ u.flt.reports, e.kind = Kind.BRG_RD_TIMEOUT ∧ e.addr = r.fn * 2 ^ 16 + tag.val) ∧
          PartsKept [.clock, .cyc, .brg, .flt, .out] s u) ∧
      exec (.tagQuarantineEnd tag) s = .next s
    | .quarantine d => exec (.brgRdTimeout tag) s = .next s ∧
      ∃ u, exec (.tagQuarantineEnd tag) s = .next u.pump16 ∧ u.now = max s.now d ∧
        (∀ k, Tab.get TagUse.free u.brg.tags k =
          if k = tag.val then .free else Tab.get TagUse.free s.brg.tags k) ∧
        u.brg.reads = s.brg.reads ∧ u.brg.outQ = s.brg.outQ ∧ PartsKept [.clock, .cyc, .brg] s u
    | .free => exec (.brgRdTimeout tag) s = .next s ∧ exec (.tagQuarantineEnd tag) s = .next s) ∧
  (∀ (s : State) (fn : Fin 16), ∃ t, exec (.functionLevelReset fn) s = .next t ∧
    t.brg.outQ = s.brg.outQ.filter (fun c => c.fn ≠ fn.val ∧
      ∀ r ∈ s.brg.reads, r.fn = fn.val → c.req ≠ some r.id) ∧
    (∀ r, r ∈ t.brg.reads → r ∈ s.brg.reads ∧ r.fn ≠ fn.val) ∧
    (∀ r ∈ s.brg.reads, (∀ x ∈ s.brg.reads, x.fn = fn.val → x.id ≠ r.id) → r ∈ t.brg.reads) ∧
    (∀ tag : Nat, Tab.get TagUse.free t.brg.tags tag = match Tab.get TagUse.free s.brg.tags tag with
      | .busy q a n due => if ∃ r ∈ s.brg.reads, r.id = q ∧ r.fn = fn.val
          then .quarantine (s.now + 2 * usTicks (s.get BRG_CFG.RDTO)) else .busy q a n due
      | x => x) ∧
    Tab.get [] t.xbar.waiting 16 = (Tab.get [] s.xbar.waiting 16).filter (fun w =>
      !(w.ten == fn.val && (w.cell.kind == kWRITE || w.cell.kind == kREAD || w.cell.kind == kBWRITE))) ∧
    Frame [.brg, .xbar] [BRG_STAT.OUTRD] s t) ∧
  ∀ (s : State), (∃ u t, exec .brgLinkDown s = .next t ∧ u.linkUp = false ∧ u.inCause Kind.BRG_LINK_DOWN 0 = true ∧
      Frame [.flt] [BRG_STAT.LINKUP] s u ∧
      (∀ r ∈ t.brg.reads, 16 ≤ r.fn) ∧ (∀ c ∈ t.brg.outQ, 16 ≤ c.fn) ∧
      Frame [.brg, .xbar] [BRG_STAT.OUTRD] (if s.homeSel = 2 then u.loseHome else u) t) ∧
    ∃ t, exec .pcieLinkUp s = .next t ∧ t.linkUp = true ∧ t.inCause Kind.BRG_LINK_DOWN 0 = false ∧
      t.flt.reports = s.flt.reports ∧ Frame [.flt] [BRG_STAT.LINKUP] s t

/-- INBOUND_ACCESS that the decode admits to a channel of an open window writes host memory at HADDR plus the
word's place, or issues a host read that is due after HRDTO, one of at most 256; with the window closed it
counts in HOSTERR. HOST_COMPLETION with data answers the READ with an OK RESP of the words; another answer,
and HOST_READ_TIMEOUT after the clock has run to the due tick, sends no RESP and counts in HOSTERR with
BRG_HOST_ERR. TUNNEL_FRAME_SEND of a MAC's oldest frame on an enabled idle tunnel hands its cells to CP18
and counts it; on a disabled one the frame is dropped with TUN_DROP. TUNNEL_CELL_ARRIVAL of a first cell
begins a reassembly, the next cell of the same frame extends it, another one breaks it with TUN_REASM; a
frame complete in one cell goes to the transmit queue of its MAC. TUN_REASM_TIMEOUT runs the clock to
REASMTO and drops the partial frame. (12_bridge_and_ethernet.md R383, R384, R386, R388, R389, R390, R391,
R392) -/
def Obligations.InboundAccessesAndTunnels : Prop :=
  (∀ (s v : State) (c : Cell) (e : Entry) (k n : Nat) (pk di : Bool), c.words.length = 20 → c.nm1.toNat ≤ 19 →
    n = c.nm1.toNat + 1 → e.iwin = some k → pk = v.on (BRG_IWINB.PACK k) → di = v.on (BRG_IWINB.RULE k) →
    (c.kind = kWRITE ∨ c.kind = kBWRITE →
      s.decode (c.kind == kBWRITE) c.ten.toNat c.f1.toNat c.f2.toNat n (some (c.words.take n)) = (v, .channel e) →
      ∃ t, exec (.inboundAccess c) s = .next t ∧ ∀ (a : Nat) (bs : List Byte),
        a = v.get (BRG_IWINA.HADDR k) * 65536 + wordSize pk * c.f2.toNat →
        bs = (c.words.take n).flatMap (hostBytes pk di) →
        if v.iwinOpen k then t.tbl.host = Tab.putList 0 v.tbl.host a bs ∧ t.out = .hostWrite a bs :: v.out ∧
          Frame [.host, .out] [] v t
        else t = (v.inc BRG_CNT.HOSTERR).raise Kind.BRG_HOST_ERR k) ∧
    (c.kind = kREAD → s.decode false c.ten.toNat c.f1.toNat c.f2.toNat n none = (v, .channel e) →
      ∃ t, exec (.inboundAccess c) s = .next t ∧
        if v.iwinOpen k = false then t = (v.inc BRG_CNT.HOSTERR).raise Kind.BRG_HOST_ERR k
        else if 256 ≤ v.brg.host.length then t = { v with brg := { v.brg with inNp := v.brg.inNp ++ [(k, c)] } }
        else t.brg = { v.brg with
            nextId := v.brg.nextId + 1
            host := v.brg.host ++ [.mk v.brg.nextId k (.window c) (v.now + usTicks (v.get BRG_CFG.HRDTO))] } ∧
          t.out = .hostRead v.brg.nextId (v.get (BRG_IWINA.HADDR k) * 65536 + wordSize pk * c.f2.toNat)
            (wordSize pk * n) :: v.out ∧
          t.get BRG_STAT.HOSTRD = v.brg.host.length + 1 ∧ Frame [.brg, .out] [BRG_STAT.HOSTRD] v t)) ∧
  (∀ (s : State) (id n : Nat) (r : HostRead) (c : Cell) (pk di : Bool),
    s.brg.host.find? (fun (r : HostRead) => r.id == id) = some r → r.use = .window c → s.brg.inNp = [] →
    pk = s.on (BRG_IWINB.PACK r.win) → di = s.on (BRG_IWINB.RULE r.win) → n = c.nm1.toNat + 1 →
    (∀ (ws : List Word), ws.length = n →
      ∃ t, exec (.hostCompletion id (.data (ws.flatMap (hostBytes pk di)))) s = .next t ∧
        t.xbar = (s.sendFor 16 c.ten.toNat (s.respCell (c.words.getD 0 0) c.cls 0 ws)).xbar ∧
        t.brg = { s.brg with host := s.brg.host.filter (fun x => x.id ≠ id) } ∧
        Frame [.brg, .xbar] [BRG_STAT.HOSTRD] s t) ∧
    (∀ (x : HostAnswer), (∀ bs : List Byte, x ≠ .data bs) →
      ∃ t, exec (.hostCompletion id x) s = .next t ∧ t.xbar = s.xbar ∧
        t.get BRG_CNT.HOSTERR = min (s.get BRG_CNT.HOSTERR + 1) (2 ^ 12 - 1) ∧
        t.flt = (s.raise Kind.BRG_HOST_ERR r.win).flt ∧
        t.brg = { s.brg with host := s.brg.host.filter (fun x => x.id ≠ id) } ∧
        Frame [.brg, .flt] [BRG_STAT.HOSTRD, BRG_CNT.HOSTERR] s t) ∧
    ∃ t, exec (.hostReadTimeout id) s = .next t ∧ t.now = max s.now r.due ∧ t.xbar = s.xbar ∧
      t.get BRG_CNT.HOSTERR = min (s.get BRG_CNT.HOSTERR + 1) (2 ^ 12 - 1) ∧
      (∃ e ∈ t.flt.reports, e.kind = Kind.BRG_HOST_ERR ∧ e.addr = r.win) ∧
      t.brg = { s.brg with host := s.brg.host.filter (fun x => x.id ≠ id) } ∧
      PartsKept [.clock, .cyc, .brg, .flt] s t) ∧
  (∀ (s : State) (m : Fin 12) (f : TunFrame) (rest : List TunFrame), (s.macRec m.val).rxq = f :: rest → f.stun < 256 →
    (s.on (BRG_TUN.EN f.stun) = false →
      ∃ t, exec (.tunnelFrameSend (.mac m)) s = .next t ∧ t.macRec m.val = { s.macRec m.val with rxq := rest } ∧
        t.get BRG_CNT.TUNDROP = min (s.get BRG_CNT.TUNDROP + 1) (2 ^ 12 - 1) ∧
        t.flt = (s.raise Kind.TUN_DROP f.stun).flt ∧ t.xbar = s.xbar ∧
        Frame [.brg, .flt] [BRG_CNT.TUNDROP] s t) ∧
    (s.on (BRG_TUN.EN f.stun) = true → 0 < f.bytes.length → f.bytes.length ≤ 16384 → s.tunBusy f.stun = false →
      ∃ t, exec (.tunnelFrameSend (.mac m)) s = .next t ∧ t.macRec m.val = { s.macRec m.val with rxq := rest } ∧
        Tab.get [] t.xbar.waiting 18 = Tab.get [] s.xbar.waiting 18 ++
          (s.tunCells f (Tab.get 0 s.brg.fseq f.stun)).map (fun c => WCell.mk c c.ten.toNat) ∧
        Tab.get 0 t.brg.fseq f.stun = (Tab.get 0 s.brg.fseq f.stun + 1) % 256 ∧
        t.get (MAC_RXCNT.FRAMES m.val) = min (s.get (MAC_RXCNT.FRAMES m.val) + 1) (2 ^ 28 - 1) ∧
        Frame [.brg, .xbar] [MAC_RXCNT.FRAMES m.val] s t)) ∧
  (∀ (s v : State) (c : Cell) (e : Entry) (k i len q : Nat) (h : Word), c.words.length = 20 → h = c.words.getD 0 0 →
    s.decode false c.ten.toNat c.f1.toNat 0 1 (some []) = (v, .channel e) → e.type = tTUNNEL → e.index = k → k < 256 →
    i = c.f2.toNat → len = wbits h 29 15 → q = wbits h 47 40 →
    (i = 0 → 1 ≤ len → len ≤ 16384 → v.brg.reasm = [] →
      ∀ (f : TunFrame), f = .mk (wbits h 7 0) (h.getLsbD 39) (wbits h 38 37) (wbits h 36 35) (wordAt c.words 1 % 2 ^ 16)
        (wordAt c.words 2) ((wordBytes (c.words.drop 3)).take (min len 102)) →
      (102 < len → ∃ t, exec (.tunnelCellArrival c) s = .next t ∧ t.brg.reasm = [.mk k q f len 1 v.now false] ∧
        t.get BRG_STAT.REASM = 1 ∧ Frame [.brg] [BRG_STAT.REASM] v t) ∧
      (∀ m : Nat, len ≤ 102 → v.get (BRG_TUN.SINK k) = 1 → m = v.get (BRG_TUN.SIDX k) → f.mbus = false → m < 12 →
        v.mode ≠ mShadow → 64 ≤ len → len ≤ v.get (MAC_CFG.MAXLEN m) → (v.macRec m).txBytes + len ≤ 32768 →
        ∃ t, exec (.tunnelCellArrival c) s = .next t ∧ t.brg.reasm = [] ∧
          t.macRec m = { v.macRec m with
            txq := (v.macRec m).txq ++
              [.mk ((wordBytes (c.words.drop 3)).take len) (v.tenClass (v.get (BRG_TUN.TENANT k))) v.now]
            hold := if v.on (MAC_STAT.LINK m) = true ∨ (v.macRec m).hold.isSome then (v.macRec m).hold
              else some (v.now + v.get XBAR_PORTHOLD.TICKS) } ∧
          Frame [.brg] [BRG_STAT.REASM] v t)) ∧
    (∀ (r : Reasm), i ≠ 0 → v.brg.reasm = [r] → r.tun = k → r.frame.bytes.length + 114 < r.len →
      if r.next = i ∧ r.fseq = q
      then ∃ t, exec (.tunnelCellArrival c) s = .next t ∧
        t.brg.reasm = [{ r with next := i + 1, frame := { r.frame with
          bytes := r.frame.bytes ++ wordBytes (c.words.drop 1) } }] ∧ Frame [.brg] [BRG_STAT.REASM] v t
      else ∃ t, exec (.tunnelCellArrival c) s = .next t ∧ t.brg.reasm = [] ∧
        t.get BRG_CNT.TUNDROP = min (v.get BRG_CNT.TUNDROP + 1) (2 ^ 12 - 1) ∧
        t.flt = (v.raise Kind.TUN_REASM k).flt ∧ Frame [.brg, .flt] [BRG_STAT.REASM, BRG_CNT.TUNDROP] v t)) ∧
  ∀ (s : State) (k : Fin 256) (r : Reasm),
    s.brg.reasm.find? (fun r => r.tun == k.val && !r.complete) = some r →
    ∃ t, exec (.tunReasmTimeout k) s = .next t ∧ t.now = max s.now (r.born + usTicks (s.get BRG_CFG.REASMTO)) ∧
      t.brg.reasm = s.brg.reasm.erase r ∧ t.get BRG_CNT.TUNDROP = min (s.get BRG_CNT.TUNDROP + 1) (2 ^ 12 - 1) ∧
      (∃ x ∈ t.flt.reports, x.kind = Kind.TUN_REASM ∧ x.addr = k.val) ∧ PartsKept [.clock, .cyc, .brg, .flt] s t

/-- MAC_FRAME_RECEIVED at a linked MAC: a bad FCS, a length below 64 or a coding error, a length over MAXLEN,
and a full buffer are each dropped and counted; else the frame waits for its tunnel with its checks and the
ring time of its first byte. MAC_FRAME_SENT of a linked MAC outside Shadow sends the oldest queued frame,
with checksums where TXCK asks, counts it, leaves LPI after the wake time and stamps a PTP event, a full
stamp queue losing its oldest; in Shadow the frame is discarded and counted. MAC_LINK_UP at a rate the MAC
has shows link and rate, reports, ends MAC_LINK_DOWN, drops the expired held frames and goes on with the
rest. MAC_LINK_DOWN shows it, comes into cause and holds the queue for PORT_HOLD. FALLBACK_PERIOD of an
unlinked ETH0 to ETH3 at SPEED 0 runs the clock to FBTIME and tries the other rate. LPI_ENTRY of an idle
linked MAC runs the clock to IDLE and shows LPI. (12_bridge_and_ethernet.md R395, R396, R397, R398, R399,
R400, R401) -/
def Obligations.MacsReceiveSendAndChangeTheirLinks : Prop :=
  (∀ (s : State) (m : Fin 12) (f : EthFrame) (x : Mac) (body : List Byte), x = s.macRec m.val →
    s.macLinked m.val = true → body = f.bytes.take (f.bytes.length - 4) →
    if f.fcsOk = false then exec (.macFrameReceived m f) s = .next (s.inc (MAC_DROP.FCS m.val))
    else if f.bytes.length < 64 ∨ f.codeOk = false then exec (.macFrameReceived m f) s = .next (s.inc (MAC_DROP.SHORT m.val))
    else if s.get (MAC_CFG.MAXLEN m.val) < f.bytes.length
    then exec (.macFrameReceived m f) s = .next (s.inc (MAC_DROP.LONG m.val))
    else if 32768 < x.rxBytes + f.bytes.length
    then exec (.macFrameReceived m f) s = .next (s.inc (MAC_DROP.OVF m.val))
    else ∀ (ip l4 : Nat), ip = (if s.on (MAC_CFG.RXCK m.val) then ipCheck body else 0) →
      l4 = (if s.on (MAC_CFG.RXCK m.val) then l4Check body else 0) →
      ∃ t, exec (.macFrameReceived m f) s = .next t ∧
        t.macRec m.val = { x with rxq := x.rxq ++
          [.mk (s.get (MAC_CFG.TNUM m.val)) false ip l4 s.gen
            (shiftTicks s.ticks (-(byteTicks (s.get (MAC_STAT.RATE m.val)) f.bytes.length : Nat))) f.bytes] } ∧
        (∀ j, j ≠ m.val → t.macRec j = s.macRec j) ∧
        if ip = 2 ∨ l4 = 2
        then t.get (MAC_RXCNT.CKBAD m.val) = min (s.get (MAC_RXCNT.CKBAD m.val) + 1) (2 ^ 20 - 1) ∧
          Frame [.brg] [MAC_RXCNT.CKBAD m.val] s t
        else Frame [.brg] [] s t) ∧
  (∀ (s : State) (m : Fin 12) (x : Mac) (f : TxFrame) (rest : List TxFrame), x = s.macRec m.val → x.txq = f :: rest →
    s.brg.reasm = [] →
    (s.mode = mShadow → ∃ t, exec (.macFrameSent m) s = .next t ∧ t.macRec m.val = { x with txq := rest } ∧
      t.get (MAC_TXCNT.DISCARD m.val) = min (s.get (MAC_TXCNT.DISCARD m.val) + 1) 255 ∧
      Frame [.brg] [MAC_TXCNT.DISCARD m.val] s t) ∧
    (s.mode ≠ mShadow → s.macLinked m.val = true → ∀ (u : State) (bs : List Byte) (e : TxStamp),
      u = (if s.on (MAC_STAT.LPI m.val) = true
        then s.advance (usTicks (max (s.get (MAC_LPI.TWSYS m.val)) (s.get (MAC_LPI.TWPART m.val)))) else s) →
      bs = (if s.on (MAC_CFG.TXCK m.val) then withChecks f.bytes else f.bytes) →
      ∃ t, exec (.macFrameSent m) s = .next t ∧ t.out = .eth m.val bs :: s.out ∧
        t.get (MAC_TXCNT.SENT m.val) = min (s.get (MAC_TXCNT.SENT m.val) + 1) (2 ^ 20 - 1) ∧
        t.get (MAC_STAT.LPI m.val) = 0 ∧
        (ptpEvent bs = none → t.macRec m.val = { x with txq := rest, sentAt := u.now } ∧
          Frame [.brg, .out] [MAC_STAT.LPI m.val, MAC_TXCNT.SENT m.val] u t) ∧
        (ptpEvent bs = some (e.mtype, e.seqid) → e.gen = u.gen → e.ticks = u.ticks →
          t.macRec m.val = { x with txq := rest, sentAt := u.now, stamps :=
            (if x.stamps.length < 4 then x.stamps else x.stamps.drop 1) ++ [e] } ∧
          (4 ≤ x.stamps.length → t.flt = (u.raise Kind.MAC_TXTS_OVF m.val).flt) ∧
          Frame [.brg, .out, .flt] [MAC_STAT.LPI m.val, MAC_TXCNT.SENT m.val] u t))) ∧
  (∀ (s : State) (m : Fin 12) (rate : Fin 5) (x : Mac), x = s.macRec m.val → s.macRuns m.val = true →
    s.on (MAC_STAT.LINK m.val) = false → s.macRate m.val rate.val = true → s.brg.reasm = [] →
    ∃ t, exec (.macLinkUp m rate) s = .next t ∧ t.get (MAC_STAT.LINK m.val) = 1 ∧
      t.get (MAC_STAT.RATE m.val) = rate.val ∧ t.inCause Kind.MAC_LINK_DOWN m.val = false ∧
      (∃ r ∈ t.flt.reports, r.kind = Kind.MAC_LINK_UP ∧ r.addr = m.val) ∧
      t.macRec m.val = { x with
        hold := none, sentAt := s.now
        txq := if x.hold.isSome then x.txq.filter (fun f => !s.frameExpired f) else x.txq } ∧
      (x.hold.isSome → t.get (MAC_TXCNT.EXPIRED m.val) =
        min (s.get (MAC_TXCNT.EXPIRED m.val) + (x.txq.filter s.frameExpired).length) (2 ^ 10 - 1)) ∧
      Frame [.brg, .flt] [MAC_STAT.LINK m.val, MAC_STAT.RATE m.val, MAC_TXCNT.EXPIRED m.val] s t) ∧
  (∀ (s : State) (m : Fin 12), s.on (MAC_STAT.LINK m.val) = true →
    ∃ t, exec (.macLinkDown m) s = .next t ∧ t.get (MAC_STAT.LINK m.val) = 0 ∧ t.get (MAC_STAT.RATE m.val) = 0 ∧
      t.get (MAC_STAT.LPI m.val) = 0 ∧ t.inCause Kind.MAC_LINK_DOWN m.val = true ∧
      t.macRec m.val = { s.macRec m.val with
        hold := some (s.now + s.get XBAR_PORTHOLD.TICKS), lower := false, tryAt := s.now } ∧
      Frame [.brg, .flt] [MAC_STAT.LINK m.val, MAC_STAT.RATE m.val, MAC_STAT.LPI m.val] s t) ∧
  ∀ (s : State) (m : Fin 12) (x : Mac), x = s.macRec m.val →
    (m.val < 4 → s.macRuns m.val = true → s.macReduced m.val = false → s.on (MAC_STAT.LINK m.val) = false →
      s.get (MAC_CFG.SPEED m.val) = 0 →
      ∃ t, exec (.fallbackPeriod m) s = .next t ∧
        t.now = max s.now (x.tryAt + msTicks (s.get (MAC_CFG.FBTIME m.val))) ∧
        t.macRec m.val = { x with lower := !x.lower, tryAt := t.now } ∧ PartsKept [.clock, .cyc, .brg] s t) ∧
    (s.on (MAC_CTL.LPIEN m.val) = true → s.macLinked m.val = true → x.txq = [] → s.on (MAC_STAT.LPI m.val) = false →
      ∃ t, exec (.lpiEntry m) s = .next t ∧ t.now = max s.now (x.sentAt + usTicks (s.get (MAC_LPI.IDLE m.val))) ∧
        t.get (MAC_STAT.LPI m.val) = 1 ∧ PartsKept [.clock, .cyc] s t)

/-- HEARTBEAT_RECEIVED of the twin shows its mode; in Run, or in Hold where HOLDTK is 0, the twin is present,
RED_NO_TWIN ends, and a SERVING shadow of a lower effective claim steps back at the boundary. Another node's
heartbeat changes nothing. RED_SWAP in ACTIVE is noted and reported, else RED_CONFIG. MIRROR_PASS with the
last cells gone and no read under way reads the next mirrored channel, whose words leave as cells once read,
and moves the walk on; past LAST the round ends. MIRROR_CELL_RECEIVED at a receiver: a first cell captures
the receiver's own entry; the next cell extends the pass, the last one commits all its words, those of a
wide pass go one by one; a cell out of order or of a wrong count discards the pass with GAP; a hub that does
not receive takes nothing but the number of the round, which began before. VOTE_CELL_RECEIVED of a source of
an enabled group whose voter this is keeps the copy's words at their places; for a seventeenth group the
copy is dropped with RED_VOTE_FULL. (13_redundancy.md R406, R407, R417, R418, R419, R421, R424) -/
def Obligations.TwinsBeatMirrorAndSwap : Prop :=
  (∀ (s : State) (c : Cell) (w : Word), c.words.length = 20 → w = c.words.getD 0 0 → wbits w 47 40 = 4 →
    if s.get RED_CFG.ROLE = 0 ∨ wbits w 15 0 ≠ s.get RED_CFG.TWIN then exec (.heartbeatReceived c) s = .next s
    else ∃ t, exec (.heartbeatReceived c) s = .next t ∧ t.get RED_STAT.TWMODE = wbits w 39 37 ∧
      if wbits w 39 37 = mRun ∨ wbits w 39 37 = mHold ∧ s.on RED_CFG.HOLDTK = false
      then t.red = { s.red with
          runNow := true
          stepBack := s.red.stepBack || (s.redSt == rdSERVING && decide (s.eclaim < wbits w 31 24))
          quiet := s.red.quiet || (s.redSt == rdSERVING && decide (s.eclaim < wbits w 31 24)) } ∧
        t.inCause Kind.RED_NO_TWIN (s.get RED_CFG.TWIN * 2 ^ 16) = false ∧ t.flt.reports = s.flt.reports ∧
        Frame [.red, .flt] [RED_STAT.TWMODE] s t
      else Frame [] [RED_STAT.TWMODE] s t) ∧
  (∀ (s : State), exec .redSwap s = .next (if s.get RED_STAT.STATE = rdACTIVE
    then { s with red := { s.red with swap := true } }.raise Kind.RED_SWAP (s.get RED_CFG.TWIN * 2 ^ 16)
    else s.raise Kind.RED_CONFIG 0)) ∧
  (∀ (s : State) (ch : Nat), s.mirrorSends = true → s.red.txCells = [] → s.mirrorReads = false →
    s.get RED_MRANGE.FIRST ≤ s.get RED_MRANGE.LAST →
    ch = s.red.walk.getD (s.get RED_MRANGE.FIRST) →
    if ch ≤ s.get RED_MRANGE.LAST
    then match s.lookup ch with
      | none => exec .mirrorPass s = .next { s with red := { s.red with walk := some ch } }
      | some (v, e) =>
        (e.mirrored = false → exec .mirrorPass s = .next (v.mirrorFrom (ch + 1) (s.get RED_MRANGE.LAST - ch))) ∧
        (e.mirrored = true → match v.readChan 29 0 ch e 0 e.extent .mirror false with
          | (w, .words ws) => ∃ t, exec .mirrorPass s = .next t ∧ t.red.walk = some (ch + 1) ∧
            t.red.txCells = w.mirrorCells ch ws ∧ { t.red with walk := w.red.walk, txCells := w.red.txCells } = w.red ∧
            Frame [.red] [] w t
          | (w, .waits _) => exec .mirrorPass s = .next { w with red := { w.red with walk := some (ch + 1) } }
          | (w, .gone) => exec .mirrorPass s = .next (w.mirrorFrom (ch + 1) (s.get RED_MRANGE.LAST - ch)))
    else ∃ t, exec .mirrorPass s = .next t ∧
      t.red = { s.red with walk := none, round := (s.red.round + 1) % 2 ^ 32 } ∧
      t.get RED_MSTAT.TXROUND = (s.get RED_MSTAT.TXROUND + 1) % 2 ^ 24 ∧ Frame [.red] [RED_MSTAT.TXROUND] s t) ∧
  (∀ (s u : State) (c : Cell) (w0 w1 : Word) (data : List Word), c.words.length = 20 → w0 = c.words.getD 0 0 →
    w1 = c.words.getD 1 0 → wbits w0 47 40 = 6 → s.mirrorBlocked = false →
    data = (c.words.drop 2).take (wbits w0 36 32 + 1) →
    u = { s with red := { s.red with revSeen := some (s.red.revSeen.getD 0) } } →
    if (s.redSt = rdSTANDBY ∧ w0.getLsbD 39 = false) ∨ (s.redSt = rdRETURNING ∧ w0.getLsbD 39 = true)
    then s.red.rxRound = some (wbits w1 47 16) →
      (∀ (x : MirrorRx), s.red.rx = some x → wbits w1 15 0 ≠ 0 → x.ch = wbits w0 31 16 →
        if x.next ≠ wbits w1 15 0
        then exec (.mirrorCellReceived c) s = .next (({ u with red := { u.red with
          rx := none, rxWhole := false, skip := some x.ch } }.inc RED_CNT.GAP).raise Kind.RED_MIRROR_GAP x.ch)
        else ∀ ws : List Word, ws = x.words ++ data →
          if x.entry.extent < ws.length ∨ (w0.getLsbD 38 = true ∧ x.entry.extent ≠ ws.length)
          then exec (.mirrorCellReceived c) s = .next (({ u with red := { u.red with
            rx := none, rxWhole := false, skip := some x.ch } }.inc RED_CNT.GAP).raise Kind.RED_MIRROR_BIND x.ch)
          else ∃ v t, exec (.mirrorCellReceived c) s = .next t ∧
            v = (if x.wide then u.putChan 29 0 x.ch x.entry x.words.length data
              else if w0.getLsbD 38 then u.putChan 29 0 x.ch x.entry 0 ws else u) ∧
            t.red.rx = (if w0.getLsbD 38 then none else some { x with next := x.next + 1, words := ws }) ∧
            { t.red with rx := v.red.rx } = v.red ∧ Frame [.red] [] v t) ∧
      (∀ (v : State) (e : Entry), s.red.rx = none → wbits w1 15 0 = 0 → w0.getLsbD 38 = false →
        data.length ≤ e.extent → e.extent ≤ 4096 → u.lookup (wbits w0 31 16) = some (v, e) → e.valid = true → e.mirror = true →
        ∃ t x, exec (.mirrorCellReceived c) s = .next t ∧ t.red.rx = some x ∧ x.ch = wbits w0 31 16 ∧ x.entry = e ∧
          x.next = 1 ∧ x.words = data ∧ x.wide = false ∧ PartsKept [.tbl, .red] v t)
    else exec (.mirrorCellReceived c) s = .next
      { s with red := { s.red with rxRound := some (wbits w1 47 16), rxWhole := false } }) ∧
  ∀ (s : State) (c : Cell) (w0 : Word) (g i : Nat) (data : List Word), c.words.length = 20 → w0 = c.words.getD 0 0 →
    wbits w0 47 40 = 7 → g = wbits w0 31 24 → g ≠ 0 → (s.voteGroup g).en = true → (s.voteGroup g).outNode = s.node →
    (s.voteGroup g).source c.f1.toNat = some i → data = (c.words.drop 2).take (wbits w0 36 32 + 1) →
    (s.red.slots = [] → ∃ t y, exec (.voteCellReceived c) s = .next t ∧
      t.red.slots = [(VoteSlot.mk g none none none).put i y] ∧ y.vseq = wbits w0 15 8 ∧ y.claim = wbits w0 23 16 ∧
      y.instant = (c.words.getD 1 0).toNat ∧ y.cells = [wbits w0 7 0] ∧
      (∀ j, j < data.length → Tab.get 0 y.words (18 * wbits w0 7 0 + j) = data.getD j 0) ∧ Frame [.red] [] s t) ∧
    (16 ≤ (s.red.slots.filter (fun (x : VoteSlot) => x.group != g)).length →
      s.red.dropped ≠ some (g, i, wbits w0 15 8) → exec (.voteCellReceived c) s = .next
        ({ s with red := { s.red with dropped := some (g, i, wbits w0 15 8) } }.raise Kind.RED_VOTE_FULL g))

/-- VOTE_GROUP_COMMIT commits sources and definition to the selected group. KING_POST_WRITE with KPLOCK clear
sets all three copies of the claim and of the guardian slot base, and of a node number other than 0 and
0xFFFF; MGT_MODE is read-only; locked, nothing changes. KP_SCRUB where every register has an agreeing pair
rewrites all copies with the agreed values and keeps the mode; each register with a disagreeing copy is
reported with KP_REPAIR. Of one register without a pair, beside MGT_MODE, a single intact copy is taken for
all three with KP_WEAK; else the register is stuck, KEYSTONE holds and an operating hub enters Hold. KP_TEST
in Commission flips one stored bit of one copy and keeps the last agreed value; with a reserved operand or
in another mode it raises RED_CONFIG. (13_redundancy.md R422, R425, R426, R427, R428, 18_register_map.md
R522) -/
def Obligations.KingPostsVoteAndGroupsCommit : Prop :=
  (∀ (s : State) (v : Word) (g : VoteGroup), g = .mk (s.get RED_VGSRC.SRC0) (s.get RED_VGSRC.SRC1) (s.get RED_VGSRC.SRC2) v.toNat →
    ∃ t, exec (.voteGroupCommit v) s = .next t ∧ t.voteGroup (s.get RED_VGSEL.GROUP) = g ∧
      (∀ j, j ≠ s.get RED_VGSEL.GROUP → t.voteGroup j = s.voteGroup j) ∧ t.get RED_VGCFG.OUTNODE = g.outNode ∧
      t.get RED_VGCFG.OUTCH = g.outCh ∧ t.get RED_VGCFG.WIN = g.win ∧ t.get RED_VGCFG.NOMAJ = g.nomaj.toNat ∧
      t.get RED_VGCFG.EN = g.en.toNat ∧ { t.red with groups := s.red.groups } = s.red ∧
      Frame [.red] [RED_VGCFG.OUTNODE, RED_VGCFG.OUTCH, RED_VGCFG.WIN, RED_VGCFG.NOMAJ, RED_VGCFG.EN] s t) ∧
  (∀ (s : State) (v : Word),
    (∀ (r : Fin 5), s.kpLocked = true → exec (.kingPostWrite r v) s = .next s) ∧
    (s.kpLocked = false →
      exec (.kingPostWrite 0 v) s = .next s ∧
      (∃ t, exec (.kingPostWrite 1 v) s = .next t ∧ if wbits v 15 0 = 0 ∨ wbits v 15 0 = 0xFFFF then t = s
        else t.node = wbits v 15 0 ∧ t.kp 1 = KpReg.of (word (wbits v 15 0)) ∧ (∀ j, j ≠ 1 → t.kp j = s.kp j) ∧
          t.inCause Kind.KEYSTONE 0x31 = false ∧ Frame [.kp, .flt] [] s t) ∧
      (∃ t, exec (.kingPostWrite 2 v) s = .next t ∧ t.claim = wbits v 7 0 ∧ t.kp 2 = KpReg.of (word (wbits v 7 0)) ∧
        (∀ j, j ≠ 2 → t.kp j = s.kp j) ∧ t.inCause Kind.KEYSTONE 0x32 = false ∧ Frame [.kp, .flt] [] s t) ∧
      ∃ t, exec (.kingPostWrite 3 v) s = .next t ∧ t.kp 3 = KpReg.of (word (wbits v 15 0)) ∧
        (∀ j, j ≠ 3 → t.kp j = s.kp j) ∧ t.gslot = (if wbits v 15 0 = 0 then s.node else wbits v 15 0) ∧
        t.inCause Kind.KEYSTONE 0x33 = false ∧ Frame [.kp, .flt] [] s t)) ∧
  (∀ (s : State) (v : Nat → Word), (∀ i, i < 5 → (s.kp i).agreed = some (v i)) → (s.kp 0).stuck = false →
    ∃ t, exec .kpScrub s = .next t ∧ (∀ i, i < 5 → t.kp i = KpReg.of (v i)) ∧ t.mode = s.mode ∧
      (∀ i, i < 5 → t.inCause Kind.KEYSTONE (0x30 + i) = false) ∧
      (∀ i, i < 5 → ((s.kp i).a.read ≠ some (v i) → ∃ r ∈ t.flt.reports, r.kind = Kind.KP_REPAIR ∧ r.addr = i) ∧
        ((s.kp i).a.read = some (v i) → (s.kp i).b.read ≠ some (v i) →
          ∃ r ∈ t.flt.reports, r.kind = Kind.KP_REPAIR ∧ r.addr = 16 + i) ∧
        ((s.kp i).a.read = some (v i) → (s.kp i).b.read = some (v i) → (s.kp i).c.read ≠ some (v i) →
          ∃ r ∈ t.flt.reports, r.kind = Kind.KP_REPAIR ∧ r.addr = 32 + i)) ∧
      Frame [.kp, .flt] [RED_KPSTAT.LASTREG, RED_KPSTAT.LASTCOPY, RED_KPSTAT.LASTRES, RED_KPSTAT.REPAIRS] s t) ∧
  (∀ (s : State) (i : Nat) (r : KpReg), 1 ≤ i → i < 5 → r = s.kp i → r.agreed = none →
    (∀ j, j < 5 → j ≠ i → (s.kp j).agreed.isSome = true) → (s.kp 0).stuck = false →
    ∃ t, exec .kpScrub s = .next t ∧
      match [r.a.read, r.b.read, r.c.read].filterMap id with
      | [v] => t.kp i = KpReg.of v ∧ t.mode = s.mode ∧ t.inCause Kind.KEYSTONE (0x30 + i) = false ∧
          ∃ x ∈ t.flt.reports, x.kind = Kind.KP_WEAK ∧ x.addr = (if r.a.read = some v then 16 + i else i)
      | _ => t.kp i = { r with stuck := true } ∧ t.inCause Kind.KEYSTONE (0x30 + i) = true ∧
          t.mode = if s.operating then mHold else s.mode) ∧
  ∀ (s : State) (v : Word) (i c b : Nat), i = wbits v 11 8 → c = wbits v 7 6 → b = wbits v 5 0 →
    if s.mode = mCommission ∧ i < 5 ∧ c < 3 ∧ b < 55
    then i ≠ 0 → ((s.kp 0).stuck = true ∨ (s.kp 0).agreed.isSome = true) →
      ∃ t m, exec (.kpTest v) s = .next t ∧ m = BitVec.ofNat 55 (2 ^ b) ∧
        (t.kp i).a = (if c = 0 then { (s.kp i).a with flips := (s.kp i).a.flips ^^^ m } else (s.kp i).a) ∧
        (t.kp i).b = (if c = 1 then { (s.kp i).b with flips := (s.kp i).b.flips ^^^ m } else (s.kp i).b) ∧
        (t.kp i).c = (if c = 2 then { (s.kp i).c with flips := (s.kp i).c.flips ^^^ m } else (s.kp i).c) ∧
        (t.kp i).last.toNat = (s.kp i).value ∧ (t.kp i).stuck = (s.kp i).stuck ∧ (∀ j, j < 5 → j ≠ i → t.kp j = s.kp j) ∧
        Frame [.kp] [] s t
    else exec (.kpTest v) s = .next (s.raise Kind.RED_CONFIG 0)

/-- FEED_ON of an OFF or locked-out feed whose inrush fits its group's budget and whose curve is in order queues
it, else FEED_CONFIG; in another state it stays. FEED_OFF switches it off with cause 1. FEED_ADMISSION takes
the head of a group's queue into PRECHARGE where its inrush fits beside the group's load, the board supply
holds and the mode is not Recovery. PRECHARGE_DONE at the threshold starts GATING with the accumulator 0;
FEED_UP ends in ON. PRECHARGE_FAIL after PRETO and GATE_FAIL after GATETO lock out with causes 4 and 5 and
count. GATE_LOST of an ON feed (cause 6), FEED_SHORT above INST (cause 3) and the CURRENT_SAMPLE that fills
the trip accumulator (cause 2) count, report, and go to BACKOFF for BACKOFF doubled per retry, or to LOCKOUT
with FEED_LOCKOUT in cause. A sample that does not trip adds its energy. BACKOFF_END queues the feed again,
RETRY_RESET clears RETRY after 60 s. (14_feeds_and_supply.md R432, R433, R434, R435, R436, R437, R438, R439,
R440, 15_faults.md R459) -/
def Obligations.FeedsStartTripAndRetry : Prop :=
  (∀ (s : State) (f : Fin 32), s.get (FEED_CTL.HOLDOFF f.val) < 2 → s.get (FEED_CTL.PRIO f.val) < 8 →
    (∃ t, exec (.feedOn f) s = .next t ∧
      if s.feedState f.val = fdOFF ∨ s.feedState f.val = fdLOCKOUT
      then (s.feedState f.val = fdLOCKOUT → t.get (FEED_STAT.RETRY f.val) = 0) ∧
        if s.get (FEED_CFG.INRUSH f.val) ≤ s.get (SUP_GRP.BUDGET (s.get (FEED_CFG.GROUP f.val))) ∧
          curveOk (s.curve f.val) = true
        then t.feedState f.val = fdQUEUED ∧ t.sup.govQ = s.sup.govQ.filter (fun x => x != f.val) ++ [f.val] ∧
          t.inCause Kind.FEED_LOCKOUT f.val = false ∧
          (∀ g, g < 4 → t.get (SUP_GSTAT.USED g) = t.groupLoad g % 2 ^ 16) ∧
          Frame [.feeds, .sup, .flt] ([FEED_CTL.HOLDOFF f.val, FEED_CTL.PRIO f.val, FEED_STAT.STATE f.val,
            FEED_STAT.RETRY f.val] ++ governorShown) s t
        else t.feedState f.val = s.feedState f.val ∧ t.flt = (s.raise Kind.FEED_CONFIG f.val).flt
      else t.feedState f.val = s.feedState f.val ∧ t.feeds = s.feeds ∧ t.sup = s.sup ∧ t.flt = s.flt) ∧
    (∃ t, exec (.feedOff f) s = .next t ∧ t.feedState f.val = fdOFF ∧ t.get (FEED_STAT.CAUSE f.val) = 1 ∧
      t.sup.govQ = s.sup.govQ.filter (fun x => x != f.val) ∧ t.inCause Kind.FEED_LOCKOUT f.val = false ∧
      t.flt.reports = s.flt.reports ∧
      Frame [.feeds, .sup, .flt] ([FEED_CTL.HOLDOFF f.val, FEED_CTL.PRIO f.val, FEED_STAT.STATE f.val,
        FEED_STAT.CAUSE f.val] ++ governorShown) s t)) ∧
  (∀ (s : State) (g : Fin 4) (f : Nat) (rest : List Nat), s.groupQueue g.val = f :: rest →
    if s.bit SUP_STAT.BELOW 6 = false ∧ s.mode ≠ mRecovery ∧
      s.groupLoad g.val + s.get (FEED_CFG.INRUSH f) ≤ s.get (SUP_GRP.BUDGET g.val)
    then ∃ t, exec (.feedAdmission g) s = .next t ∧ t.feedState f = fdPRECHARGE ∧ (t.feed f).phaseAt = s.now ∧
      f ∉ t.sup.govQ ∧ (∀ x, x ≠ f → (x ∈ t.sup.govQ ↔ x ∈ s.sup.govQ)) ∧ t.flt.reports = s.flt.reports ∧
      Frame [.feeds, .sup, .flt] (FEED_STAT.STATE f :: governorShown) s t
    else exec (.feedAdmission g) s = .next s) ∧
  (∀ (s : State) (f : Fin 32) (x : Feed) (code : BitVec 12) (uv : Nat), x = s.feed f.val → uv = code.toNat * s.get (FEED_SCALE.VSCALE f.val) →
    (s.feedState f.val = fdPRECHARGE →
      (∃ t, exec (.prechargeDone f code) s = .next t ∧ t.get (FEED_MEAS.V f.val) = uv / 1000 % 2 ^ 24 ∧
        if s.get (FEED_CFG.PRE_THRESH f.val) * 1000 ≤ uv
        then t.feedState f.val = fdGATING ∧ t.feed f.val = { x with vcode := code.toNat, phaseAt := s.now, acc := 0 }
        else t.feed f.val = { x with vcode := code.toNat } ∧ Frame [.feeds] [FEED_MEAS.V f.val] s t) ∧
      ∃ t, exec (.prechargeFail f) s = .next t ∧
        t.now = max s.now (x.phaseAt + msTicks (s.get (FEED_TIME.PRETO f.val))) ∧ t.feedState f.val = fdLOCKOUT ∧
        t.get (FEED_STAT.CAUSE f.val) = 4 ∧
        t.get (FEED_CNT.PREFAIL f.val) = min (s.get (FEED_CNT.PREFAIL f.val) + 1) (2 ^ 16 - 1) ∧
        (∃ r ∈ t.flt.reports, r.kind = Kind.PRECHARGE_FAIL ∧ r.addr = f.val) ∧
        PartsKept [.clock, .cyc, .feeds, .sup, .flt] s t) ∧
    (s.feedState f.val = fdGATING →
      (∃ t, exec (.feedUp f) s = .next t ∧ t.feedState f.val = fdON ∧ t.feed f.val = { x with phaseAt := s.now } ∧
        (∃ r ∈ t.flt.reports, r.kind = Kind.FEED_UP ∧ r.addr = f.val) ∧
        Frame [.feeds, .sup, .flt] (FEED_STAT.STATE f.val :: governorShown) s t) ∧
      ∃ t, exec (.gateFail f) s = .next t ∧
        t.now = max s.now (x.phaseAt + usTicks (10 * s.get (FEED_TIME.GATETO f.val))) ∧ t.feedState f.val = fdLOCKOUT ∧
        t.get (FEED_STAT.CAUSE f.val) = 5 ∧
        t.get (FEED_CNT.PREFAIL f.val) = min (s.get (FEED_CNT.PREFAIL f.val) + 1) (2 ^ 16 - 1) ∧
        (∃ r ∈ t.flt.reports, r.kind = Kind.GATE_FAIL ∧ r.addr = f.val) ∧
        PartsKept [.clock, .cyc, .feeds, .sup, .flt] s t)) ∧
  (∀ (s : State) (f : Fin 32) (c : Instr) (icode vcode : BitVec 12) (cause : Nat) (k : Kind) (cnt : Field) (ua r : Nat),
    ua = icode.toNat * s.get (FEED_SCALE.ISCALE f.val) → r = s.get (FEED_STAT.RETRY f.val) →
    (c = .gateLost f ∧ cause = 6 ∧ k = Kind.GATE_LOST ∧ cnt = FEED_CNT.TRIPS f.val ∧ s.feedState f.val = fdON ∨
      (s.feedState f.val = fdGATING ∨ s.feedState f.val = fdON) ∧
        (c = .feedShort f icode ∧ cause = 3 ∧ k = Kind.FEED_SHORT ∧ cnt = FEED_CNT.SHORTS f.val ∧
            s.get (FEED_TRIP.INST f.val) < icode.toNat ∨
          c = .currentSample f icode vcode ∧ cause = 2 ∧ k = Kind.FEED_TRIP ∧ cnt = FEED_CNT.TRIPS f.val ∧
            2 ^ 32 ≤ nextAcc (s.curve f.val) (s.feed f.val).acc ua)) →
    ∃ t, exec c s = .next t ∧ t.get (FEED_STAT.CAUSE f.val) = cause ∧
      t.get cnt = min (s.get cnt + 1) (2 ^ 16 - 1) ∧ (∃ x ∈ t.flt.reports, x.kind = k ∧ x.addr = f.val) ∧
      (if r < s.get (FEED_TRIP.RETRIES f.val)
        then t.feedState f.val = fdBACKOFF ∧ t.get (FEED_STAT.RETRY f.val) = (r + 1) % 16 ∧
          (t.feed f.val).phaseAt = s.now + msTicks (s.get (FEED_TIME.BACKOFF f.val) * 2 ^ r)
        else t.feedState f.val = fdLOCKOUT ∧ t.inCause Kind.FEED_LOCKOUT f.val = true) ∧
      PartsKept [.feeds, .sup, .flt] s t) ∧
  (∀ (s : State) (f : Fin 32) (icode vcode : BitVec 12) (x : Feed) (ua uv : Nat), x = s.feed f.val →
    ua = icode.toNat * s.get (FEED_SCALE.ISCALE f.val) → uv = vcode.toNat * s.get (FEED_SCALE.VSCALE f.val) →
    (s.feedState f.val = fdGATING ∨ s.feedState f.val = fdON → nextAcc (s.curve f.val) x.acc ua < 2 ^ 32) →
    ∃ t, exec (.currentSample f icode vcode) s = .next t ∧ t.get (FEED_MEAS.I f.val) = ua / 1000 % 2 ^ 24 ∧
      t.get (FEED_MEAS.V f.val) = uv / 1000 % 2 ^ 24 ∧
      t.feed f.val = { x with
        vcode := vcode.toNat, sum := x.sum + ua * uv
        acc := if s.feedState f.val = fdGATING ∨ s.feedState f.val = fdON then nextAcc (s.curve f.val) x.acc ua
          else x.acc } ∧
      (∀ j, j ≠ f.val → t.feed j = s.feed j) ∧ Frame [.feeds] [FEED_MEAS.I f.val, FEED_MEAS.V f.val] s t) ∧
  ∀ (s : State) (f : Fin 32),
    (s.feedState f.val = fdBACKOFF → ∃ t, exec (.backoffEnd f) s = .next t ∧ t.now = max s.now (s.feed f.val).phaseAt ∧
      t.feedState f.val = fdQUEUED ∧ t.sup.govQ = s.sup.govQ.filter (fun x => x != f.val) ++ [f.val] ∧
      PartsKept [.clock, .cyc, .feeds, .sup, .flt] s t) ∧
    (s.feedState f.val = fdON → ∃ t, exec (.retryReset f) s = .next t ∧
      t.now = max s.now ((s.feed f.val).phaseAt + msTicks 60000) ∧ t.get (FEED_STAT.RETRY f.val) = 0 ∧
      t.feedState f.val = fdON ∧ PartsKept [.clock, .cyc] s t)

/-- PERIOD_END runs the clock to the period's end; each feed's energy goes to its total and to the tariff in
force, the mean power is shown, to the nearest milliwatt as the worked example of R453 has it (log entry
124), an interval that is due or was asked for closes, else ELAPSED counts, a due one raising the maximum
demand, and a requested tariff takes effect. TARIFF_REQUEST registers the tariff, DSYNC asks for a close,
CLRMAX clears the maximum demand. The first SUPPLY_WARN of a supervised input shows it, settles all feeds
and begins to write their record under the next LGSEQ. LASTGASP_DONE within 600 µs stores it in the slot
that does not hold the newest record and shows how long it took, later it has failed; LASTGASP_FAIL ends it,
after 600 µs or with the port's failure. SUPPLY_INPUT_RECOVERY ends the warning of an input or of a bank
rail, SUPPLY_OK all of them. BANK_WARN of a powered bank shows it and comes into cause. CHECKPOINT runs the
clock to its period and stores a record of kind 0 in the same way. (14_feeds_and_supply.md R443, R444, R445,
R447, R448, R449, R450, R452, 16_lifecycle.md R489, R491) -/
def Obligations.EnergyAccountsAndSupplySupervision : Prop :=
  (∀ (s : State), ∃ t, exec .periodEnd s = .next t ∧ t.now = max s.now (s.sup.periodAt + 1562500) ∧ t.sup.periodAt = t.now ∧
    ∀ (f : Nat) (x : Feed) (mj tar el : Nat), f < 32 → x = s.feed f → mj = (x.carry + x.sum) / 10 ^ 15 →
      tar = s.get (FEED_TSEL.TARIFF f) → tar < 4 → el = s.get (FEED_DEMAND.ELAPSED f) + 1 →
      t.get (FEED_ENERGY.E f) = (s.get (FEED_ENERGY.E f) + mj) % 2 ^ 48 ∧
      t.get (FEED_TARIFF.E f tar) = (s.get (FEED_TARIFF.E f tar) + mj) % 2 ^ 48 ∧
      (∀ j, j < 4 → j ≠ tar → t.get (FEED_TARIFF.E f j) = s.get (FEED_TARIFF.E f j)) ∧
      t.get (FEED_POWER.P f) = meanOver x.sum (10 ^ 12) % 2 ^ 32 ∧ t.get (FEED_TSEL.TARIFF f) = x.tarReq.getD tar % 4 ∧
      (t.feed f).sum = 0 ∧ (t.feed f).carry = (x.carry + x.sum) % 10 ^ 15 ∧ (t.feed f).tarReq = none ∧
      if x.mins * 60000 ≤ el ∨ x.dsync = true
      then t.get (FEED_DEMAND.ELAPSED f) = 0 ∧ (t.feed f).interval = 0 ∧ (t.feed f).dsync = false ∧
        (t.feed f).mins = s.get (FEED_DEMAND.MIN f) ∧ t.get (FEED_LASTINT.E f) = (x.interval + mj) % 2 ^ 35 ∧ t.get (FEED_LASTINT.DUR f) = el / 1000 % 2 ^ 12 ∧
        t.get (FEED_LASTINT.PARTIAL f) = (if x.mins * 60000 ≤ el then 0 else 1) ∧
        (x.mins * 60000 ≤ el → s.get (FEED_MAXDEM.P f) < meanOver ((x.interval + mj) * 1000) el →
          t.get (FEED_MAXDEM.P f) = meanOver ((x.interval + mj) * 1000) el % 2 ^ 32 ∧ t.get (FEED_MAXDEM.TARIFF f) = tar)
      else t.get (FEED_DEMAND.ELAPSED f) = el % 2 ^ 24 ∧ (t.feed f).interval = x.interval + mj) ∧
  (∀ (s : State) (f : Fin 32) (v : Word),
    exec (.tariffRequest f v) s = .next (s.setFeed f.val { s.feed f.val with tarReq := some (wbits v 1 0 % 4) }) ∧
    (s.get (FEED_CTL.HOLDOFF f.val) < 2 → s.get (FEED_CTL.PRIO f.val) < 8 →
      (∃ t, exec (.dsync f) s = .next t ∧ t.feed f.val = { s.feed f.val with dsync := true } ∧
        (∀ j, j ≠ f.val → t.feed j = s.feed j) ∧ t.get (FEED_CTL.HOLDOFF f.val) = s.get (FEED_CTL.HOLDOFF f.val) ∧
        t.get (FEED_CTL.PRIO f.val) = s.get (FEED_CTL.PRIO f.val) ∧
        Frame [.feeds] ([FEED_CTL.HOLDOFF f.val, FEED_CTL.PRIO f.val] ++ governorShown) s t) ∧
      ∃ t, exec (.clrmax f) s = .next t ∧ t.get (FEED_MAXDEM.P f.val) = 0 ∧ t.get (FEED_MAXDEM.TARIFF f.val) = 0 ∧
        Frame [] ([FEED_CTL.HOLDOFF f.val, FEED_CTL.PRIO f.val, FEED_MAXDEM.P f.val, FEED_MAXDEM.TARIFF f.val]
          ++ governorShown) s t)) ∧
  (∀ (s : State) (i : Fin 7), (i.val = 6 → s.on SUP_CTL.SMEN = true) → s.get SUP_STAT.BELOW = 0 → s.sup.writing = none →
    ∃ t r, exec (.supplyWarn i) s = .next t ∧ t.get SUP_STAT.BELOW = 2 ^ i.val ∧ t.bit SUP_LATCH.SEEN i.val = true ∧
      t.inCause Kind.SUPPLY_WARN i.val = true ∧ t.get SUP_STAT.LGST = 1 ∧ t.now = s.now ∧
      t.sup = { s.sup with periodAt := s.now, writing := some (s.now, r), okDue := true } ∧ r.kind = 1 ∧
      r.lgseq = (s.mgt.lgseq + 1) % 256 ∧ r.gen = s.gen ∧ r.ticks = s.ticks ∧
      r.feeds = (List.range 32).map (fun f => t.retFeed f (t.snapFlags f)) ∧
      (∀ f, f < 32 → t.get (FEED_SNAP.WARN f) = 1 ∧ t.get (FEED_SNAP.LGSEQ f) = r.lgseq ∧
        t.get (FEED_SNAP.TARIFFSW f) = (s.feed f).tarReq.isSome.toNat ∧ (t.feed f).sum = 0) ∧
      PartsKept [.feeds, .sup, .flt] s t) ∧
  (∀ (s : State) (start port : Nat) (r : Retention), s.sup.writing = some (start, r) → port = s.get SPR_STAT.NVUSE % 2 →
    (start + usTicks 600 < s.now → ∃ t, exec .lastgaspDone s = .next t ∧ t.sup = { s.sup with writing := none } ∧
      t.get SUP_STAT.LGST = 3 ∧ t.flt = (s.raise Kind.LASTGASP_FAIL 0).flt ∧ Frame [.sup, .flt] [SUP_STAT.LGST] s t) ∧
    (s.now ≤ start + usTicks 600 →
      ∃ t, exec .lastgaspDone s = .next t ∧ t.sup = { s.sup with writing := none } ∧ t.get SUP_STAT.LGST = 2 ∧
      t.get SUP_LGTIME.US = (s.now - start) * 2 / 3125 % 2 ^ 20 ∧ t.get SUP_LGTIME.LGSEQ = r.lgseq % 256 ∧
      Tab.get none t.mgt.slots (2 * port + (if s.newestSlot port = some 0 then 1 else 0)) = some r ∧
      t.mgt.lgseq = r.lgseq ∧ { t.mgt with slots := s.mgt.slots, lgseq := s.mgt.lgseq } = s.mgt ∧ t.flt = (s.raise Kind.LASTGASP_DONE 0).flt ∧
      Frame [.sup, .mgt, .flt] [SUP_STAT.LGST, SUP_LGTIME.US, SUP_LGTIME.LGSEQ] s t) ∧
    (∃ t, exec (.lastgaspFail false) s = .next t ∧ t.now = max s.now (start + usTicks 600) ∧
      t.sup = { s.sup with writing := none } ∧ t.get SUP_STAT.LGST = 3 ∧ t.mgt = s.mgt ∧
      (∃ x ∈ t.flt.reports, x.kind = Kind.LASTGASP_FAIL) ∧ PartsKept [.clock, .cyc, .sup, .flt] s t) ∧
    ∃ t, exec (.lastgaspFail true) s = .next t ∧ t.now = s.now ∧ t.sup = { s.sup with writing := none } ∧
      t.get SUP_STAT.LGST = 3 ∧ t.bit SPR_STAT.NVOK port = false ∧
      (s.bit SPR_STAT.NVOK (1 - port) = true → s.get SPR_STAT.NVUSE < 2 → t.get SPR_STAT.NVUSE = 1 - port ∧
        ∃ x ∈ t.flt.reports, x.kind = Kind.NV_SWITCH ∧ x.addr = port) ∧
      (∃ x ∈ t.flt.reports, x.kind = Kind.LASTGASP_FAIL) ∧
      Frame [.sup, .flt] [SUP_STAT.LGST, SPR_STAT.NVOK, SPR_STAT.NVUSE] s t) ∧
  (∀ (s : State),
    (∀ (i : Fin 39), ∃ t, exec (.supplyInputRecovery i) s = .next t ∧ t.flt.reports = s.flt.reports ∧
      if i.val < 7 then t.bit SUP_STAT.BELOW i.val = false ∧ t.inCause Kind.SUPPLY_WARN i.val = false ∧
        Frame [.flt] [SUP_STAT.BELOW] s t
      else t.bit SUP_BANKST.BELOW (i.val - 7) = false ∧ t.inCause Kind.BANK_WARN (i.val + 25) = false ∧
        Frame [.flt] [SUP_BANKST.BELOW] s t) ∧
    (s.sup.okDue = true → ∃ t, exec .supplyOk s = .next t ∧ t.get SUP_STAT.BELOW = 0 ∧
      (∀ i, i < 7 → t.inCause Kind.SUPPLY_WARN i = false) ∧ t.sup = { s.sup with okDue := false } ∧
      t.flt.reports = (s.raise Kind.SUPPLY_OK 0).flt.reports ∧ Frame [.sup, .flt] [SUP_STAT.BELOW] s t) ∧
    (s.sup.okDue = false → exec .supplyOk s = .next s) ∧
    (∀ (b : Fin 32), if s.get (BAY_CTL.BANK b.val) = 0 then exec (.bankWarn b) s = .next s
      else ∃ t, exec (.bankWarn b) s = .next t ∧ t.bit SUP_BANKST.BELOW b.val = true ∧
        t.inCause Kind.BANK_WARN (32 + b.val) = true ∧ Frame [.flt] [SUP_BANKST.BELOW] s t)) ∧
  ∀ (s : State) (port : Nat), s.get SUP_CKPT.MIN ≠ 0 → s.sup.writing = none → port = s.get SPR_STAT.NVUSE % 2 →
    ∃ t r, exec .checkpoint s = .next t ∧ t.now = max s.now (s.sup.ckptAt + msTicks (s.get SUP_CKPT.MIN * 60000)) ∧
      t.sup = { s.sup with ckptAt := t.now } ∧ r.kind = 0 ∧ r.lgseq = (s.mgt.lgseq + 1) % 256 ∧
      r.feeds = (List.range 32).map (fun f => t.retFeed f 0) ∧ t.get SUP_LGTIME.LGSEQ = r.lgseq ∧
      Tab.get none t.mgt.slots (2 * port + (if s.newestSlot port = some 0 then 1 else 0)) = some r ∧
      PartsKept [.clock, .cyc, .sup, .mgt] s t

/-- FAULT_REPORT with no summary waiting takes the next report: it sets the sticky bit of a defined kind; the
first of its source and kind in the basic cycle, in a tick with room, is recorded at slot TOTAL mod 32 with
repeat 1, TOTAL and NEXT move on, it waits for forwarding where a node is set and its class is due, and a
critical one of an enabled source, SYNC_LOST apart, takes an operating hub to Hold; another one folds,
without history, and counts in FOLDX where only the want of room kept it from being recorded. SUMMARY_DRAIN
of one waiting summary records it and never requests Hold. STICKY_CLEAR clears exactly the bits written with
1, and CLRALL clears all; the bit of a level kind whose cause persists sets again in the next tick with a
new report, else no time passes; history, folds, causes and mode stay. FORWARDED_MESSAGE_RECEIVED with RXEN
joins the remote queue, is dropped and counted where it is full, and without RXEN vanishes; it sets no
sticky bit. (15_faults.md R459, R460, R461, R462, R463, R464, R465, R467, R470, R471) -/
def Obligations.ReportsAreRecordedFoldedAndForwarded : Prop :=
  (∀ (s : State) (r : Report) (msg : Msg) (total : Nat), s.flt.nextReport = some r → s.flt.summaries = [] →
    msg = .mk r 1 → total = s.get FLT_HPTR.TOTAL →
    ∃ t, exec .faultReport s = .next t ∧ t.now = s.now ∧
      (r.kind.isDefined = true → t.bit (FLT_STK.KIND r.kind.src (r.kind.kind / 48)) (r.kind.kind % 48) = true) ∧
      if Tab.get 0 s.flt.recCycle r.kind.key ≠ s.cyc.ncyc + 1 ∧ s.slotsUsed < 16
      then t.flt.history = Tab.put Msg.empty s.flt.history (total % 32) msg ∧ t.get FLT_HPTR.TOTAL = (total + 1) % 2 ^ 32 ∧
        t.get FLT_HPTR.NEXT = (total + 1) % 32 ∧ Tab.get 0 t.flt.recCycle r.kind.key = s.cyc.ncyc + 1 ∧
        t.flt.fold = s.flt.fold ∧ t.slotsUsed = s.slotsUsed + 1 ∧
        (s.get FLT_FWD.NODE ≠ 0 → s.get FLT_FWD.CLASSMIN ≤ r.kind.cls → s.flt.fwdQ.length < 32 →
          t.flt.fwdQ = s.flt.fwdQ ++ [msg]) ∧
        (s.get FLT_FWD.NODE = 0 → t.flt.fwdQ = s.flt.fwdQ) ∧
        t.mode = (if r.kind.cls = 3 ∧ r.kind ≠ Kind.SYNC_LOST ∧ s.bit FLT_HOLDEN.SRC (r.kind.src - 1) = true ∧
          s.operating = true then mHold else s.mode) ∧
        (r.kind.cls ≠ 3 → t.flt.reports = s.flt.reports.erase r ∧ t.flt.causes = s.flt.causes ∧
          PartsKept [.flt, .out] s t)
      else t.flt = { s.flt with
          reports := s.flt.reports.erase r
          fold := Tab.put 0 s.flt.fold r.kind.key (min (Tab.get 0 s.flt.fold r.kind.key + 1) 0xFFFF)
          last := Tab.put Msg.empty.report s.flt.last r.kind.key r } ∧
        t.get FLT_CNT.FOLDX = (if Tab.get 0 s.flt.recCycle r.kind.key = s.cyc.ncyc + 1 then s.get FLT_CNT.FOLDX
          else min (s.get FLT_CNT.FOLDX + 1) (2 ^ 16 - 1)) ∧
        Frame [.flt] [FLT_CNT.FOLDX, FLT_STK.KIND r.kind.src (r.kind.kind / 48)] s t) ∧
  (∀ (s : State) (m : Msg) (total : Nat), s.flt.summaries = [m] → s.slotsUsed < 16 → total = s.get FLT_HPTR.TOTAL →
    ∃ t, exec .summaryDrain s = .next t ∧ t.flt.summaries = [] ∧ t.mode = s.mode ∧
      t.flt.history = Tab.put Msg.empty s.flt.history (total % 32) m ∧ t.get FLT_HPTR.TOTAL = (total + 1) % 2 ^ 32 ∧
      t.flt.reports = s.flt.reports ∧ PartsKept [.flt, .out] s t) ∧
  (∀ (s : State) (src : Fin 16) (j : Fin 6) (v : Word) (again : Bool),
    again = (List.range 48).any (fun i => s.bit (FLT_STK.KIND (src.val + 1) j.val) i && v.getLsbD i &&
      s.flt.causes.any (fun c => c.kind == Kind.mk (src.val + 1) (48 * j.val + i))) →
    ∃ t, exec (.stickyClear src j v) s = .next t ∧ t.now = s.now + (if again then 1 else 0) ∧
      (∀ i, i < 48 → 48 * j.val + i < 256 → (Kind.mk (src.val + 1) (48 * j.val + i)).isDefined = true →
        t.bit (FLT_STK.KIND (src.val + 1) j.val) i = (s.bit (FLT_STK.KIND (src.val + 1) j.val) i &&
          (!v.getLsbD i || s.flt.causes.any (fun c => c.kind == Kind.mk (src.val + 1) (48 * j.val + i))))) ∧
      (∀ i, i < 48 → s.bit (FLT_STK.KIND (src.val + 1) j.val) i = true → v.getLsbD i = true →
        ∀ c, s.lowestCause (Kind.mk (src.val + 1) (48 * j.val + i)) = some c →
          ∃ r ∈ t.flt.reports, r.kind = c.kind ∧ r.addr = c.addr) ∧
      { t.flt with reports := s.flt.reports } = s.flt ∧ PartsKept [.clock, .cyc, .flt] s t ∧
      (again = false → t.flt = s.flt ∧ Frame [] [FLT_STK.KIND (src.val + 1) j.val] s t)) ∧
  (∀ (s : State) (held : Kind → Bool), (∀ k, held k = (Kind.levels.contains k && s.bit (FLT_STK.KIND k.src (k.kind / 48)) (k.kind % 48) &&
      s.flt.causes.any (fun c => c.kind == k))) →
    ∃ t, exec .clrall s = .next t ∧ t.now = s.now + (if Kind.levels.any held then 1 else 0) ∧
      (∀ src j i, 1 ≤ src → src ≤ 16 → j < 6 → i < 48 →
        t.bit (FLT_STK.KIND src j) i = held (Kind.mk src (48 * j + i))) ∧
      { t.flt with reports := s.flt.reports } = s.flt ∧ t.mode = s.mode ∧
      (Kind.levels.any held = false → t.flt = s.flt) ∧ PartsKept [.clock, .cyc, .flt] s t) ∧
  ∀ (s : State) (c : Cell) (ws : List Word), c.words.length = 20 → ws = c.words → wbits (ws.getD 0 0) 47 40 = 8 →
    (s.on FLT_CTL.RXEN = false → exec (.forwardedMessageReceived c) s = .next s) ∧
    (s.on FLT_CTL.RXEN = true → 64 ≤ s.flt.remoteQ.length →
      exec (.forwardedMessageReceived c) s = .next (s.inc FLT_CNT.RQDROP)) ∧
    (s.on FLT_CTL.RXEN = true → s.flt.remoteQ.length < 64 →
      ∃ t, exec (.forwardedMessageReceived c) s = .next t ∧
        t.flt.remoteQ = s.flt.remoteQ ++ [(wordAt ws 0 % 2 ^ 16,
          Msg.ofRaw (wordAt ws 1 * 2 ^ 80 + wordAt ws 2 * 2 ^ 32 + wordAt ws 3 / 2 ^ 16))] ∧
        t.flt.history = s.flt.history ∧ t.flt.reports = s.flt.reports ∧ t.flt.causes = s.flt.causes ∧
        Frame [.flt, .out] [] s t)

/-- With or without LOCK, which sets KPLOCK: REQUEST_JOIN in Commission with no check running starts the checks
with FAIL 0; REQUEST_HOLD of an operating hub enters Hold; LEAVE_HOLD in Hold, with no critical cause of an
enabled source but SYNC_LOST and no keystone Hold, goes to Join, Shadow or Run as SSTATE and the twin state
say; REQUEST_COMMISSION in Hold, keystone Holds apart, goes to Commission. Else each raises MGT_BAD_CMD and
the mode stays. COMMISSION_CHECKS_DONE shows the failed checks and ends the run; with none the hub enters
Join, else COMMISSION_FAIL. RESET_REQUEST, RESET_INTO_RECOVERY, RESET_N and a SUPPLY_RESET of a supervised
input empty the collector, reset registers, engines and king posts, and keep the program stores, memories
and nonvolatile ports; they show their cause, and RSTBY and STRAP show the inputs. (16_lifecycle.md R474,
R475, R476, R477, R479, R480, R486, 15_faults.md R466, 14_feeds_and_supply.md R447, R451, 00_scope.md R13,
16_lifecycle.md R524) -/
def Obligations.RequestsAndResetsChangeTheMode : Prop :=
  (∀ (s : State) (lock : Bool),
    (∃ t, exec (.requestJoin lock) s = .next t ∧ (lock = true → t.on MGT_STAT.KPLOCK = true) ∧ t.mode = s.mode ∧
      if s.mode = mCommission ∧ s.on MGT_STAT.CHKRUN = false
      then t.get MGT_STAT.CHKRUN = 1 ∧ t.get MGT_CHK.FAIL = 0 ∧
        Frame [.mgt] [MGT_STAT.CHKRUN, MGT_CHK.FAIL, MGT_STAT.KPLOCK] s t
      else t.flt = (s.raise Kind.MGT_BAD_CMD 0).flt ∧ Frame [.mgt, .flt] [MGT_STAT.KPLOCK] s t) ∧
    (∃ t, exec (.requestHold lock) s = .next t ∧ (lock = true → t.on MGT_STAT.KPLOCK = true) ∧
      if s.operating then t.mode = mHold ∧ t.get MGT_STAT.PREVMODE = s.mode ∧ t.mgt.keystoneHold = false ∧
        ∃ r ∈ t.flt.reports, r.kind = Kind.MODE_CHANGE ∧ r.addr = s.mode * 16 + mHold
      else t.mode = s.mode ∧ t.flt = (s.raise Kind.MGT_BAD_CMD 0).flt) ∧
    (∃ t, exec (.leaveHold lock) s = .next t ∧ (lock = true → t.on MGT_STAT.KPLOCK = true) ∧
      if s.mode = mHold ∧ s.holdMayEnd
      then t.mode = (if s.sstate ≠ ssSYNCED then mJoin
        else if s.redSt = rdSTANDBY ∧ s.get RED_CFG.MISS ≤ s.get RED_STAT.MISSCNT then mRun
        else if s.redSt = rdLISTEN ∨ s.redSt = rdSTANDBY ∨ s.redSt = rdRETURNING then mShadow else mRun)
      else t.mode = s.mode ∧ t.flt = (s.raise Kind.MGT_BAD_CMD 0).flt) ∧
    (∃ t, exec (.requestCommission lock) s = .next t ∧ (lock = true → t.on MGT_STAT.KPLOCK = true) ∧
      if s.mode = mHold ∧ s.mgt.keystoneHold = false
      then t.mode = mCommission ∧ t.get MGT_STAT.PREVMODE = mHold ∧ t.get SEQ_CTL.RUN = 0
      else t.mode = s.mode ∧ t.flt = (s.raise Kind.MGT_BAD_CMD 0).flt) ∧
    (∃ t, exec .setLock s = .next t ∧ t.on MGT_STAT.KPLOCK = true ∧ t.mode = s.mode ∧
      Frame [.mgt] [MGT_STAT.KPLOCK] s t)) ∧
  (∀ (s : State) (lanesOk tenonsOk : Bool) (fail : Nat), s.on MGT_STAT.CHKRUN = true → fail = s.failedChecks lanesOk tenonsOk →
    ∃ t, exec (.commissionChecksDone lanesOk tenonsOk) s = .next t ∧ t.get MGT_CHK.FAIL = fail ∧
      t.get MGT_STAT.CHKRUN = 0 ∧
      if fail = 0 then s.on CYC_STAT.JOINOK = false → t.mode = mJoin
      else t.flt = (s.raise Kind.COMMISSION_FAIL fail).flt ∧ Frame [.flt] [MGT_CHK.FAIL, MGT_STAT.CHKRUN] s t) ∧
  ∀ (s : State) (c : Instr) (cause : Nat) (rec lock : Bool) (straps : BitVec 4) (inputs : BitVec 7) (m : Nat),
    m = (if s.on SUP_CTL.SMEN then inputs.toNat else inputs.toNat % 64) →
    (c = .resetRequest lock ∧ cause = 4 ∧ rec = false ∨ c = .resetIntoRecovery lock ∧ cause = 4 ∧ rec = true ∨
      c = .resetN straps ∧ cause = 1 ∧ rec = false ∨ c = .supplyReset inputs ∧ cause = 2 ∧ rec = false ∧ m ≠ 0) →
    ∃ t, exec c s = .next t ∧ t.get MGT_STAT.RSTCAUSE = cause ∧ t.mgt.booting = true ∧ t.mgt.toRecovery = rec ∧
      t.flt = Flt.reset ∧ (∀ i, t.kp i = State.reset.kp i) ∧ t.eng = [] ∧ t.seq = Seq.reset ∧ t.cyc = Cyc.reset ∧
      t.feeds = [] ∧ t.brg = Brg.reset ∧ t.mgt.slots = s.mgt.slots ∧ t.mgt.bcr = s.mgt.bcr ∧ t.mgt.images = s.mgt.images ∧
      (c = .resetN straps → t.get MGT_STRAP.STRAP = straps.toNat ∧ t.get SPR_STAT.REFUSE = straps.toNat % 2) ∧
      (c = .supplyReset inputs → t.get SUP_LATCH.RSTBY = m) ∧
      (∀ g : Field, g.key ∉ [MGT_STAT.RSTCAUSE, MGT_STRAP.STRAP, SUP_LATCH.RSTBY, SPR_CTL.REFSEL, SPR_STAT.REFUSE].map Field.key →
        t.get g = State.reset.get g) ∧
      (∀ p ∈ [Part.clock, .free, .out, .ddr, .host, .heads, .seqStore, .tenStore], p.same s t) ∧ t.pending = s.pending

/-- BOOT after a reset without strap 1 and not into Recovery, with the active bank of the first port verified
and no trial: Commission, with port, bank and version shown, MODE_CHANGE from 7 before any other report, and
the newest retention record restored into the feeds' energy, or RETAIN_NONE; with no verified image, with
strap 1 or asked into Recovery it enters Recovery. ENTROPY_READY makes the pool ready and lets a waiting hub
leave Join; RNG_HEALTH empties it and reports; ENTROPY 50 ms after the reset reports a pool that is not
ready. REFERENCE_LOSS shows the reference lost, switches from it to a good other one, else the PLL holds
over; with none good REF_NONE holds. REFERENCE_RETURN ends those causes and a holdover. ROW_REPAIR_GO of an
idle unit arms a free spare row of the bank, else NO_SPARE_ROW; SRAM_REPAIRED ends the copy and the repair
is in force. NV_SWITCH marks the port failed and moves to the other where that is good. (16_lifecycle.md
R475, R482, R485, R487, R488, R489, R490, R491, 14_feeds_and_supply.md R453) -/
def Obligations.BootEntropyReferencesAndSpareRows : Prop :=
  (∀ (s : State) (verified : BitVec 4) (port : Nat) (b : Bcr), s.mgt.booting = true →
    port = (s.bit MGT_STRAP.STRAP 2).toNat → b = s.bootRecord port →
    (s.bit MGT_STRAP.STRAP 1 = false → s.mgt.toRecovery = false → b.trial = false →
      verified.getLsbD (2 * port + b.active.toNat) = true →
      ∃ t, exec (.boot verified) s = .next t ∧ t.mode = mCommission ∧ t.get MGT_STAT.PREVMODE = 7 ∧
        t.get MGT_STAT.BOOTPORT = port ∧ t.get MGT_STAT.BOOTBANK = b.active.toNat ∧ t.get MGT_STAT.BOOTALT = 0 ∧
        t.get MGT_FWSTAT.VERSION = Tab.get 0 s.mgt.images (2 * port + b.active.toNat) % 2 ^ 32 ∧
        t.mgt.runs = b.active ∧ t.mgt.booting = false ∧
        (∃ r rest, t.flt.reports = s.flt.reports ++ r :: rest ∧ r.kind = Kind.MODE_CHANGE ∧ r.addr = 7 * 16 + mCommission) ∧
        match s.newestSlot port with
        | none => ∃ r ∈ t.flt.reports, r.kind = Kind.RETAIN_NONE
        | some i => ∀ rec, Tab.get none s.mgt.slots (2 * port + i) = some rec →
            t.mgt.lgseq = rec.lgseq ∧ t.mgt.repairs = rec.repairs ∧
            ∀ f x, f < 32 → rec.feeds[f]? = some x → t.get (FEED_ENERGY.E f) = x.energy % 2 ^ 48 ∧
              t.get (FEED_TSEL.TARIFF f) = x.tsel % 4 ∧ t.get (FEED_SNAP.LGSEQ f) = rec.lgseq % 256) ∧
    (s.bit MGT_STRAP.STRAP 1 = true ∨ s.mgt.toRecovery = true ∨ verified = 0 →
      ∃ t, exec (.boot verified) s = .next t ∧ t.mode = mRecovery ∧ t.get MGT_STAT.PREVMODE = 7 ∧ t.mgt.booting = false)) ∧
  (∀ (s : State), s.on RNG_STATUS.READY = false →
    (∃ t, exec .entropyReady s = .next t ∧ ((∀ p, p < 4 → s.on (RINGP_CTL.SEAL p) = false) →
      t.on RNG_STATUS.READY = true ∧ t.get RNG_STATUS.BITS = 384) ∧
      (s.mode = mJoin → s.on CYC_STAT.JOINOK = true → s.get RED_CFG.ROLE = 0 → t.mode = mRun)) ∧
    (s.now ≤ s.mgt.resetAt + msTicks 50 → ∃ t, exec .entropy s = .next t ∧ t.now = s.mgt.resetAt + msTicks 50 ∧
      (∃ r ∈ t.flt.reports, r.kind = Kind.ENTROPY) ∧ PartsKept [.clock, .cyc, .flt] s t)) ∧
  (∀ (s : State), ∃ t, exec .rngHealth s = .next t ∧ t.on RNG_STATUS.READY = false ∧ t.get RNG_STATUS.BITS = 0 ∧
    t.mode = s.mode ∧ ∃ r ∈ t.flt.reports, r.kind = Kind.RNG_HEALTH) ∧
  (∀ (s : State) (r : Fin 2),
    (∃ t, exec (.referenceLoss r) s = .next t ∧ t.bit SPR_STAT.REFOK r.val = false ∧ t.inCause Kind.REF_LOST r.val = true ∧
      (if s.get SPR_STAT.REFUSE ≠ r.val then t.get SPR_STAT.REFUSE = s.get SPR_STAT.REFUSE ∧ t.mgt = s.mgt
        else if s.bit SPR_STAT.REFOK (1 - r.val) then t.get SPR_STAT.REFUSE = 1 - r.val ∧
          t.mgt = { s.mgt with holdover := false } ∧ ∃ x ∈ t.flt.reports, x.kind = Kind.REF_SWITCH ∧ x.addr = 1 - r.val
        else t.get SPR_STAT.REFUSE = r.val ∧ t.mgt = { s.mgt with holdover := true }) ∧
      (s.bit SPR_STAT.REFOK (1 - r.val) = false → t.inCause Kind.REF_NONE (t.get SPR_STAT.REFUSE) = true) ∧
      Frame [.mgt, .flt] [SPR_STAT.REFOK, SPR_STAT.REFUSE] s t) ∧
    ∃ t, exec (.referenceReturn r) s = .next t ∧ t.bit SPR_STAT.REFOK r.val = true ∧
      t.inCause Kind.REF_LOST r.val = false ∧ t.inCause Kind.REF_NONE 0 = false ∧ t.inCause Kind.REF_NONE 1 = false ∧
      t.mgt = { s.mgt with holdover := false } ∧
      t.get SPR_STAT.REFUSE = (if s.mgt.holdover then r.val else s.get SPR_STAT.REFUSE) ∧
      Frame [.mgt, .flt] [SPR_STAT.REFOK, SPR_STAT.REFUSE] s t) ∧
  (∀ (s : State) (v : Word) (b row : Nat), b = wbits v 28 22 → row = wbits v 21 0 →
    ∃ t, exec (.rowRepairGo v) s = .next t ∧ t.get SPR_ROWREP.BANK = b ∧ t.get SPR_ROWREP.ROW = row ∧
      if s.get SPR_ROWREP.STATE = 0 ∧ b < 56 ∧ (s.rowsUsed b).length < 4
      then t.get SPR_ROWREP.STATE = 1 ∧ (∃ x, t.mgt = { s.mgt with repairing := some x } ∧ x.bank = b ∧ x.row = row ∧
        x.spare < 4 ∧ x.spare ∉ s.rowsUsed b) ∧ Frame [.mgt] [SPR_ROWREP.BANK, SPR_ROWREP.ROW, SPR_ROWREP.STATE] s t
      else t.flt = (s.raise Kind.NO_SPARE_ROW (b * 2 ^ 22 + row)).flt ∧
        Frame [.flt] [SPR_ROWREP.BANK, SPR_ROWREP.ROW] s t) ∧
  (∀ (s : State) (x : RowRepair), s.mgt.repairing = some x → s.get SPR_ROWREP.STATE = 2 →
    ∃ t, exec .sramRepaired s = .next t ∧ t.now = max s.now s.mgt.repairEnd ∧ t.get SPR_ROWREP.STATE = 0 ∧
      t.mgt = { s.mgt with repairs := s.mgt.repairs ++ [x], repairing := none } ∧
      (∃ r ∈ t.flt.reports, r.kind = Kind.SRAM_REPAIRED ∧ r.addr = x.bank * 2 ^ 22 + x.row) ∧
      PartsKept [.clock, .cyc, .mgt, .flt] s t) ∧
  ∀ (s : State) (port : Fin 2), ∃ t, exec (.nvSwitch port) s = .next t ∧ t.bit SPR_STAT.NVOK port.val = false ∧
    (if s.get SPR_STAT.NVUSE ≠ port.val
      then t.get SPR_STAT.NVUSE = s.get SPR_STAT.NVUSE ∧ t.flt = (s.raise Kind.NV_WEAR port.val).flt
      else if s.bit SPR_STAT.NVOK (1 - port.val)
      then t.get SPR_STAT.NVUSE = 1 - port.val ∧ t.flt = (s.raise Kind.NV_SWITCH port.val).flt
      else t.get SPR_STAT.NVUSE = port.val ∧ t.flt = (s.raise Kind.NV_FAIL port.val).flt) ∧
    Frame [.flt] [SPR_STAT.NVOK, SPR_STAT.NVUSE] s t

/-- IMAGE_START erases the bank that does not run on both ports and counts from 0; IMAGE_DATA adds a word.
FW_VERIFY begins a check where none, no handover and no trial is under way. VERIFY_COMPLETE ends it in
VERIFIED, with the image's version in the bank, or in FAILED with FWVERIFY_FAIL; in Recovery a good image is
kept as a download. HANDOVER of a verified image writes a trial record with the other bank and settings area
and arms. CONFIRM in TRIAL in time ends the trial in the record and in the state. FW_FALLBACK after CONFTO
and NEW_FIRMWARE_NOT_RUNNING after 2 ms make a fall-back due. WATCHDOG_EXPIRY (cause 3) and
LOCKSTEP_DISAGREEMENT (cause 5) restart in place, make a fall-back due in TRIAL, and reset the hub on a
second failure within 1 s. RECOVERY_DOWNLOAD keeps a verified image for both ports' bank A with a reset due
in 1 ms, or reports RCV_BAD; RECOVERY_RESET resets then. (16_lifecycle.md R483, R484, R485, R492, R493,
R494, R495) -/
def Obligations.FirmwareIsUploadedTriedAndConfirmed : Prop :=
  (∀ (s : State) (v : Word) (b : Nat), b = (!s.mgt.runs).toNat →
    (∃ t, exec .imageStart s = .next t ∧ t.mgt.upload = [] ∧ t.get MGT_IMGCTL.COUNT = 0 ∧
      (∀ p k, p < 2 → k < 2 → Tab.get 0 t.mgt.images (2 * p + k) = if k = b then 0 else Tab.get 0 s.mgt.images (2 * p + k)) ∧
      { t.mgt with upload := s.mgt.upload, images := s.mgt.images } = s.mgt ∧ Frame [.mgt] [MGT_IMGCTL.COUNT] s t) ∧
    (∃ t, exec (.imageData v) s = .next t ∧ t.mgt = { s.mgt with upload := v :: s.mgt.upload } ∧
      t.get MGT_IMGCTL.COUNT = (s.get MGT_IMGCTL.COUNT + 1) % 2 ^ 23 ∧ Frame [.mgt] [MGT_IMGCTL.COUNT] s t) ∧
    (∃ t, exec .fwVerify s = .next t ∧ if s.fwState = fwIDLE ∨ s.fwState = fwVERIFIED ∨ s.fwState = fwFAILED
      then t.fwState = fwVERIFYING ∧ Frame [] [MGT_FWSTAT.STATE] s t else t = s) ∧
    (s.fwState = fwVERIFYING →
      (∃ t, exec (.verifyComplete true) s = .next t ∧ t.fwState = fwVERIFIED ∧
        (s.mode ≠ mRecovery → (∀ p, p < 2 → Tab.get 0 t.mgt.images (2 * p + b) = s.uploadVersion) ∧
          { t.mgt with images := s.mgt.images } = s.mgt) ∧
        (s.mode = mRecovery → s.mgt.rcvReset = none → t.mgt.rcvReset = some (s.now + msTicks 1) ∧
          ∀ p, p < 2 → Tab.get 0 t.mgt.images (2 * p) = s.uploadVersion ∧ (t.bootRecord p).active = false ∧
            (t.bootRecord p).trial = false) ∧ Frame [.mgt] [MGT_FWSTAT.STATE] s t) ∧
      ∃ t, exec (.verifyComplete false) s = .next t ∧ t.fwState = fwFAILED ∧
        (∃ r ∈ t.flt.reports, r.kind = Kind.FWVERIFY_FAIL) ∧
        (s.mode = mRecovery → ∃ r ∈ t.flt.reports, r.kind = Kind.RCV_BAD) ∧ Frame [.flt] [MGT_FWSTAT.STATE] s t)) ∧
  (∀ (s : State) (port : Nat) (old : Bcr), port = s.get SPR_STAT.NVUSE % 2 → old = s.bootRecord port →
    (∃ t, exec .handover s = .next t ∧ if s.fwState = fwVERIFIED
      then t.fwState = fwARMED ∧ t.bootRecord port = { old with
          seqno := (old.seqno + 1) % 2 ^ 32, active := !s.mgt.runs, prev := s.mgt.runs, trial := true
          seta := !old.seta, setp := old.seta } ∧
        { t.mgt with bcr := s.mgt.bcr } = s.mgt ∧ Frame [.mgt] [MGT_FWSTAT.STATE] s t
      else t = s) ∧
    ∃ t, exec .confirm s = .next t ∧
      if s.fwState = fwTRIAL ∧ (s.mgt.fallback = none ∨ s.mgt.fallback = some (s.now + 1))
      then t.fwState = fwIDLE ∧ t.bootRecord port = { old with seqno := (old.seqno + 1) % 2 ^ 32, trial := false } ∧
        t.mgt.fallback = none ∧ t.flt = (s.raise Kind.FW_CONFIRMED 0).flt ∧
        Frame [.mgt, .flt] [MGT_FWSTAT.STATE] s t
      else t = s) ∧
  (∀ (s : State), s.fwState = fwTRIAL →
    (∃ t, exec .fwFallback s = .next t ∧
      t.now = max s.now (s.mgt.trialStart + msTicks (60000 * s.get MGT_FWCTL.CONFTO)) ∧
      t.mgt = { s.mgt with fallback := some (s.mgt.fallback.getD (t.now + 1)) } ∧ PartsKept [.clock, .cyc, .mgt] s t) ∧
    (s.now ≤ s.mgt.trialStart + msTicks 2 →
      ∃ t, exec .newFirmwareNotRunning s = .next t ∧ t.now = s.mgt.trialStart + msTicks 2 ∧
        t.mgt = { s.mgt with fallback := some (s.mgt.fallback.getD 0) } ∧ PartsKept [.clock, .cyc, .mgt] s t)) ∧
  (∀ (s : State) (c : Instr) (cause : Nat),
    (c = .watchdogExpiry ∧ cause = 3 ∨ c = .lockstepDisagreement ∧ cause = 5) →
    ∃ t, exec c s = .next t ∧
      if s.fwState = fwTRIAL then t.mgt = { s.mgt with fallback := some (s.mgt.fallback.getD 0) } ∧ Frame [.mgt] [] s t
      else if s.mgt.restarted.any (fun t0 => decide (s.now - t0 ≤ msTicks 1000))
      then t.get MGT_STAT.RSTCAUSE = cause ∧ t.mgt.booting = true ∧ t.flt = Flt.reset ∧ t.mgt.bcr = s.mgt.bcr
      else t.mgt = { s.mgt with restarted := some s.now } ∧ Frame [.mgt] [] s t) ∧
  (∀ (s : State) (path : RecoveryPath) (version : BitVec 32),
    (s.mode ≠ mRecovery → ∀ ok : Bool, exec (.recoveryDownload path ok version) s = .next s) ∧
    (s.mode = mRecovery → exec (.recoveryDownload path false version) s = .next (s.raise Kind.RCV_BAD 0)) ∧
    (s.mode = mRecovery → s.mgt.rcvReset = none → ∃ t, exec (.recoveryDownload path true version) s = .next t ∧
      t.mgt.rcvReset = some (s.now + msTicks 1) ∧
      (∀ p, p < 2 → Tab.get 0 t.mgt.images (2 * p) = (if path = .pcie then s.uploadVersion else version.toNat) ∧
        (t.bootRecord p).active = false ∧ (t.bootRecord p).trial = false) ∧ Frame [.mgt] [] s t)) ∧
  ∀ (s : State) (due : Nat), s.mgt.rcvReset = some due →
    ∃ t, exec .recoveryReset s = .next t ∧ t.now = max s.now due ∧ t.free = s.free + 1 ∧
      t.get MGT_STAT.RSTCAUSE = (Config.recoveryCause s.free).val % 8 ∧ t.mgt.booting = true ∧ t.flt = Flt.reset ∧
      t.mgt.images = s.mgt.images ∧ t.mgt.bcr = s.mgt.bcr

/-- State.reset meets the invariant of EveryStepKeepsTheStateSound, its queue of commands is empty, its mode is
one of the six, all king-post copies agree, and the collector holds nothing. The values of what no rule
gives a reset value are the model's choice (assumption log 11); no clause here rests on one. (00_scope.md
R13, 16_lifecycle.md R474, 15_faults.md R466) -/
def Obligations.ResetLeavesASoundHub : Prop :=
  State.reset.Sound ∧ State.reset.legalMode = true ∧ State.reset.kpFine ∧ State.reset.pending = [] ∧
    State.reset.flt = Flt.reset ∧ State.reset.mode = mCommission

/-- For every sound state s and every t with step s = next t: t is sound. Sound means: DDR5, host memory and
both program stores are in canonical form, the register file lists every field once and in order, at most 32
doorbells are not yet complete, the firing queue holds at most 16,384 firings, no level cause holds twice,
the forwarding queue holds at most 32 messages and the remote queue at most 64. (01_architecture.md,
02_channel_table.md R64, 04_ephemeris.md R135, 15_faults.md R459, R470, R471) -/
def Obligations.EveryStepKeepsTheStateSound : Prop :=
  ∀ (s t : State), s.Sound → step s = .next t → t.Sound

/-- From every state s, whatever it holds: if every waiting command is well-formed and none is a host completion
with data (whose length the request decides), then as many steps as commands wait answer a next state t with
an empty queue and a clock not before that of s, and t is sound where s is; and any first n of them leave
exactly the commands after the first n waiting, in their order. (01_architecture.md) -/
def Obligations.WellFormedCommandsDrainInOrder : Prop :=
  ∀ (s : State), (∀ c ∈ s.pending, neverStops c) →
    (∃ t, s.steps s.pending.length = .next t ∧ t.pending = [] ∧ s.now ≤ t.now ∧ (s.Sound → t.Sound)) ∧
    ∀ n : Nat, n ≤ s.pending.length → ∃ t, s.steps n = .next t ∧ t.pending = s.pending.drop n ∧ s.now ≤ t.now

end
end

