-- ==== Sys2Proof/Laws/Tab.lean ====
section
/-! SUPPORT. The laws of sparse tables: a read after a write, and that every operation keeps the
canonical form. -/

namespace Sys2Proof.Machine

variable {α : Type}

@[simp] theorem Tab.get_nil (d : α) (k : Nat) : Tab.get d [] k = d := rfl

/-- Erased keys are gone. -/
theorem Tab.not_mem_erase (m : Tab α) (k : Nat) : ∀ e ∈ Tab.erase m k, e.1 ≠ k := by
  induction m with
  | nil => simp [Tab.erase]
  | cons e m ih =>
    by_cases h : e.1 = k
    · simpa [Tab.erase, h] using ih
    · simpa [Tab.erase, h] using ih

theorem Tab.get_erase_ne (d : α) (m : Tab α) {k j : Nat} (h : j ≠ k) :
    Tab.get d (Tab.erase m k) j = Tab.get d m j := by
  induction m with
  | nil => rfl
  | cons e m ih =>
    by_cases he : e.1 = k
    · simp [Tab.erase, Tab.get, he, ih, Ne.symm h]
    · simp [Tab.erase, Tab.get, he, ih]

theorem Tab.get_absent (d : α) (m : Tab α) (k : Nat) (h : ∀ e ∈ m, e.1 ≠ k) : Tab.get d m k = d := by
  induction m with
  | nil => rfl
  | cons e m ih =>
    simp only [List.mem_cons, forall_eq_or_imp] at h
    simp [Tab.get, h.1, ih h.2]

theorem Tab.get_ins (d : α) (m : Tab α) (k j : Nat) (v : α) (h : ∀ e ∈ m, e.1 ≠ k) :
    Tab.get d (Tab.ins m k v) j = if j = k then v else Tab.get d m j := by
  induction m with
  | nil =>
    by_cases hj : j = k
    · simp [Tab.ins, Tab.get, hj]
    · simp [Tab.ins, Tab.get, hj, Ne.symm hj]
  | cons e m ih =>
    obtain ⟨a, w⟩ := e
    simp only [List.mem_cons, forall_eq_or_imp] at h
    by_cases hk : k < a
    · by_cases hj : j = k
      · simp [Tab.ins, Tab.get, hk, hj]
      · simp [Tab.ins, Tab.get, hk, hj, Ne.symm hj]
    · by_cases he : a = j
      · have hj : j ≠ k := he ▸ h.1
        subst he
        simp [Tab.ins, Tab.get, if_neg hk, hj]
      · simp [Tab.ins, Tab.get, if_neg hk, he, ih h.2]

/-- Keys of an insertion are the old ones and the new one. -/
theorem Tab.mem_ins {m : Tab α} {k : Nat} {v : α} {e : Nat × α} (h : e ∈ Tab.ins m k v) :
    e = (k, v) ∨ e ∈ m := by
  induction m with
  | nil => simpa [Tab.ins] using h
  | cons a m ih =>
    simp only [Tab.ins] at h
    split at h
    · simpa using h
    · rcases List.mem_cons.1 h with h | h
      · exact .inr (List.mem_cons.2 (.inl h))
      · exact (ih h).imp_right (List.mem_cons.2 <| .inr ·)

/-- Erasing keys leaves a part of the table. -/
theorem Tab.erase_sublist (m : Tab α) (k : Nat) : (Tab.erase m k).Sublist m := by
  induction m with
  | nil => exact List.Sublist.slnil
  | cons a m ih =>
    simp only [Tab.erase]
    split
    · exact ih.cons _
    · exact ih.cons_cons _

/-- An insertion of a new key keeps the keys rising. -/
theorem Tab.rising_ins {m : Tab α} {k : Nat} {v : α} (hm : Tab.rising m) (hk : ∀ e ∈ m, e.1 ≠ k) :
    Tab.rising (Tab.ins m k v) := by
  induction m with
  | nil => simp [Tab.ins, Tab.rising]
  | cons a m ih =>
    simp only [Tab.rising, List.pairwise_cons] at hm
    simp only [List.mem_cons, forall_eq_or_imp] at hk
    simp only [Tab.ins]
    split
    · rename_i hka
      simp only [Tab.rising, List.pairwise_cons, List.mem_cons, forall_eq_or_imp]
      exact ⟨⟨hka, fun e he => Nat.lt_trans hka (hm.1 e he)⟩, hm⟩
    · rename_i hka
      simp only [Tab.rising, List.pairwise_cons]
      refine ⟨fun e he => ?_, ih hm.2 hk.2⟩
      rcases Tab.mem_ins he with rfl | he
      · have := hk.1; show a.1 < k; omega
      · exact hm.1 e he

/-- A write keeps the keys rising. -/
theorem Tab.rising_put [DecidableEq α] (d : α) {m : Tab α} (k : Nat) (v : α) (hm : Tab.rising m) :
    Tab.rising (Tab.put d m k v) := by
  have he : Tab.rising (Tab.erase m k) := List.Pairwise.sublist (Tab.erase_sublist m k) hm
  unfold Tab.put
  split
  · exact he
  · exact Tab.rising_ins he (Tab.not_mem_erase m k)

section
variable [DecidableEq α]

/-- A read of the key just written. -/
@[simp] theorem Tab.get_put_same (d : α) (m : Tab α) (k : Nat) (v : α) :
    Tab.get d (Tab.put d m k v) k = v := by
  by_cases h : v = d
  · simp [Tab.put, h, Tab.get_absent d _ k (Tab.not_mem_erase m k)]
  · simp [Tab.put, h, Tab.get_ins d _ k k v (Tab.not_mem_erase m k)]

/-- A read of any other key; the default read with need not be the one written with. -/
theorem Tab.get_put_ne (d d' : α) (m : Tab α) {k j : Nat} (v : α) (h : j ≠ k) :
    Tab.get d' (Tab.put d m k v) j = Tab.get d' m j := by
  by_cases hv : v = d
  · simp [Tab.put, hv, Tab.get_erase_ne d' m h]
  · simp [Tab.put, hv, Tab.get_ins d' _ k j v (Tab.not_mem_erase m k), h, Tab.get_erase_ne d' m h]

theorem Tab.get_put (d : α) (m : Tab α) (k j : Nat) (v : α) :
    Tab.get d (Tab.put d m k v) j = if j = k then v else Tab.get d m j := by
  by_cases h : j = k
  · simp [h]
  · simp [h, Tab.get_put_ne d d m v h]

theorem Tab.get_modify (d : α) (m : Tab α) (k j : Nat) (f : α → α) :
    Tab.get d (Tab.modify d m k f) j = if j = k then f (Tab.get d m k) else Tab.get d m j := by
  simp [Tab.modify, Tab.get_put]

theorem Tab.wfFrom_mono (d : α) {m : Tab α} {a b : Option Nat}
    (hab : ∀ k v, (k, v) ∈ m → (match b with | none => True | some x => x < k))
    (h : Tab.wfFrom d a m = true) : Tab.wfFrom d b m = true := by
  cases m with
  | nil => rfl
  | cons e m =>
    obtain ⟨k, v⟩ := e
    have hb := hab k v (by simp)
    simp only [Tab.wfFrom, Bool.and_eq_true] at h ⊢
    refine ⟨⟨?_, h.1.2⟩, h.2⟩
    cases b <;> simp_all

/-- Every key of a canonical table lies above its bound. -/
theorem Tab.lt_of_wfFrom (d : α) {m : Tab α} {l : Nat} (h : Tab.wfFrom d (some l) m = true) :
    ∀ e ∈ m, l < e.1 := by
  induction m generalizing l with
  | nil => simp
  | cons e m ih =>
    simp only [Tab.wfFrom, Bool.and_eq_true, decide_eq_true_eq] at h
    intro x hx
    rcases List.mem_cons.1 hx with rfl | hx
    · exact h.1.1
    · exact Nat.lt_trans h.1.1 (ih h.2 x hx)

theorem Tab.wfFrom_erase (d : α) {m : Tab α} {a : Option Nat} (k : Nat)
    (h : Tab.wfFrom d a m = true) : Tab.wfFrom d a (Tab.erase m k) = true := by
  induction m generalizing a with
  | nil => rfl
  | cons e m ih =>
    obtain ⟨j, v⟩ := e
    simp only [Tab.wfFrom, Bool.and_eq_true, decide_eq_true_eq] at h
    by_cases hk : j = k
    · simp only [Tab.erase, hk, if_true]
      refine Tab.wfFrom_mono d (a := some j) (fun x w hx => ?_) (ih h.2)
      have := Tab.lt_of_wfFrom d (ih h.2) _ hx
      cases a with
      | none => trivial
      | some l => exact Nat.lt_trans (by simpa using h.1.1) this
    · simp only [Tab.erase, hk, if_false, Tab.wfFrom, Bool.and_eq_true, decide_eq_true_eq]
      exact ⟨h.1, ih h.2⟩

theorem Tab.wfFrom_ins (d : α) {m : Tab α} {a : Option Nat} (k : Nat) (v : α) (hv : v ≠ d)
    (ha : match a with | none => True | some l => l < k) (hk : ∀ e ∈ m, e.1 ≠ k)
    (h : Tab.wfFrom d a m = true) : Tab.wfFrom d a (Tab.ins m k v) = true := by
  induction m generalizing a with
  | nil => cases a <;> simp_all [Tab.ins, Tab.wfFrom]
  | cons e m ih =>
    obtain ⟨j, w⟩ := e
    simp only [List.mem_cons, forall_eq_or_imp] at hk
    simp only [Tab.wfFrom, Bool.and_eq_true, decide_eq_true_eq] at h
    by_cases hj : k < j
    · simp only [Tab.ins, hj, if_true, Tab.wfFrom, Bool.and_eq_true, decide_eq_true_eq]
      refine ⟨⟨?_, hv⟩, ⟨?_, h.1.2⟩, h.2⟩
      · cases a <;> simp_all
      · trivial
    · simp only [Tab.ins, hj, if_false, Tab.wfFrom, Bool.and_eq_true, decide_eq_true_eq]
      exact ⟨h.1, ih (a := some j) (by show j < k; have := hk.1; simp at this; omega) hk.2 h.2⟩

/-- A write keeps the canonical form. -/
theorem Tab.wf_put (d : α) {m : Tab α} (k : Nat) (v : α) (h : Tab.wf d m = true) :
    Tab.wf d (Tab.put d m k v) = true := by
  by_cases hv : v = d
  · simpa [Tab.put, hv, Tab.wf] using Tab.wfFrom_erase d k h
  · simpa [Tab.put, hv, Tab.wf] using
      Tab.wfFrom_ins d k v hv trivial (Tab.not_mem_erase m k) (Tab.wfFrom_erase d k h)

/-- A run of writes keeps the canonical form. -/
theorem Tab.wf_putList (d : α) {m : Tab α} (k : Nat) (vs : List α) (h : Tab.wf d m = true) :
    Tab.wf d (Tab.putList d m k vs) = true := by
  induction vs generalizing m k with
  | nil => exact h
  | cons v vs ih => exact ih (k + 1) (Tab.wf_put d k v h)

theorem Tab.wf_modify (d : α) {m : Tab α} (k : Nat) (f : α → α) (h : Tab.wf d m = true) :
    Tab.wf d (Tab.modify d m k f) = true := Tab.wf_put d k _ h

/-- A read after a run of writes. -/
theorem Tab.get_putList (d : α) (m : Tab α) (k : Nat) (vs : List α) (j : Nat) :
    Tab.get d (Tab.putList d m k vs) j
      = if k ≤ j ∧ j < k + vs.length then vs.getD (j - k) d else Tab.get d m j := by
  induction vs generalizing m k with
  | nil =>
    rw [if_neg (by simp only [List.length_nil]; omega)]
    rfl
  | cons v vs ih =>
    rw [Tab.putList, ih, Tab.get_put]
    by_cases h : j = k
    · subst h
      rw [if_neg (by omega), if_pos rfl, if_pos (by simp only [List.length_cons]; omega), Nat.sub_self]
      rfl
    · by_cases h2 : k + 1 ≤ j ∧ j < k + 1 + vs.length
      · have : j - k = (j - (k + 1)) + 1 := by omega
        rw [if_pos h2, if_pos (by simp only [List.length_cons]; omega), this, List.getD_cons_succ]
      · rw [if_neg h2, if_neg h, if_neg (by simp only [List.length_cons]; omega)]

end

end Sys2Proof.Machine
end

