-- ==== Sys2Proof/Laws/State.lean ====
section
/-! SUPPORT. The laws of the shared operations on the state: what a register field reads after a write,
and which parts of the state an operation leaves alone. -/

namespace Sys2Proof.Machine

/-! ### Register fields -/

/-- A field just written reads back the value, cut to its width. -/
@[simp] theorem State.get_set_same (s : State) (f : Field) (v : Nat) :
    (s.set f v).get f = v % 2 ^ f.width := by
  simp [State.get, State.set]

/-- A write leaves every other field alone. -/
theorem State.get_set_ne (s : State) {f g : Field} (v : Nat) (h : g.key ≠ f.key) :
    (s.set f v).get g = s.get g := by
  simp [State.get, State.set, Tab.get_put_ne _ _ _ _ h]

@[simp] theorem State.get_setB_same (s : State) (f : Field) (b : Bool) :
    (s.setB f b).get f = b.toNat % 2 ^ f.width := State.get_set_same s f _

theorem State.get_setB_ne (s : State) {f g : Field} (b : Bool) (h : g.key ≠ f.key) :
    (s.setB f b).get g = s.get g := State.get_set_ne s _ h

/-- A saturating count: it adds and stays at all ones. -/
theorem State.get_addSat_same (s : State) (f : Field) (n : Nat) :
    (s.addSat f n).get f = min (s.get f + n) (2 ^ f.width - 1) := by
  have : 0 < 2 ^ f.width := Nat.two_pow_pos _
  rw [State.addSat, State.get_set_same, Nat.mod_eq_of_lt (by omega)]

theorem State.get_addSat_ne (s : State) {f g : Field} (n : Nat) (h : g.key ≠ f.key) :
    (s.addSat f n).get g = s.get g := State.get_set_ne s _ h

theorem State.get_inc_same (s : State) (f : Field) :
    (s.inc f).get f = min (s.get f + 1) (2 ^ f.width - 1) := State.get_addSat_same s f 1

theorem State.get_inc_ne (s : State) {f g : Field} (h : g.key ≠ f.key) :
    (s.inc f).get g = s.get g := State.get_set_ne s _ h

theorem State.get_setInt_ne (s : State) {f g : Field} (v : Int) (h : g.key ≠ f.key) :
    (s.setInt f v).get g = s.get g := State.get_set_ne s _ h

theorem State.get_setBit_ne (s : State) {f g : Field} (i : Nat) (b : Bool) (h : g.key ≠ f.key) :
    (s.setBit f i b).get g = s.get g := State.get_set_ne s _ h

/-- A write that is the only difference of two states. -/
theorem State.set_def (s : State) (f : Field) (v : Nat) :
    s.set f v = { s with regs := Tab.put f.rst s.regs f.key (v % 2 ^ f.width) } := rfl

/-! ### `State.set` changes `regs` alone -/

@[simp] theorem State.set_pending (s : State) (f : Field) (v : Nat) : (s.set f v).pending = s.pending := rfl
@[simp] theorem State.set_now (s : State) (f : Field) (v : Nat) : (s.set f v).now = s.now := rfl
@[simp] theorem State.set_free (s : State) (f : Field) (v : Nat) : (s.set f v).free = s.free := rfl
@[simp] theorem State.set_kpMode (s : State) (f : Field) (v : Nat) : (s.set f v).kpMode = s.kpMode := rfl
@[simp] theorem State.set_kpNode (s : State) (f : Field) (v : Nat) : (s.set f v).kpNode = s.kpNode := rfl
@[simp] theorem State.set_kpClaim (s : State) (f : Field) (v : Nat) : (s.set f v).kpClaim = s.kpClaim := rfl
@[simp] theorem State.set_kpGslot (s : State) (f : Field) (v : Nat) : (s.set f v).kpGslot = s.kpGslot := rfl
@[simp] theorem State.set_kpHome (s : State) (f : Field) (v : Nat) : (s.set f v).kpHome = s.kpHome := rfl
@[simp] theorem State.set_out (s : State) (f : Field) (v : Nat) : (s.set f v).out = s.out := rfl
@[simp] theorem State.set_tbl (s : State) (f : Field) (v : Nat) : (s.set f v).tbl = s.tbl := rfl
@[simp] theorem State.set_ph (s : State) (f : Field) (v : Nat) : (s.set f v).ph = s.ph := rfl
@[simp] theorem State.set_seq (s : State) (f : Field) (v : Nat) : (s.set f v).seq = s.seq := rfl
@[simp] theorem State.set_eng (s : State) (f : Field) (v : Nat) : (s.set f v).eng = s.eng := rfl
@[simp] theorem State.set_seqStore (s : State) (f : Field) (v : Nat) : (s.set f v).seqStore = s.seqStore := rfl
@[simp] theorem State.set_seqUe (s : State) (f : Field) (v : Nat) : (s.set f v).seqUe = s.seqUe := rfl
@[simp] theorem State.set_seqWeak (s : State) (f : Field) (v : Nat) : (s.set f v).seqWeak = s.seqWeak := rfl
@[simp] theorem State.set_seqPast (s : State) (f : Field) (v : Nat) : (s.set f v).seqPast = s.seqPast := rfl
@[simp] theorem State.set_tenStore (s : State) (f : Field) (v : Nat) : (s.set f v).tenStore = s.tenStore := rfl
@[simp] theorem State.set_tenUe (s : State) (f : Field) (v : Nat) : (s.set f v).tenUe = s.tenUe := rfl
@[simp] theorem State.set_tenWeak (s : State) (f : Field) (v : Nat) : (s.set f v).tenWeak = s.tenWeak := rfl
@[simp] theorem State.set_tenPast (s : State) (f : Field) (v : Nat) : (s.set f v).tenPast = s.tenPast := rfl
@[simp] theorem State.set_bay (s : State) (f : Field) (v : Nat) : (s.set f v).bay = s.bay := rfl
@[simp] theorem State.set_chp (s : State) (f : Field) (v : Nat) : (s.set f v).chp = s.chp := rfl
@[simp] theorem State.set_heads (s : State) (f : Field) (v : Nat) : (s.set f v).heads = s.heads := rfl
@[simp] theorem State.set_mb (s : State) (f : Field) (v : Nat) : (s.set f v).mb = s.mb := rfl
@[simp] theorem State.set_feeds (s : State) (f : Field) (v : Nat) : (s.set f v).feeds = s.feeds := rfl
@[simp] theorem State.set_sup (s : State) (f : Field) (v : Nat) : (s.set f v).sup = s.sup := rfl
@[simp] theorem State.set_flt (s : State) (f : Field) (v : Nat) : (s.set f v).flt = s.flt := rfl
@[simp] theorem State.set_mgt (s : State) (f : Field) (v : Nat) : (s.set f v).mgt = s.mgt := rfl
@[simp] theorem State.set_cyc (s : State) (f : Field) (v : Nat) : (s.set f v).cyc = s.cyc := rfl
@[simp] theorem State.set_xbar (s : State) (f : Field) (v : Nat) : (s.set f v).xbar = s.xbar := rfl
@[simp] theorem State.set_red (s : State) (f : Field) (v : Nat) : (s.set f v).red = s.red := rfl
@[simp] theorem State.set_ring (s : State) (f : Field) (v : Nat) : (s.set f v).ring = s.ring := rfl
@[simp] theorem State.set_brg (s : State) (f : Field) (v : Nat) : (s.set f v).brg = s.brg := rfl

/-! ### `State.setB` changes `regs` alone -/

@[simp] theorem State.setB_pending (s : State) (f : Field) (b : Bool) : (s.setB f b).pending = s.pending := rfl
@[simp] theorem State.setB_now (s : State) (f : Field) (b : Bool) : (s.setB f b).now = s.now := rfl
@[simp] theorem State.setB_free (s : State) (f : Field) (b : Bool) : (s.setB f b).free = s.free := rfl
@[simp] theorem State.setB_kpMode (s : State) (f : Field) (b : Bool) : (s.setB f b).kpMode = s.kpMode := rfl
@[simp] theorem State.setB_kpNode (s : State) (f : Field) (b : Bool) : (s.setB f b).kpNode = s.kpNode := rfl
@[simp] theorem State.setB_kpClaim (s : State) (f : Field) (b : Bool) : (s.setB f b).kpClaim = s.kpClaim := rfl
@[simp] theorem State.setB_kpGslot (s : State) (f : Field) (b : Bool) : (s.setB f b).kpGslot = s.kpGslot := rfl
@[simp] theorem State.setB_kpHome (s : State) (f : Field) (b : Bool) : (s.setB f b).kpHome = s.kpHome := rfl
@[simp] theorem State.setB_out (s : State) (f : Field) (b : Bool) : (s.setB f b).out = s.out := rfl
@[simp] theorem State.setB_tbl (s : State) (f : Field) (b : Bool) : (s.setB f b).tbl = s.tbl := rfl
@[simp] theorem State.setB_ph (s : State) (f : Field) (b : Bool) : (s.setB f b).ph = s.ph := rfl
@[simp] theorem State.setB_seq (s : State) (f : Field) (b : Bool) : (s.setB f b).seq = s.seq := rfl
@[simp] theorem State.setB_eng (s : State) (f : Field) (b : Bool) : (s.setB f b).eng = s.eng := rfl
@[simp] theorem State.setB_seqStore (s : State) (f : Field) (b : Bool) : (s.setB f b).seqStore = s.seqStore := rfl
@[simp] theorem State.setB_seqUe (s : State) (f : Field) (b : Bool) : (s.setB f b).seqUe = s.seqUe := rfl
@[simp] theorem State.setB_seqWeak (s : State) (f : Field) (b : Bool) : (s.setB f b).seqWeak = s.seqWeak := rfl
@[simp] theorem State.setB_seqPast (s : State) (f : Field) (b : Bool) : (s.setB f b).seqPast = s.seqPast := rfl
@[simp] theorem State.setB_tenStore (s : State) (f : Field) (b : Bool) : (s.setB f b).tenStore = s.tenStore := rfl
@[simp] theorem State.setB_tenUe (s : State) (f : Field) (b : Bool) : (s.setB f b).tenUe = s.tenUe := rfl
@[simp] theorem State.setB_tenWeak (s : State) (f : Field) (b : Bool) : (s.setB f b).tenWeak = s.tenWeak := rfl
@[simp] theorem State.setB_tenPast (s : State) (f : Field) (b : Bool) : (s.setB f b).tenPast = s.tenPast := rfl
@[simp] theorem State.setB_bay (s : State) (f : Field) (b : Bool) : (s.setB f b).bay = s.bay := rfl
@[simp] theorem State.setB_chp (s : State) (f : Field) (b : Bool) : (s.setB f b).chp = s.chp := rfl
@[simp] theorem State.setB_heads (s : State) (f : Field) (b : Bool) : (s.setB f b).heads = s.heads := rfl
@[simp] theorem State.setB_mb (s : State) (f : Field) (b : Bool) : (s.setB f b).mb = s.mb := rfl
@[simp] theorem State.setB_feeds (s : State) (f : Field) (b : Bool) : (s.setB f b).feeds = s.feeds := rfl
@[simp] theorem State.setB_sup (s : State) (f : Field) (b : Bool) : (s.setB f b).sup = s.sup := rfl
@[simp] theorem State.setB_flt (s : State) (f : Field) (b : Bool) : (s.setB f b).flt = s.flt := rfl
@[simp] theorem State.setB_mgt (s : State) (f : Field) (b : Bool) : (s.setB f b).mgt = s.mgt := rfl
@[simp] theorem State.setB_cyc (s : State) (f : Field) (b : Bool) : (s.setB f b).cyc = s.cyc := rfl
@[simp] theorem State.setB_xbar (s : State) (f : Field) (b : Bool) : (s.setB f b).xbar = s.xbar := rfl
@[simp] theorem State.setB_red (s : State) (f : Field) (b : Bool) : (s.setB f b).red = s.red := rfl
@[simp] theorem State.setB_ring (s : State) (f : Field) (b : Bool) : (s.setB f b).ring = s.ring := rfl
@[simp] theorem State.setB_brg (s : State) (f : Field) (b : Bool) : (s.setB f b).brg = s.brg := rfl

/-! ### `State.setBit` changes `regs` alone -/

@[simp] theorem State.setBit_pending (s : State) (f : Field) (i : Nat) (b : Bool) : (s.setBit f i b).pending = s.pending := rfl
@[simp] theorem State.setBit_now (s : State) (f : Field) (i : Nat) (b : Bool) : (s.setBit f i b).now = s.now := rfl
@[simp] theorem State.setBit_free (s : State) (f : Field) (i : Nat) (b : Bool) : (s.setBit f i b).free = s.free := rfl
@[simp] theorem State.setBit_kpMode (s : State) (f : Field) (i : Nat) (b : Bool) : (s.setBit f i b).kpMode = s.kpMode := rfl
@[simp] theorem State.setBit_kpNode (s : State) (f : Field) (i : Nat) (b : Bool) : (s.setBit f i b).kpNode = s.kpNode := rfl
@[simp] theorem State.setBit_kpClaim (s : State) (f : Field) (i : Nat) (b : Bool) : (s.setBit f i b).kpClaim = s.kpClaim := rfl
@[simp] theorem State.setBit_kpGslot (s : State) (f : Field) (i : Nat) (b : Bool) : (s.setBit f i b).kpGslot = s.kpGslot := rfl
@[simp] theorem State.setBit_kpHome (s : State) (f : Field) (i : Nat) (b : Bool) : (s.setBit f i b).kpHome = s.kpHome := rfl
@[simp] theorem State.setBit_out (s : State) (f : Field) (i : Nat) (b : Bool) : (s.setBit f i b).out = s.out := rfl
@[simp] theorem State.setBit_tbl (s : State) (f : Field) (i : Nat) (b : Bool) : (s.setBit f i b).tbl = s.tbl := rfl
@[simp] theorem State.setBit_ph (s : State) (f : Field) (i : Nat) (b : Bool) : (s.setBit f i b).ph = s.ph := rfl
@[simp] theorem State.setBit_seq (s : State) (f : Field) (i : Nat) (b : Bool) : (s.setBit f i b).seq = s.seq := rfl
@[simp] theorem State.setBit_eng (s : State) (f : Field) (i : Nat) (b : Bool) : (s.setBit f i b).eng = s.eng := rfl
@[simp] theorem State.setBit_seqStore (s : State) (f : Field) (i : Nat) (b : Bool) : (s.setBit f i b).seqStore = s.seqStore := rfl
@[simp] theorem State.setBit_seqUe (s : State) (f : Field) (i : Nat) (b : Bool) : (s.setBit f i b).seqUe = s.seqUe := rfl
@[simp] theorem State.setBit_seqWeak (s : State) (f : Field) (i : Nat) (b : Bool) : (s.setBit f i b).seqWeak = s.seqWeak := rfl
@[simp] theorem State.setBit_seqPast (s : State) (f : Field) (i : Nat) (b : Bool) : (s.setBit f i b).seqPast = s.seqPast := rfl
@[simp] theorem State.setBit_tenStore (s : State) (f : Field) (i : Nat) (b : Bool) : (s.setBit f i b).tenStore = s.tenStore := rfl
@[simp] theorem State.setBit_tenUe (s : State) (f : Field) (i : Nat) (b : Bool) : (s.setBit f i b).tenUe = s.tenUe := rfl
@[simp] theorem State.setBit_tenWeak (s : State) (f : Field) (i : Nat) (b : Bool) : (s.setBit f i b).tenWeak = s.tenWeak := rfl
@[simp] theorem State.setBit_tenPast (s : State) (f : Field) (i : Nat) (b : Bool) : (s.setBit f i b).tenPast = s.tenPast := rfl
@[simp] theorem State.setBit_bay (s : State) (f : Field) (i : Nat) (b : Bool) : (s.setBit f i b).bay = s.bay := rfl
@[simp] theorem State.setBit_chp (s : State) (f : Field) (i : Nat) (b : Bool) : (s.setBit f i b).chp = s.chp := rfl
@[simp] theorem State.setBit_heads (s : State) (f : Field) (i : Nat) (b : Bool) : (s.setBit f i b).heads = s.heads := rfl
@[simp] theorem State.setBit_mb (s : State) (f : Field) (i : Nat) (b : Bool) : (s.setBit f i b).mb = s.mb := rfl
@[simp] theorem State.setBit_feeds (s : State) (f : Field) (i : Nat) (b : Bool) : (s.setBit f i b).feeds = s.feeds := rfl
@[simp] theorem State.setBit_sup (s : State) (f : Field) (i : Nat) (b : Bool) : (s.setBit f i b).sup = s.sup := rfl
@[simp] theorem State.setBit_flt (s : State) (f : Field) (i : Nat) (b : Bool) : (s.setBit f i b).flt = s.flt := rfl
@[simp] theorem State.setBit_mgt (s : State) (f : Field) (i : Nat) (b : Bool) : (s.setBit f i b).mgt = s.mgt := rfl
@[simp] theorem State.setBit_cyc (s : State) (f : Field) (i : Nat) (b : Bool) : (s.setBit f i b).cyc = s.cyc := rfl
@[simp] theorem State.setBit_xbar (s : State) (f : Field) (i : Nat) (b : Bool) : (s.setBit f i b).xbar = s.xbar := rfl
@[simp] theorem State.setBit_red (s : State) (f : Field) (i : Nat) (b : Bool) : (s.setBit f i b).red = s.red := rfl
@[simp] theorem State.setBit_ring (s : State) (f : Field) (i : Nat) (b : Bool) : (s.setBit f i b).ring = s.ring := rfl
@[simp] theorem State.setBit_brg (s : State) (f : Field) (i : Nat) (b : Bool) : (s.setBit f i b).brg = s.brg := rfl

/-! ### `State.addSat` changes `regs` alone -/

@[simp] theorem State.addSat_pending (s : State) (f : Field) (n : Nat) : (s.addSat f n).pending = s.pending := rfl
@[simp] theorem State.addSat_now (s : State) (f : Field) (n : Nat) : (s.addSat f n).now = s.now := rfl
@[simp] theorem State.addSat_free (s : State) (f : Field) (n : Nat) : (s.addSat f n).free = s.free := rfl
@[simp] theorem State.addSat_kpMode (s : State) (f : Field) (n : Nat) : (s.addSat f n).kpMode = s.kpMode := rfl
@[simp] theorem State.addSat_kpNode (s : State) (f : Field) (n : Nat) : (s.addSat f n).kpNode = s.kpNode := rfl
@[simp] theorem State.addSat_kpClaim (s : State) (f : Field) (n : Nat) : (s.addSat f n).kpClaim = s.kpClaim := rfl
@[simp] theorem State.addSat_kpGslot (s : State) (f : Field) (n : Nat) : (s.addSat f n).kpGslot = s.kpGslot := rfl
@[simp] theorem State.addSat_kpHome (s : State) (f : Field) (n : Nat) : (s.addSat f n).kpHome = s.kpHome := rfl
@[simp] theorem State.addSat_out (s : State) (f : Field) (n : Nat) : (s.addSat f n).out = s.out := rfl
@[simp] theorem State.addSat_tbl (s : State) (f : Field) (n : Nat) : (s.addSat f n).tbl = s.tbl := rfl
@[simp] theorem State.addSat_ph (s : State) (f : Field) (n : Nat) : (s.addSat f n).ph = s.ph := rfl
@[simp] theorem State.addSat_seq (s : State) (f : Field) (n : Nat) : (s.addSat f n).seq = s.seq := rfl
@[simp] theorem State.addSat_eng (s : State) (f : Field) (n : Nat) : (s.addSat f n).eng = s.eng := rfl
@[simp] theorem State.addSat_seqStore (s : State) (f : Field) (n : Nat) : (s.addSat f n).seqStore = s.seqStore := rfl
@[simp] theorem State.addSat_seqUe (s : State) (f : Field) (n : Nat) : (s.addSat f n).seqUe = s.seqUe := rfl
@[simp] theorem State.addSat_seqWeak (s : State) (f : Field) (n : Nat) : (s.addSat f n).seqWeak = s.seqWeak := rfl
@[simp] theorem State.addSat_seqPast (s : State) (f : Field) (n : Nat) : (s.addSat f n).seqPast = s.seqPast := rfl
@[simp] theorem State.addSat_tenStore (s : State) (f : Field) (n : Nat) : (s.addSat f n).tenStore = s.tenStore := rfl
@[simp] theorem State.addSat_tenUe (s : State) (f : Field) (n : Nat) : (s.addSat f n).tenUe = s.tenUe := rfl
@[simp] theorem State.addSat_tenWeak (s : State) (f : Field) (n : Nat) : (s.addSat f n).tenWeak = s.tenWeak := rfl
@[simp] theorem State.addSat_tenPast (s : State) (f : Field) (n : Nat) : (s.addSat f n).tenPast = s.tenPast := rfl
@[simp] theorem State.addSat_bay (s : State) (f : Field) (n : Nat) : (s.addSat f n).bay = s.bay := rfl
@[simp] theorem State.addSat_chp (s : State) (f : Field) (n : Nat) : (s.addSat f n).chp = s.chp := rfl
@[simp] theorem State.addSat_heads (s : State) (f : Field) (n : Nat) : (s.addSat f n).heads = s.heads := rfl
@[simp] theorem State.addSat_mb (s : State) (f : Field) (n : Nat) : (s.addSat f n).mb = s.mb := rfl
@[simp] theorem State.addSat_feeds (s : State) (f : Field) (n : Nat) : (s.addSat f n).feeds = s.feeds := rfl
@[simp] theorem State.addSat_sup (s : State) (f : Field) (n : Nat) : (s.addSat f n).sup = s.sup := rfl
@[simp] theorem State.addSat_flt (s : State) (f : Field) (n : Nat) : (s.addSat f n).flt = s.flt := rfl
@[simp] theorem State.addSat_mgt (s : State) (f : Field) (n : Nat) : (s.addSat f n).mgt = s.mgt := rfl
@[simp] theorem State.addSat_cyc (s : State) (f : Field) (n : Nat) : (s.addSat f n).cyc = s.cyc := rfl
@[simp] theorem State.addSat_xbar (s : State) (f : Field) (n : Nat) : (s.addSat f n).xbar = s.xbar := rfl
@[simp] theorem State.addSat_red (s : State) (f : Field) (n : Nat) : (s.addSat f n).red = s.red := rfl
@[simp] theorem State.addSat_ring (s : State) (f : Field) (n : Nat) : (s.addSat f n).ring = s.ring := rfl
@[simp] theorem State.addSat_brg (s : State) (f : Field) (n : Nat) : (s.addSat f n).brg = s.brg := rfl

/-! ### `State.inc` changes `regs` alone -/

@[simp] theorem State.inc_pending (s : State) (f : Field) : (s.inc f).pending = s.pending := rfl
@[simp] theorem State.inc_now (s : State) (f : Field) : (s.inc f).now = s.now := rfl
@[simp] theorem State.inc_free (s : State) (f : Field) : (s.inc f).free = s.free := rfl
@[simp] theorem State.inc_kpMode (s : State) (f : Field) : (s.inc f).kpMode = s.kpMode := rfl
@[simp] theorem State.inc_kpNode (s : State) (f : Field) : (s.inc f).kpNode = s.kpNode := rfl
@[simp] theorem State.inc_kpClaim (s : State) (f : Field) : (s.inc f).kpClaim = s.kpClaim := rfl
@[simp] theorem State.inc_kpGslot (s : State) (f : Field) : (s.inc f).kpGslot = s.kpGslot := rfl
@[simp] theorem State.inc_kpHome (s : State) (f : Field) : (s.inc f).kpHome = s.kpHome := rfl
@[simp] theorem State.inc_out (s : State) (f : Field) : (s.inc f).out = s.out := rfl
@[simp] theorem State.inc_tbl (s : State) (f : Field) : (s.inc f).tbl = s.tbl := rfl
@[simp] theorem State.inc_ph (s : State) (f : Field) : (s.inc f).ph = s.ph := rfl
@[simp] theorem State.inc_seq (s : State) (f : Field) : (s.inc f).seq = s.seq := rfl
@[simp] theorem State.inc_eng (s : State) (f : Field) : (s.inc f).eng = s.eng := rfl
@[simp] theorem State.inc_seqStore (s : State) (f : Field) : (s.inc f).seqStore = s.seqStore := rfl
@[simp] theorem State.inc_seqUe (s : State) (f : Field) : (s.inc f).seqUe = s.seqUe := rfl
@[simp] theorem State.inc_seqWeak (s : State) (f : Field) : (s.inc f).seqWeak = s.seqWeak := rfl
@[simp] theorem State.inc_seqPast (s : State) (f : Field) : (s.inc f).seqPast = s.seqPast := rfl
@[simp] theorem State.inc_tenStore (s : State) (f : Field) : (s.inc f).tenStore = s.tenStore := rfl
@[simp] theorem State.inc_tenUe (s : State) (f : Field) : (s.inc f).tenUe = s.tenUe := rfl
@[simp] theorem State.inc_tenWeak (s : State) (f : Field) : (s.inc f).tenWeak = s.tenWeak := rfl
@[simp] theorem State.inc_tenPast (s : State) (f : Field) : (s.inc f).tenPast = s.tenPast := rfl
@[simp] theorem State.inc_bay (s : State) (f : Field) : (s.inc f).bay = s.bay := rfl
@[simp] theorem State.inc_chp (s : State) (f : Field) : (s.inc f).chp = s.chp := rfl
@[simp] theorem State.inc_heads (s : State) (f : Field) : (s.inc f).heads = s.heads := rfl
@[simp] theorem State.inc_mb (s : State) (f : Field) : (s.inc f).mb = s.mb := rfl
@[simp] theorem State.inc_feeds (s : State) (f : Field) : (s.inc f).feeds = s.feeds := rfl
@[simp] theorem State.inc_sup (s : State) (f : Field) : (s.inc f).sup = s.sup := rfl
@[simp] theorem State.inc_flt (s : State) (f : Field) : (s.inc f).flt = s.flt := rfl
@[simp] theorem State.inc_mgt (s : State) (f : Field) : (s.inc f).mgt = s.mgt := rfl
@[simp] theorem State.inc_cyc (s : State) (f : Field) : (s.inc f).cyc = s.cyc := rfl
@[simp] theorem State.inc_xbar (s : State) (f : Field) : (s.inc f).xbar = s.xbar := rfl
@[simp] theorem State.inc_red (s : State) (f : Field) : (s.inc f).red = s.red := rfl
@[simp] theorem State.inc_ring (s : State) (f : Field) : (s.inc f).ring = s.ring := rfl
@[simp] theorem State.inc_brg (s : State) (f : Field) : (s.inc f).brg = s.brg := rfl

/-! ### `State.setInt` changes `regs` alone -/

@[simp] theorem State.setInt_pending (s : State) (f : Field) (v : Int) : (s.setInt f v).pending = s.pending := rfl
@[simp] theorem State.setInt_now (s : State) (f : Field) (v : Int) : (s.setInt f v).now = s.now := rfl
@[simp] theorem State.setInt_free (s : State) (f : Field) (v : Int) : (s.setInt f v).free = s.free := rfl
@[simp] theorem State.setInt_kpMode (s : State) (f : Field) (v : Int) : (s.setInt f v).kpMode = s.kpMode := rfl
@[simp] theorem State.setInt_kpNode (s : State) (f : Field) (v : Int) : (s.setInt f v).kpNode = s.kpNode := rfl
@[simp] theorem State.setInt_kpClaim (s : State) (f : Field) (v : Int) : (s.setInt f v).kpClaim = s.kpClaim := rfl
@[simp] theorem State.setInt_kpGslot (s : State) (f : Field) (v : Int) : (s.setInt f v).kpGslot = s.kpGslot := rfl
@[simp] theorem State.setInt_kpHome (s : State) (f : Field) (v : Int) : (s.setInt f v).kpHome = s.kpHome := rfl
@[simp] theorem State.setInt_out (s : State) (f : Field) (v : Int) : (s.setInt f v).out = s.out := rfl
@[simp] theorem State.setInt_tbl (s : State) (f : Field) (v : Int) : (s.setInt f v).tbl = s.tbl := rfl
@[simp] theorem State.setInt_ph (s : State) (f : Field) (v : Int) : (s.setInt f v).ph = s.ph := rfl
@[simp] theorem State.setInt_seq (s : State) (f : Field) (v : Int) : (s.setInt f v).seq = s.seq := rfl
@[simp] theorem State.setInt_eng (s : State) (f : Field) (v : Int) : (s.setInt f v).eng = s.eng := rfl
@[simp] theorem State.setInt_seqStore (s : State) (f : Field) (v : Int) : (s.setInt f v).seqStore = s.seqStore := rfl
@[simp] theorem State.setInt_seqUe (s : State) (f : Field) (v : Int) : (s.setInt f v).seqUe = s.seqUe := rfl
@[simp] theorem State.setInt_seqWeak (s : State) (f : Field) (v : Int) : (s.setInt f v).seqWeak = s.seqWeak := rfl
@[simp] theorem State.setInt_seqPast (s : State) (f : Field) (v : Int) : (s.setInt f v).seqPast = s.seqPast := rfl
@[simp] theorem State.setInt_tenStore (s : State) (f : Field) (v : Int) : (s.setInt f v).tenStore = s.tenStore := rfl
@[simp] theorem State.setInt_tenUe (s : State) (f : Field) (v : Int) : (s.setInt f v).tenUe = s.tenUe := rfl
@[simp] theorem State.setInt_tenWeak (s : State) (f : Field) (v : Int) : (s.setInt f v).tenWeak = s.tenWeak := rfl
@[simp] theorem State.setInt_tenPast (s : State) (f : Field) (v : Int) : (s.setInt f v).tenPast = s.tenPast := rfl
@[simp] theorem State.setInt_bay (s : State) (f : Field) (v : Int) : (s.setInt f v).bay = s.bay := rfl
@[simp] theorem State.setInt_chp (s : State) (f : Field) (v : Int) : (s.setInt f v).chp = s.chp := rfl
@[simp] theorem State.setInt_heads (s : State) (f : Field) (v : Int) : (s.setInt f v).heads = s.heads := rfl
@[simp] theorem State.setInt_mb (s : State) (f : Field) (v : Int) : (s.setInt f v).mb = s.mb := rfl
@[simp] theorem State.setInt_feeds (s : State) (f : Field) (v : Int) : (s.setInt f v).feeds = s.feeds := rfl
@[simp] theorem State.setInt_sup (s : State) (f : Field) (v : Int) : (s.setInt f v).sup = s.sup := rfl
@[simp] theorem State.setInt_flt (s : State) (f : Field) (v : Int) : (s.setInt f v).flt = s.flt := rfl
@[simp] theorem State.setInt_mgt (s : State) (f : Field) (v : Int) : (s.setInt f v).mgt = s.mgt := rfl
@[simp] theorem State.setInt_cyc (s : State) (f : Field) (v : Int) : (s.setInt f v).cyc = s.cyc := rfl
@[simp] theorem State.setInt_xbar (s : State) (f : Field) (v : Int) : (s.setInt f v).xbar = s.xbar := rfl
@[simp] theorem State.setInt_red (s : State) (f : Field) (v : Int) : (s.setInt f v).red = s.red := rfl
@[simp] theorem State.setInt_ring (s : State) (f : Field) (v : Int) : (s.setInt f v).ring = s.ring := rfl
@[simp] theorem State.setInt_brg (s : State) (f : Field) (v : Int) : (s.setInt f v).brg = s.brg := rfl

/-! ### `State.raise` changes `flt` alone -/

@[simp] theorem State.raise_pending (s : State) (k : Kind) (a : Nat) : (s.raise k a).pending = s.pending := rfl
@[simp] theorem State.raise_now (s : State) (k : Kind) (a : Nat) : (s.raise k a).now = s.now := rfl
@[simp] theorem State.raise_free (s : State) (k : Kind) (a : Nat) : (s.raise k a).free = s.free := rfl
@[simp] theorem State.raise_regs (s : State) (k : Kind) (a : Nat) : (s.raise k a).regs = s.regs := rfl
@[simp] theorem State.raise_kpMode (s : State) (k : Kind) (a : Nat) : (s.raise k a).kpMode = s.kpMode := rfl
@[simp] theorem State.raise_kpNode (s : State) (k : Kind) (a : Nat) : (s.raise k a).kpNode = s.kpNode := rfl
@[simp] theorem State.raise_kpClaim (s : State) (k : Kind) (a : Nat) : (s.raise k a).kpClaim = s.kpClaim := rfl
@[simp] theorem State.raise_kpGslot (s : State) (k : Kind) (a : Nat) : (s.raise k a).kpGslot = s.kpGslot := rfl
@[simp] theorem State.raise_kpHome (s : State) (k : Kind) (a : Nat) : (s.raise k a).kpHome = s.kpHome := rfl
@[simp] theorem State.raise_out (s : State) (k : Kind) (a : Nat) : (s.raise k a).out = s.out := rfl
@[simp] theorem State.raise_tbl (s : State) (k : Kind) (a : Nat) : (s.raise k a).tbl = s.tbl := rfl
@[simp] theorem State.raise_ph (s : State) (k : Kind) (a : Nat) : (s.raise k a).ph = s.ph := rfl
@[simp] theorem State.raise_seq (s : State) (k : Kind) (a : Nat) : (s.raise k a).seq = s.seq := rfl
@[simp] theorem State.raise_eng (s : State) (k : Kind) (a : Nat) : (s.raise k a).eng = s.eng := rfl
@[simp] theorem State.raise_seqStore (s : State) (k : Kind) (a : Nat) : (s.raise k a).seqStore = s.seqStore := rfl
@[simp] theorem State.raise_seqUe (s : State) (k : Kind) (a : Nat) : (s.raise k a).seqUe = s.seqUe := rfl
@[simp] theorem State.raise_seqWeak (s : State) (k : Kind) (a : Nat) : (s.raise k a).seqWeak = s.seqWeak := rfl
@[simp] theorem State.raise_seqPast (s : State) (k : Kind) (a : Nat) : (s.raise k a).seqPast = s.seqPast := rfl
@[simp] theorem State.raise_tenStore (s : State) (k : Kind) (a : Nat) : (s.raise k a).tenStore = s.tenStore := rfl
@[simp] theorem State.raise_tenUe (s : State) (k : Kind) (a : Nat) : (s.raise k a).tenUe = s.tenUe := rfl
@[simp] theorem State.raise_tenWeak (s : State) (k : Kind) (a : Nat) : (s.raise k a).tenWeak = s.tenWeak := rfl
@[simp] theorem State.raise_tenPast (s : State) (k : Kind) (a : Nat) : (s.raise k a).tenPast = s.tenPast := rfl
@[simp] theorem State.raise_bay (s : State) (k : Kind) (a : Nat) : (s.raise k a).bay = s.bay := rfl
@[simp] theorem State.raise_chp (s : State) (k : Kind) (a : Nat) : (s.raise k a).chp = s.chp := rfl
@[simp] theorem State.raise_heads (s : State) (k : Kind) (a : Nat) : (s.raise k a).heads = s.heads := rfl
@[simp] theorem State.raise_mb (s : State) (k : Kind) (a : Nat) : (s.raise k a).mb = s.mb := rfl
@[simp] theorem State.raise_feeds (s : State) (k : Kind) (a : Nat) : (s.raise k a).feeds = s.feeds := rfl
@[simp] theorem State.raise_sup (s : State) (k : Kind) (a : Nat) : (s.raise k a).sup = s.sup := rfl
@[simp] theorem State.raise_mgt (s : State) (k : Kind) (a : Nat) : (s.raise k a).mgt = s.mgt := rfl
@[simp] theorem State.raise_cyc (s : State) (k : Kind) (a : Nat) : (s.raise k a).cyc = s.cyc := rfl
@[simp] theorem State.raise_xbar (s : State) (k : Kind) (a : Nat) : (s.raise k a).xbar = s.xbar := rfl
@[simp] theorem State.raise_red (s : State) (k : Kind) (a : Nat) : (s.raise k a).red = s.red := rfl
@[simp] theorem State.raise_ring (s : State) (k : Kind) (a : Nat) : (s.raise k a).ring = s.ring := rfl
@[simp] theorem State.raise_brg (s : State) (k : Kind) (a : Nat) : (s.raise k a).brg = s.brg := rfl
@[simp] theorem State.raise_get (s : State) (k : Kind) (a : Nat) (g : Field) : (s.raise k a).get g = s.get g := rfl

/-! ### `State.endLevel` changes `flt` alone -/

@[simp] theorem State.endLevel_pending (s : State) (k : Kind) (a : Nat) : (s.endLevel k a).pending = s.pending := rfl
@[simp] theorem State.endLevel_now (s : State) (k : Kind) (a : Nat) : (s.endLevel k a).now = s.now := rfl
@[simp] theorem State.endLevel_free (s : State) (k : Kind) (a : Nat) : (s.endLevel k a).free = s.free := rfl
@[simp] theorem State.endLevel_regs (s : State) (k : Kind) (a : Nat) : (s.endLevel k a).regs = s.regs := rfl
@[simp] theorem State.endLevel_kpMode (s : State) (k : Kind) (a : Nat) : (s.endLevel k a).kpMode = s.kpMode := rfl
@[simp] theorem State.endLevel_kpNode (s : State) (k : Kind) (a : Nat) : (s.endLevel k a).kpNode = s.kpNode := rfl
@[simp] theorem State.endLevel_kpClaim (s : State) (k : Kind) (a : Nat) : (s.endLevel k a).kpClaim = s.kpClaim := rfl
@[simp] theorem State.endLevel_kpGslot (s : State) (k : Kind) (a : Nat) : (s.endLevel k a).kpGslot = s.kpGslot := rfl
@[simp] theorem State.endLevel_kpHome (s : State) (k : Kind) (a : Nat) : (s.endLevel k a).kpHome = s.kpHome := rfl
@[simp] theorem State.endLevel_out (s : State) (k : Kind) (a : Nat) : (s.endLevel k a).out = s.out := rfl
@[simp] theorem State.endLevel_tbl (s : State) (k : Kind) (a : Nat) : (s.endLevel k a).tbl = s.tbl := rfl
@[simp] theorem State.endLevel_ph (s : State) (k : Kind) (a : Nat) : (s.endLevel k a).ph = s.ph := rfl
@[simp] theorem State.endLevel_seq (s : State) (k : Kind) (a : Nat) : (s.endLevel k a).seq = s.seq := rfl
@[simp] theorem State.endLevel_eng (s : State) (k : Kind) (a : Nat) : (s.endLevel k a).eng = s.eng := rfl
@[simp] theorem State.endLevel_seqStore (s : State) (k : Kind) (a : Nat) : (s.endLevel k a).seqStore = s.seqStore := rfl
@[simp] theorem State.endLevel_seqUe (s : State) (k : Kind) (a : Nat) : (s.endLevel k a).seqUe = s.seqUe := rfl
@[simp] theorem State.endLevel_seqWeak (s : State) (k : Kind) (a : Nat) : (s.endLevel k a).seqWeak = s.seqWeak := rfl
@[simp] theorem State.endLevel_seqPast (s : State) (k : Kind) (a : Nat) : (s.endLevel k a).seqPast = s.seqPast := rfl
@[simp] theorem State.endLevel_tenStore (s : State) (k : Kind) (a : Nat) : (s.endLevel k a).tenStore = s.tenStore := rfl
@[simp] theorem State.endLevel_tenUe (s : State) (k : Kind) (a : Nat) : (s.endLevel k a).tenUe = s.tenUe := rfl
@[simp] theorem State.endLevel_tenWeak (s : State) (k : Kind) (a : Nat) : (s.endLevel k a).tenWeak = s.tenWeak := rfl
@[simp] theorem State.endLevel_tenPast (s : State) (k : Kind) (a : Nat) : (s.endLevel k a).tenPast = s.tenPast := rfl
@[simp] theorem State.endLevel_bay (s : State) (k : Kind) (a : Nat) : (s.endLevel k a).bay = s.bay := rfl
@[simp] theorem State.endLevel_chp (s : State) (k : Kind) (a : Nat) : (s.endLevel k a).chp = s.chp := rfl
@[simp] theorem State.endLevel_heads (s : State) (k : Kind) (a : Nat) : (s.endLevel k a).heads = s.heads := rfl
@[simp] theorem State.endLevel_mb (s : State) (k : Kind) (a : Nat) : (s.endLevel k a).mb = s.mb := rfl
@[simp] theorem State.endLevel_feeds (s : State) (k : Kind) (a : Nat) : (s.endLevel k a).feeds = s.feeds := rfl
@[simp] theorem State.endLevel_sup (s : State) (k : Kind) (a : Nat) : (s.endLevel k a).sup = s.sup := rfl
@[simp] theorem State.endLevel_mgt (s : State) (k : Kind) (a : Nat) : (s.endLevel k a).mgt = s.mgt := rfl
@[simp] theorem State.endLevel_cyc (s : State) (k : Kind) (a : Nat) : (s.endLevel k a).cyc = s.cyc := rfl
@[simp] theorem State.endLevel_xbar (s : State) (k : Kind) (a : Nat) : (s.endLevel k a).xbar = s.xbar := rfl
@[simp] theorem State.endLevel_red (s : State) (k : Kind) (a : Nat) : (s.endLevel k a).red = s.red := rfl
@[simp] theorem State.endLevel_ring (s : State) (k : Kind) (a : Nat) : (s.endLevel k a).ring = s.ring := rfl
@[simp] theorem State.endLevel_brg (s : State) (k : Kind) (a : Nat) : (s.endLevel k a).brg = s.brg := rfl
@[simp] theorem State.endLevel_get (s : State) (k : Kind) (a : Nat) (g : Field) : (s.endLevel k a).get g = s.get g := rfl

/-! ### `State.emit` changes `out` alone -/

@[simp] theorem State.emit_pending (s : State) (o : Out) : (s.emit o).pending = s.pending := rfl
@[simp] theorem State.emit_now (s : State) (o : Out) : (s.emit o).now = s.now := rfl
@[simp] theorem State.emit_free (s : State) (o : Out) : (s.emit o).free = s.free := rfl
@[simp] theorem State.emit_regs (s : State) (o : Out) : (s.emit o).regs = s.regs := rfl
@[simp] theorem State.emit_kpMode (s : State) (o : Out) : (s.emit o).kpMode = s.kpMode := rfl
@[simp] theorem State.emit_kpNode (s : State) (o : Out) : (s.emit o).kpNode = s.kpNode := rfl
@[simp] theorem State.emit_kpClaim (s : State) (o : Out) : (s.emit o).kpClaim = s.kpClaim := rfl
@[simp] theorem State.emit_kpGslot (s : State) (o : Out) : (s.emit o).kpGslot = s.kpGslot := rfl
@[simp] theorem State.emit_kpHome (s : State) (o : Out) : (s.emit o).kpHome = s.kpHome := rfl
@[simp] theorem State.emit_tbl (s : State) (o : Out) : (s.emit o).tbl = s.tbl := rfl
@[simp] theorem State.emit_ph (s : State) (o : Out) : (s.emit o).ph = s.ph := rfl
@[simp] theorem State.emit_seq (s : State) (o : Out) : (s.emit o).seq = s.seq := rfl
@[simp] theorem State.emit_eng (s : State) (o : Out) : (s.emit o).eng = s.eng := rfl
@[simp] theorem State.emit_seqStore (s : State) (o : Out) : (s.emit o).seqStore = s.seqStore := rfl
@[simp] theorem State.emit_seqUe (s : State) (o : Out) : (s.emit o).seqUe = s.seqUe := rfl
@[simp] theorem State.emit_seqWeak (s : State) (o : Out) : (s.emit o).seqWeak = s.seqWeak := rfl
@[simp] theorem State.emit_seqPast (s : State) (o : Out) : (s.emit o).seqPast = s.seqPast := rfl
@[simp] theorem State.emit_tenStore (s : State) (o : Out) : (s.emit o).tenStore = s.tenStore := rfl
@[simp] theorem State.emit_tenUe (s : State) (o : Out) : (s.emit o).tenUe = s.tenUe := rfl
@[simp] theorem State.emit_tenWeak (s : State) (o : Out) : (s.emit o).tenWeak = s.tenWeak := rfl
@[simp] theorem State.emit_tenPast (s : State) (o : Out) : (s.emit o).tenPast = s.tenPast := rfl
@[simp] theorem State.emit_bay (s : State) (o : Out) : (s.emit o).bay = s.bay := rfl
@[simp] theorem State.emit_chp (s : State) (o : Out) : (s.emit o).chp = s.chp := rfl
@[simp] theorem State.emit_heads (s : State) (o : Out) : (s.emit o).heads = s.heads := rfl
@[simp] theorem State.emit_mb (s : State) (o : Out) : (s.emit o).mb = s.mb := rfl
@[simp] theorem State.emit_feeds (s : State) (o : Out) : (s.emit o).feeds = s.feeds := rfl
@[simp] theorem State.emit_sup (s : State) (o : Out) : (s.emit o).sup = s.sup := rfl
@[simp] theorem State.emit_flt (s : State) (o : Out) : (s.emit o).flt = s.flt := rfl
@[simp] theorem State.emit_mgt (s : State) (o : Out) : (s.emit o).mgt = s.mgt := rfl
@[simp] theorem State.emit_cyc (s : State) (o : Out) : (s.emit o).cyc = s.cyc := rfl
@[simp] theorem State.emit_xbar (s : State) (o : Out) : (s.emit o).xbar = s.xbar := rfl
@[simp] theorem State.emit_red (s : State) (o : Out) : (s.emit o).red = s.red := rfl
@[simp] theorem State.emit_ring (s : State) (o : Out) : (s.emit o).ring = s.ring := rfl
@[simp] theorem State.emit_brg (s : State) (o : Out) : (s.emit o).brg = s.brg := rfl
@[simp] theorem State.emit_get (s : State) (o : Out) (g : Field) : (s.emit o).get g = s.get g := rfl

/-! ### `State.sendFor` changes `xbar` alone -/

@[simp] theorem State.sendFor_pending (s : State) (cp ten : Nat) (c : Cell) : (s.sendFor cp ten c).pending = s.pending := rfl
@[simp] theorem State.sendFor_now (s : State) (cp ten : Nat) (c : Cell) : (s.sendFor cp ten c).now = s.now := rfl
@[simp] theorem State.sendFor_free (s : State) (cp ten : Nat) (c : Cell) : (s.sendFor cp ten c).free = s.free := rfl
@[simp] theorem State.sendFor_regs (s : State) (cp ten : Nat) (c : Cell) : (s.sendFor cp ten c).regs = s.regs := rfl
@[simp] theorem State.sendFor_kpMode (s : State) (cp ten : Nat) (c : Cell) : (s.sendFor cp ten c).kpMode = s.kpMode := rfl
@[simp] theorem State.sendFor_kpNode (s : State) (cp ten : Nat) (c : Cell) : (s.sendFor cp ten c).kpNode = s.kpNode := rfl
@[simp] theorem State.sendFor_kpClaim (s : State) (cp ten : Nat) (c : Cell) : (s.sendFor cp ten c).kpClaim = s.kpClaim := rfl
@[simp] theorem State.sendFor_kpGslot (s : State) (cp ten : Nat) (c : Cell) : (s.sendFor cp ten c).kpGslot = s.kpGslot := rfl
@[simp] theorem State.sendFor_kpHome (s : State) (cp ten : Nat) (c : Cell) : (s.sendFor cp ten c).kpHome = s.kpHome := rfl
@[simp] theorem State.sendFor_out (s : State) (cp ten : Nat) (c : Cell) : (s.sendFor cp ten c).out = s.out := rfl
@[simp] theorem State.sendFor_tbl (s : State) (cp ten : Nat) (c : Cell) : (s.sendFor cp ten c).tbl = s.tbl := rfl
@[simp] theorem State.sendFor_ph (s : State) (cp ten : Nat) (c : Cell) : (s.sendFor cp ten c).ph = s.ph := rfl
@[simp] theorem State.sendFor_seq (s : State) (cp ten : Nat) (c : Cell) : (s.sendFor cp ten c).seq = s.seq := rfl
@[simp] theorem State.sendFor_eng (s : State) (cp ten : Nat) (c : Cell) : (s.sendFor cp ten c).eng = s.eng := rfl
@[simp] theorem State.sendFor_seqStore (s : State) (cp ten : Nat) (c : Cell) : (s.sendFor cp ten c).seqStore = s.seqStore := rfl
@[simp] theorem State.sendFor_seqUe (s : State) (cp ten : Nat) (c : Cell) : (s.sendFor cp ten c).seqUe = s.seqUe := rfl
@[simp] theorem State.sendFor_seqWeak (s : State) (cp ten : Nat) (c : Cell) : (s.sendFor cp ten c).seqWeak = s.seqWeak := rfl
@[simp] theorem State.sendFor_seqPast (s : State) (cp ten : Nat) (c : Cell) : (s.sendFor cp ten c).seqPast = s.seqPast := rfl
@[simp] theorem State.sendFor_tenStore (s : State) (cp ten : Nat) (c : Cell) : (s.sendFor cp ten c).tenStore = s.tenStore := rfl
@[simp] theorem State.sendFor_tenUe (s : State) (cp ten : Nat) (c : Cell) : (s.sendFor cp ten c).tenUe = s.tenUe := rfl
@[simp] theorem State.sendFor_tenWeak (s : State) (cp ten : Nat) (c : Cell) : (s.sendFor cp ten c).tenWeak = s.tenWeak := rfl
@[simp] theorem State.sendFor_tenPast (s : State) (cp ten : Nat) (c : Cell) : (s.sendFor cp ten c).tenPast = s.tenPast := rfl
@[simp] theorem State.sendFor_bay (s : State) (cp ten : Nat) (c : Cell) : (s.sendFor cp ten c).bay = s.bay := rfl
@[simp] theorem State.sendFor_chp (s : State) (cp ten : Nat) (c : Cell) : (s.sendFor cp ten c).chp = s.chp := rfl
@[simp] theorem State.sendFor_heads (s : State) (cp ten : Nat) (c : Cell) : (s.sendFor cp ten c).heads = s.heads := rfl
@[simp] theorem State.sendFor_mb (s : State) (cp ten : Nat) (c : Cell) : (s.sendFor cp ten c).mb = s.mb := rfl
@[simp] theorem State.sendFor_feeds (s : State) (cp ten : Nat) (c : Cell) : (s.sendFor cp ten c).feeds = s.feeds := rfl
@[simp] theorem State.sendFor_sup (s : State) (cp ten : Nat) (c : Cell) : (s.sendFor cp ten c).sup = s.sup := rfl
@[simp] theorem State.sendFor_flt (s : State) (cp ten : Nat) (c : Cell) : (s.sendFor cp ten c).flt = s.flt := rfl
@[simp] theorem State.sendFor_mgt (s : State) (cp ten : Nat) (c : Cell) : (s.sendFor cp ten c).mgt = s.mgt := rfl
@[simp] theorem State.sendFor_cyc (s : State) (cp ten : Nat) (c : Cell) : (s.sendFor cp ten c).cyc = s.cyc := rfl
@[simp] theorem State.sendFor_red (s : State) (cp ten : Nat) (c : Cell) : (s.sendFor cp ten c).red = s.red := rfl
@[simp] theorem State.sendFor_ring (s : State) (cp ten : Nat) (c : Cell) : (s.sendFor cp ten c).ring = s.ring := rfl
@[simp] theorem State.sendFor_brg (s : State) (cp ten : Nat) (c : Cell) : (s.sendFor cp ten c).brg = s.brg := rfl
@[simp] theorem State.sendFor_get (s : State) (cp ten : Nat) (c : Cell) (g : Field) : (s.sendFor cp ten c).get g = s.get g := rfl

/-! ### `State.send` changes `xbar` alone -/

@[simp] theorem State.send_pending (s : State) (cp : Nat) (c : Cell) : (s.send cp c).pending = s.pending := rfl
@[simp] theorem State.send_now (s : State) (cp : Nat) (c : Cell) : (s.send cp c).now = s.now := rfl
@[simp] theorem State.send_free (s : State) (cp : Nat) (c : Cell) : (s.send cp c).free = s.free := rfl
@[simp] theorem State.send_regs (s : State) (cp : Nat) (c : Cell) : (s.send cp c).regs = s.regs := rfl
@[simp] theorem State.send_kpMode (s : State) (cp : Nat) (c : Cell) : (s.send cp c).kpMode = s.kpMode := rfl
@[simp] theorem State.send_kpNode (s : State) (cp : Nat) (c : Cell) : (s.send cp c).kpNode = s.kpNode := rfl
@[simp] theorem State.send_kpClaim (s : State) (cp : Nat) (c : Cell) : (s.send cp c).kpClaim = s.kpClaim := rfl
@[simp] theorem State.send_kpGslot (s : State) (cp : Nat) (c : Cell) : (s.send cp c).kpGslot = s.kpGslot := rfl
@[simp] theorem State.send_kpHome (s : State) (cp : Nat) (c : Cell) : (s.send cp c).kpHome = s.kpHome := rfl
@[simp] theorem State.send_out (s : State) (cp : Nat) (c : Cell) : (s.send cp c).out = s.out := rfl
@[simp] theorem State.send_tbl (s : State) (cp : Nat) (c : Cell) : (s.send cp c).tbl = s.tbl := rfl
@[simp] theorem State.send_ph (s : State) (cp : Nat) (c : Cell) : (s.send cp c).ph = s.ph := rfl
@[simp] theorem State.send_seq (s : State) (cp : Nat) (c : Cell) : (s.send cp c).seq = s.seq := rfl
@[simp] theorem State.send_eng (s : State) (cp : Nat) (c : Cell) : (s.send cp c).eng = s.eng := rfl
@[simp] theorem State.send_seqStore (s : State) (cp : Nat) (c : Cell) : (s.send cp c).seqStore = s.seqStore := rfl
@[simp] theorem State.send_seqUe (s : State) (cp : Nat) (c : Cell) : (s.send cp c).seqUe = s.seqUe := rfl
@[simp] theorem State.send_seqWeak (s : State) (cp : Nat) (c : Cell) : (s.send cp c).seqWeak = s.seqWeak := rfl
@[simp] theorem State.send_seqPast (s : State) (cp : Nat) (c : Cell) : (s.send cp c).seqPast = s.seqPast := rfl
@[simp] theorem State.send_tenStore (s : State) (cp : Nat) (c : Cell) : (s.send cp c).tenStore = s.tenStore := rfl
@[simp] theorem State.send_tenUe (s : State) (cp : Nat) (c : Cell) : (s.send cp c).tenUe = s.tenUe := rfl
@[simp] theorem State.send_tenWeak (s : State) (cp : Nat) (c : Cell) : (s.send cp c).tenWeak = s.tenWeak := rfl
@[simp] theorem State.send_tenPast (s : State) (cp : Nat) (c : Cell) : (s.send cp c).tenPast = s.tenPast := rfl
@[simp] theorem State.send_bay (s : State) (cp : Nat) (c : Cell) : (s.send cp c).bay = s.bay := rfl
@[simp] theorem State.send_chp (s : State) (cp : Nat) (c : Cell) : (s.send cp c).chp = s.chp := rfl
@[simp] theorem State.send_heads (s : State) (cp : Nat) (c : Cell) : (s.send cp c).heads = s.heads := rfl
@[simp] theorem State.send_mb (s : State) (cp : Nat) (c : Cell) : (s.send cp c).mb = s.mb := rfl
@[simp] theorem State.send_feeds (s : State) (cp : Nat) (c : Cell) : (s.send cp c).feeds = s.feeds := rfl
@[simp] theorem State.send_sup (s : State) (cp : Nat) (c : Cell) : (s.send cp c).sup = s.sup := rfl
@[simp] theorem State.send_flt (s : State) (cp : Nat) (c : Cell) : (s.send cp c).flt = s.flt := rfl
@[simp] theorem State.send_mgt (s : State) (cp : Nat) (c : Cell) : (s.send cp c).mgt = s.mgt := rfl
@[simp] theorem State.send_cyc (s : State) (cp : Nat) (c : Cell) : (s.send cp c).cyc = s.cyc := rfl
@[simp] theorem State.send_red (s : State) (cp : Nat) (c : Cell) : (s.send cp c).red = s.red := rfl
@[simp] theorem State.send_ring (s : State) (cp : Nat) (c : Cell) : (s.send cp c).ring = s.ring := rfl
@[simp] theorem State.send_brg (s : State) (cp : Nat) (c : Cell) : (s.send cp c).brg = s.brg := rfl
@[simp] theorem State.send_get (s : State) (cp : Nat) (c : Cell) (g : Field) : (s.send cp c).get g = s.get g := rfl

/-! ### `State.draw` changes `free` alone -/

@[simp] theorem State.draw_pending (s : State) : (s.draw).pending = s.pending := rfl
@[simp] theorem State.draw_now (s : State) : (s.draw).now = s.now := rfl
@[simp] theorem State.draw_regs (s : State) : (s.draw).regs = s.regs := rfl
@[simp] theorem State.draw_kpMode (s : State) : (s.draw).kpMode = s.kpMode := rfl
@[simp] theorem State.draw_kpNode (s : State) : (s.draw).kpNode = s.kpNode := rfl
@[simp] theorem State.draw_kpClaim (s : State) : (s.draw).kpClaim = s.kpClaim := rfl
@[simp] theorem State.draw_kpGslot (s : State) : (s.draw).kpGslot = s.kpGslot := rfl
@[simp] theorem State.draw_kpHome (s : State) : (s.draw).kpHome = s.kpHome := rfl
@[simp] theorem State.draw_out (s : State) : (s.draw).out = s.out := rfl
@[simp] theorem State.draw_tbl (s : State) : (s.draw).tbl = s.tbl := rfl
@[simp] theorem State.draw_ph (s : State) : (s.draw).ph = s.ph := rfl
@[simp] theorem State.draw_seq (s : State) : (s.draw).seq = s.seq := rfl
@[simp] theorem State.draw_eng (s : State) : (s.draw).eng = s.eng := rfl
@[simp] theorem State.draw_seqStore (s : State) : (s.draw).seqStore = s.seqStore := rfl
@[simp] theorem State.draw_seqUe (s : State) : (s.draw).seqUe = s.seqUe := rfl
@[simp] theorem State.draw_seqWeak (s : State) : (s.draw).seqWeak = s.seqWeak := rfl
@[simp] theorem State.draw_seqPast (s : State) : (s.draw).seqPast = s.seqPast := rfl
@[simp] theorem State.draw_tenStore (s : State) : (s.draw).tenStore = s.tenStore := rfl
@[simp] theorem State.draw_tenUe (s : State) : (s.draw).tenUe = s.tenUe := rfl
@[simp] theorem State.draw_tenWeak (s : State) : (s.draw).tenWeak = s.tenWeak := rfl
@[simp] theorem State.draw_tenPast (s : State) : (s.draw).tenPast = s.tenPast := rfl
@[simp] theorem State.draw_bay (s : State) : (s.draw).bay = s.bay := rfl
@[simp] theorem State.draw_chp (s : State) : (s.draw).chp = s.chp := rfl
@[simp] theorem State.draw_heads (s : State) : (s.draw).heads = s.heads := rfl
@[simp] theorem State.draw_mb (s : State) : (s.draw).mb = s.mb := rfl
@[simp] theorem State.draw_feeds (s : State) : (s.draw).feeds = s.feeds := rfl
@[simp] theorem State.draw_sup (s : State) : (s.draw).sup = s.sup := rfl
@[simp] theorem State.draw_flt (s : State) : (s.draw).flt = s.flt := rfl
@[simp] theorem State.draw_mgt (s : State) : (s.draw).mgt = s.mgt := rfl
@[simp] theorem State.draw_cyc (s : State) : (s.draw).cyc = s.cyc := rfl
@[simp] theorem State.draw_xbar (s : State) : (s.draw).xbar = s.xbar := rfl
@[simp] theorem State.draw_red (s : State) : (s.draw).red = s.red := rfl
@[simp] theorem State.draw_ring (s : State) : (s.draw).ring = s.ring := rfl
@[simp] theorem State.draw_brg (s : State) : (s.draw).brg = s.brg := rfl
@[simp] theorem State.draw_get (s : State) (g : Field) : (s.draw).get g = s.get g := rfl

/-! ### `State.raiseLevel` changes `flt` alone -/

@[simp] theorem State.raiseLevel_pending (s : State) (k : Kind) (a : Nat) : (s.raiseLevel k a).pending = s.pending := by
  unfold State.raiseLevel; split <;> rfl
@[simp] theorem State.raiseLevel_now (s : State) (k : Kind) (a : Nat) : (s.raiseLevel k a).now = s.now := by
  unfold State.raiseLevel; split <;> rfl
@[simp] theorem State.raiseLevel_free (s : State) (k : Kind) (a : Nat) : (s.raiseLevel k a).free = s.free := by
  unfold State.raiseLevel; split <;> rfl
@[simp] theorem State.raiseLevel_regs (s : State) (k : Kind) (a : Nat) : (s.raiseLevel k a).regs = s.regs := by
  unfold State.raiseLevel; split <;> rfl
@[simp] theorem State.raiseLevel_kpMode (s : State) (k : Kind) (a : Nat) : (s.raiseLevel k a).kpMode = s.kpMode := by
  unfold State.raiseLevel; split <;> rfl
@[simp] theorem State.raiseLevel_kpNode (s : State) (k : Kind) (a : Nat) : (s.raiseLevel k a).kpNode = s.kpNode := by
  unfold State.raiseLevel; split <;> rfl
@[simp] theorem State.raiseLevel_kpClaim (s : State) (k : Kind) (a : Nat) : (s.raiseLevel k a).kpClaim = s.kpClaim := by
  unfold State.raiseLevel; split <;> rfl
@[simp] theorem State.raiseLevel_kpGslot (s : State) (k : Kind) (a : Nat) : (s.raiseLevel k a).kpGslot = s.kpGslot := by
  unfold State.raiseLevel; split <;> rfl
@[simp] theorem State.raiseLevel_kpHome (s : State) (k : Kind) (a : Nat) : (s.raiseLevel k a).kpHome = s.kpHome := by
  unfold State.raiseLevel; split <;> rfl
@[simp] theorem State.raiseLevel_out (s : State) (k : Kind) (a : Nat) : (s.raiseLevel k a).out = s.out := by
  unfold State.raiseLevel; split <;> rfl
@[simp] theorem State.raiseLevel_tbl (s : State) (k : Kind) (a : Nat) : (s.raiseLevel k a).tbl = s.tbl := by
  unfold State.raiseLevel; split <;> rfl
@[simp] theorem State.raiseLevel_ph (s : State) (k : Kind) (a : Nat) : (s.raiseLevel k a).ph = s.ph := by
  unfold State.raiseLevel; split <;> rfl
@[simp] theorem State.raiseLevel_seq (s : State) (k : Kind) (a : Nat) : (s.raiseLevel k a).seq = s.seq := by
  unfold State.raiseLevel; split <;> rfl
@[simp] theorem State.raiseLevel_eng (s : State) (k : Kind) (a : Nat) : (s.raiseLevel k a).eng = s.eng := by
  unfold State.raiseLevel; split <;> rfl
@[simp] theorem State.raiseLevel_seqStore (s : State) (k : Kind) (a : Nat) : (s.raiseLevel k a).seqStore = s.seqStore := by
  unfold State.raiseLevel; split <;> rfl
@[simp] theorem State.raiseLevel_seqUe (s : State) (k : Kind) (a : Nat) : (s.raiseLevel k a).seqUe = s.seqUe := by
  unfold State.raiseLevel; split <;> rfl
@[simp] theorem State.raiseLevel_seqWeak (s : State) (k : Kind) (a : Nat) : (s.raiseLevel k a).seqWeak = s.seqWeak := by
  unfold State.raiseLevel; split <;> rfl
@[simp] theorem State.raiseLevel_seqPast (s : State) (k : Kind) (a : Nat) : (s.raiseLevel k a).seqPast = s.seqPast := by
  unfold State.raiseLevel; split <;> rfl
@[simp] theorem State.raiseLevel_tenStore (s : State) (k : Kind) (a : Nat) : (s.raiseLevel k a).tenStore = s.tenStore := by
  unfold State.raiseLevel; split <;> rfl
@[simp] theorem State.raiseLevel_tenUe (s : State) (k : Kind) (a : Nat) : (s.raiseLevel k a).tenUe = s.tenUe := by
  unfold State.raiseLevel; split <;> rfl
@[simp] theorem State.raiseLevel_tenWeak (s : State) (k : Kind) (a : Nat) : (s.raiseLevel k a).tenWeak = s.tenWeak := by
  unfold State.raiseLevel; split <;> rfl
@[simp] theorem State.raiseLevel_tenPast (s : State) (k : Kind) (a : Nat) : (s.raiseLevel k a).tenPast = s.tenPast := by
  unfold State.raiseLevel; split <;> rfl
@[simp] theorem State.raiseLevel_bay (s : State) (k : Kind) (a : Nat) : (s.raiseLevel k a).bay = s.bay := by
  unfold State.raiseLevel; split <;> rfl
@[simp] theorem State.raiseLevel_chp (s : State) (k : Kind) (a : Nat) : (s.raiseLevel k a).chp = s.chp := by
  unfold State.raiseLevel; split <;> rfl
@[simp] theorem State.raiseLevel_heads (s : State) (k : Kind) (a : Nat) : (s.raiseLevel k a).heads = s.heads := by
  unfold State.raiseLevel; split <;> rfl
@[simp] theorem State.raiseLevel_mb (s : State) (k : Kind) (a : Nat) : (s.raiseLevel k a).mb = s.mb := by
  unfold State.raiseLevel; split <;> rfl
@[simp] theorem State.raiseLevel_feeds (s : State) (k : Kind) (a : Nat) : (s.raiseLevel k a).feeds = s.feeds := by
  unfold State.raiseLevel; split <;> rfl
@[simp] theorem State.raiseLevel_sup (s : State) (k : Kind) (a : Nat) : (s.raiseLevel k a).sup = s.sup := by
  unfold State.raiseLevel; split <;> rfl
@[simp] theorem State.raiseLevel_mgt (s : State) (k : Kind) (a : Nat) : (s.raiseLevel k a).mgt = s.mgt := by
  unfold State.raiseLevel; split <;> rfl
@[simp] theorem State.raiseLevel_cyc (s : State) (k : Kind) (a : Nat) : (s.raiseLevel k a).cyc = s.cyc := by
  unfold State.raiseLevel; split <;> rfl
@[simp] theorem State.raiseLevel_xbar (s : State) (k : Kind) (a : Nat) : (s.raiseLevel k a).xbar = s.xbar := by
  unfold State.raiseLevel; split <;> rfl
@[simp] theorem State.raiseLevel_red (s : State) (k : Kind) (a : Nat) : (s.raiseLevel k a).red = s.red := by
  unfold State.raiseLevel; split <;> rfl
@[simp] theorem State.raiseLevel_ring (s : State) (k : Kind) (a : Nat) : (s.raiseLevel k a).ring = s.ring := by
  unfold State.raiseLevel; split <;> rfl
@[simp] theorem State.raiseLevel_brg (s : State) (k : Kind) (a : Nat) : (s.raiseLevel k a).brg = s.brg := by
  unfold State.raiseLevel; split <;> rfl
@[simp] theorem State.raiseLevel_get (s : State) (k : Kind) (a : Nat) (g : Field) : (s.raiseLevel k a).get g = s.get g := by
  simp [State.get]

/-! ### `State.level` changes `flt` alone -/

@[simp] theorem State.level_pending (s : State) (k : Kind) (a : Nat) (b : Bool) : (s.level k a b).pending = s.pending := by
  cases b <;> simp [State.level]
@[simp] theorem State.level_now (s : State) (k : Kind) (a : Nat) (b : Bool) : (s.level k a b).now = s.now := by
  cases b <;> simp [State.level]
@[simp] theorem State.level_free (s : State) (k : Kind) (a : Nat) (b : Bool) : (s.level k a b).free = s.free := by
  cases b <;> simp [State.level]
@[simp] theorem State.level_regs (s : State) (k : Kind) (a : Nat) (b : Bool) : (s.level k a b).regs = s.regs := by
  cases b <;> simp [State.level]
@[simp] theorem State.level_kpMode (s : State) (k : Kind) (a : Nat) (b : Bool) : (s.level k a b).kpMode = s.kpMode := by
  cases b <;> simp [State.level]
@[simp] theorem State.level_kpNode (s : State) (k : Kind) (a : Nat) (b : Bool) : (s.level k a b).kpNode = s.kpNode := by
  cases b <;> simp [State.level]
@[simp] theorem State.level_kpClaim (s : State) (k : Kind) (a : Nat) (b : Bool) : (s.level k a b).kpClaim = s.kpClaim := by
  cases b <;> simp [State.level]
@[simp] theorem State.level_kpGslot (s : State) (k : Kind) (a : Nat) (b : Bool) : (s.level k a b).kpGslot = s.kpGslot := by
  cases b <;> simp [State.level]
@[simp] theorem State.level_kpHome (s : State) (k : Kind) (a : Nat) (b : Bool) : (s.level k a b).kpHome = s.kpHome := by
  cases b <;> simp [State.level]
@[simp] theorem State.level_out (s : State) (k : Kind) (a : Nat) (b : Bool) : (s.level k a b).out = s.out := by
  cases b <;> simp [State.level]
@[simp] theorem State.level_tbl (s : State) (k : Kind) (a : Nat) (b : Bool) : (s.level k a b).tbl = s.tbl := by
  cases b <;> simp [State.level]
@[simp] theorem State.level_ph (s : State) (k : Kind) (a : Nat) (b : Bool) : (s.level k a b).ph = s.ph := by
  cases b <;> simp [State.level]
@[simp] theorem State.level_seq (s : State) (k : Kind) (a : Nat) (b : Bool) : (s.level k a b).seq = s.seq := by
  cases b <;> simp [State.level]
@[simp] theorem State.level_eng (s : State) (k : Kind) (a : Nat) (b : Bool) : (s.level k a b).eng = s.eng := by
  cases b <;> simp [State.level]
@[simp] theorem State.level_seqStore (s : State) (k : Kind) (a : Nat) (b : Bool) : (s.level k a b).seqStore = s.seqStore := by
  cases b <;> simp [State.level]
@[simp] theorem State.level_seqUe (s : State) (k : Kind) (a : Nat) (b : Bool) : (s.level k a b).seqUe = s.seqUe := by
  cases b <;> simp [State.level]
@[simp] theorem State.level_seqWeak (s : State) (k : Kind) (a : Nat) (b : Bool) : (s.level k a b).seqWeak = s.seqWeak := by
  cases b <;> simp [State.level]
@[simp] theorem State.level_seqPast (s : State) (k : Kind) (a : Nat) (b : Bool) : (s.level k a b).seqPast = s.seqPast := by
  cases b <;> simp [State.level]
@[simp] theorem State.level_tenStore (s : State) (k : Kind) (a : Nat) (b : Bool) : (s.level k a b).tenStore = s.tenStore := by
  cases b <;> simp [State.level]
@[simp] theorem State.level_tenUe (s : State) (k : Kind) (a : Nat) (b : Bool) : (s.level k a b).tenUe = s.tenUe := by
  cases b <;> simp [State.level]
@[simp] theorem State.level_tenWeak (s : State) (k : Kind) (a : Nat) (b : Bool) : (s.level k a b).tenWeak = s.tenWeak := by
  cases b <;> simp [State.level]
@[simp] theorem State.level_tenPast (s : State) (k : Kind) (a : Nat) (b : Bool) : (s.level k a b).tenPast = s.tenPast := by
  cases b <;> simp [State.level]
@[simp] theorem State.level_bay (s : State) (k : Kind) (a : Nat) (b : Bool) : (s.level k a b).bay = s.bay := by
  cases b <;> simp [State.level]
@[simp] theorem State.level_chp (s : State) (k : Kind) (a : Nat) (b : Bool) : (s.level k a b).chp = s.chp := by
  cases b <;> simp [State.level]
@[simp] theorem State.level_heads (s : State) (k : Kind) (a : Nat) (b : Bool) : (s.level k a b).heads = s.heads := by
  cases b <;> simp [State.level]
@[simp] theorem State.level_mb (s : State) (k : Kind) (a : Nat) (b : Bool) : (s.level k a b).mb = s.mb := by
  cases b <;> simp [State.level]
@[simp] theorem State.level_feeds (s : State) (k : Kind) (a : Nat) (b : Bool) : (s.level k a b).feeds = s.feeds := by
  cases b <;> simp [State.level]
@[simp] theorem State.level_sup (s : State) (k : Kind) (a : Nat) (b : Bool) : (s.level k a b).sup = s.sup := by
  cases b <;> simp [State.level]
@[simp] theorem State.level_mgt (s : State) (k : Kind) (a : Nat) (b : Bool) : (s.level k a b).mgt = s.mgt := by
  cases b <;> simp [State.level]
@[simp] theorem State.level_cyc (s : State) (k : Kind) (a : Nat) (b : Bool) : (s.level k a b).cyc = s.cyc := by
  cases b <;> simp [State.level]
@[simp] theorem State.level_xbar (s : State) (k : Kind) (a : Nat) (b : Bool) : (s.level k a b).xbar = s.xbar := by
  cases b <;> simp [State.level]
@[simp] theorem State.level_red (s : State) (k : Kind) (a : Nat) (b : Bool) : (s.level k a b).red = s.red := by
  cases b <;> simp [State.level]
@[simp] theorem State.level_ring (s : State) (k : Kind) (a : Nat) (b : Bool) : (s.level k a b).ring = s.ring := by
  cases b <;> simp [State.level]
@[simp] theorem State.level_brg (s : State) (k : Kind) (a : Nat) (b : Bool) : (s.level k a b).brg = s.brg := by
  cases b <;> simp [State.level]
@[simp] theorem State.level_get (s : State) (k : Kind) (a : Nat) (b : Bool) (g : Field) : (s.level k a b).get g = s.get g := by
  simp [State.get]

end Sys2Proof.Machine
end

