-- ==== Sys2Proof/Laws/Kept.lean ====
section
/-! SUPPORT. What every operation of the hub keeps: the queue of commands is not touched, the clock
does not run back, and a sound state stays sound. -/

namespace Sys2Proof.Machine

/-- From `s` to `t` the queue is untouched, the clock has not run back, and a sound state stays sound. -/
def Kept (s t : State) : Prop :=
  t.pending = s.pending ∧ s.now ≤ t.now ∧ (s.Sound → t.Sound)

/-- Where a result goes on, `Kept` holds of the next state. -/
def KeptR (s : State) (r : Result) : Prop := ∀ t, r = .next t → Kept s t

theorem Kept.refl (s : State) : Kept s s := ⟨rfl, Nat.le_refl _, id⟩

theorem Kept.trans {s t u : State} (h : Kept s t) (k : Kept t u) : Kept s u :=
  ⟨k.1.trans h.1, Nat.le_trans h.2.1 k.2.1, fun w => k.2.2 (h.2.2 w)⟩

/-- An update that leaves alone what `Kept` is about. -/
theorem Kept.same {s t u : State} (h : Kept s t) (hp : u.pending = t.pending) (hn : u.now = t.now)
    (hw : t.Sound → u.Sound) : Kept s u :=
  h.trans ⟨hp, Nat.le_of_eq hn.symm, hw⟩

/-- Of a pair, `Kept` holds of its state. -/
def KeptP {α : Type} (s : State) (p : State × α) : Prop := Kept s p.1

/-- Where an answer is there, `Kept` holds of it. -/
def KeptO (s : State) (o : Option State) : Prop := ∀ t, o = some t → Kept s t

/-- Where a pair is there, `Kept` holds of its state. -/
def KeptQ {α : Type} (s : State) (o : Option (State × α)) : Prop := ∀ t, o = some t → Kept s t.1

theorem KeptR.next {s t : State} (h : Kept s t) : KeptR s (.next t) := fun _ e => by cases e; exact h
theorem KeptR.fault (s : State) (f : Fault) : KeptR s (.fault f) := fun _ e => nomatch e
theorem KeptR.of {s t : State} {r : Result} (h : KeptR s r) (e : r = .next t) : Kept s t := h t e

theorem KeptP.mk {α : Type} {s t : State} {a : α} (h : Kept s t) : KeptP s (t, a) := h
theorem KeptP.fst {α : Type} {s : State} {p : State × α} (h : KeptP s p) : Kept s p.1 := h
theorem KeptP.of {α : Type} {s t : State} {a : α} {p : State × α} (h : KeptP s p) (e : p = (t, a)) :
    Kept s t := by subst e; exact h

theorem KeptO.none (s : State) : KeptO s Option.none := fun _ e => nomatch e
theorem KeptO.some {s t : State} (h : Kept s t) : KeptO s (Option.some t) := fun _ e => by cases e; exact h
theorem KeptO.of {s t : State} {o : Option State} (h : KeptO s o) (e : o = Option.some t) : Kept s t := h t e

theorem KeptO.getD {s x : State} {o : Option State} (h : KeptO s o) (hx : Kept s x) : Kept s (o.getD x) := by
  cases o with
  | none => exact hx
  | some t => exact h t rfl

theorem KeptQ.none {α : Type} (s : State) : KeptQ s (Option.none : Option (State × α)) := fun _ e => nomatch e
theorem KeptQ.some {α : Type} {s t : State} {a : α} (h : Kept s t) : KeptQ s (Option.some (t, a)) :=
  fun _ e => by cases e; exact h
theorem KeptQ.of {α : Type} {s t : State} {a : α} {o : Option (State × α)} (h : KeptQ s o)
    (e : o = Option.some (t, a)) : Kept s t := h _ e

/-- `Kept` of an intermediate state, for use in what follows. -/
theorem Kept.cut {s e : State} {P : Prop} (h : Kept s e) (k : Kept s e → P) : P := k h

theorem KeptO.map {α : Type} {s : State} {o : Option (State × α)} (h : KeptQ s o) :
    KeptO s (o.map fun p => p.1) := by
  cases o with
  | none => exact KeptO.none s
  | some t => exact KeptO.some (h t rfl)

theorem KeptQ.map {α : Type} {s : State} {o : Option State} {f : State → α} (h : KeptO s o) :
    KeptQ s (o.map fun t => (t, f t)) := by
  cases o with
  | none => exact KeptQ.none s
  | some t => exact KeptQ.some (h t rfl)

/-- A record update outside what `Kept` is about. -/
theorem Kept.mk_ {s t : State} {a1 a2 a3 a4 a5 a6 a7 a8 a9 a10 a11 a12 a13 a14 a15 a16 a17 a18 a19 a20 a21 a22
    a23 a24 a25 a26 a27} (h : Kept s t) : Kept s (State.mk t.pending t.now a1 t.regs a2 a3 a4 a5 a6 a7 t.tbl a8 t.seq a9 t.seqStore
    a10 a24 a26 t.tenStore a11 a25 a27 a12 a13 a14 a15 a16 a17 t.flt a18 a19 a20 a21 a22 a23) :=
  h.same rfl rfl fun w => ⟨w.mem, w.regs, w.doors, w.wheel, w.causes, w.fwd, w.remote⟩

/-- A record update that changes chapter 02's record outside its memories and its doorbell queue. -/
theorem Kept.mkTbl {s t : State} {tb : Tbl} {a1 a2 a3 a4 a5 a6 a7 a8 a9 a10 a11 a12 a13 a14 a15 a16 a17 a18 a19
    a20 a21 a22 a23 a24 a25 a26 a27} (h : Kept s t) (hd : tb.ddr = t.tbl.ddr) (hh : tb.host = t.tbl.host) (hq : tb.doors =
    t.tbl.doors) : Kept s (State.mk t.pending t.now a1 t.regs a2 a3 a4 a5 a6 a7 tb a8 t.seq a9 t.seqStore a10 a24 a26
    t.tenStore a11 a25 a27 a12 a13 a14 a15 a16 a17 t.flt a18 a19 a20 a21 a22 a23) :=
  h.same rfl rfl fun w => ⟨by simpa [State.wf, hd, hh] using w.mem, w.regs, hq ▸ w.doors, w.wheel, w.causes, w.fwd, w.remote⟩

/-- A record update that changes the sequencer's record outside its firing queue. -/
theorem Kept.mkSeq {s t : State} {sq : Seq} {a1 a2 a3 a4 a5 a6 a7 a8 a9 a10 a11 a12 a13 a14 a15 a16 a17 a18 a19
    a20 a21 a22 a23 a24 a25 a26 a27} (h : Kept s t) (hq : sq.wheel = t.seq.wheel) : Kept s (State.mk t.pending t.now a1 t.regs a2 a3
    a4 a5 a6 a7 t.tbl a8 sq a9 t.seqStore a10 a24 a26 t.tenStore a11 a25 a27 a12 a13 a14 a15 a16 a17 t.flt a18 a19 a20 a21 a22 a23)
    :=
  h.same rfl rfl fun w => ⟨w.mem, w.regs, w.doors, hq ▸ w.wheel, w.causes, w.fwd, w.remote⟩

/-- A record update that changes both, outside the same parts. -/
theorem Kept.mkTblSeq {s t : State} {tb : Tbl} {sq : Seq} {a1 a2 a3 a4 a5 a6 a7 a8 a9 a10 a11 a12 a13 a14 a15 a16 a17
    a18 a19 a20 a21 a22 a23 a24 a25 a26 a27} (h : Kept s t) (hd : tb.ddr = t.tbl.ddr) (hh : tb.host = t.tbl.host)
    (hq : tb.doors = t.tbl.doors) (hw : sq.wheel = t.seq.wheel) : Kept s (State.mk t.pending t.now a1 t.regs a2 a3 a4 a5
    a6 a7 tb a8 sq a9 t.seqStore a10 a24 a26 t.tenStore a11 a25 a27 a12 a13 a14 a15 a16 a17 t.flt a18 a19 a20 a21 a22 a23) :=
  h.same rfl rfl fun w => ⟨by simpa [State.wf, hd, hh] using w.mem, w.regs, hq ▸ w.doors, hw ▸ w.wheel, w.causes, w.fwd,
    w.remote⟩

/-- A record update that changes the collector's record outside its causes and its two message queues. -/
theorem Kept.mkFlt {s t : State} {fl : Flt} {a1 a2 a3 a4 a5 a6 a7 a8 a9 a10 a11 a12 a13 a14 a15 a16 a17 a18 a19
    a20 a21 a22 a23 a24 a25 a26 a27} (h : Kept s t) (hc : fl.causes = t.flt.causes) (hf : fl.fwdQ = t.flt.fwdQ) (hr : fl.remoteQ =
    t.flt.remoteQ) : Kept s (State.mk t.pending t.now a1 t.regs a2 a3 a4 a5 a6 a7 t.tbl a8 t.seq a9 t.seqStore a10 a24 a26
    t.tenStore a11 a25 a27 a12 a13 a14 a15 a16 a17 fl a18 a19 a20 a21 a22 a23) :=
  h.same rfl rfl fun w => ⟨w.mem, w.regs, w.doors, w.wheel, hc ▸ w.causes, hf ▸ w.fwd, hr ▸ w.remote⟩

theorem Kept.let_ {s e : State} {b : State → State} (h : Kept s e) (hb : ∀ x, Kept s x → Kept s (b x)) :
    Kept s (let x := e; b x) := hb e h
theorem Kept.letv {s : State} {β : Sort _} {e : β} {b : β → State} (hb : ∀ x, Kept s (b x)) :
    Kept s (let x := e; b x) := hb e
theorem Kept.ite_ {s : State} {c : Prop} [Decidable c] {a b : State} (ha : Kept s a) (hb : Kept s b) :
    Kept s (if c then a else b) := by split <;> assumption
theorem Kept.dite_ {s : State} {c : Prop} [Decidable c] {a : c → State} {b : ¬c → State}
    (ha : ∀ h, Kept s (a h)) (hb : ∀ h, Kept s (b h)) : Kept s (if h : c then a h else b h) := by
  split
  · exact ha _
  · exact hb _

theorem KeptR.let_ {s e : State} {b : State → Result} (h : Kept s e) (hb : ∀ x, Kept s x → KeptR s (b x)) :
    KeptR s (let x := e; b x) := hb e h
theorem KeptR.letv {s : State} {β : Sort _} {e : β} {b : β → Result} (hb : ∀ x, KeptR s (b x)) :
    KeptR s (let x := e; b x) := hb e
theorem KeptR.ite_ {s : State} {c : Prop} [Decidable c] {a b : Result} (ha : KeptR s a) (hb : KeptR s b) :
    KeptR s (if c then a else b) := by split <;> assumption
theorem KeptR.dite_ {s : State} {c : Prop} [Decidable c] {a : c → Result} {b : ¬c → Result}
    (ha : ∀ h, KeptR s (a h)) (hb : ∀ h, KeptR s (b h)) : KeptR s (if h : c then a h else b h) := by
  split
  · exact ha _
  · exact hb _

theorem KeptP.let_ {α : Type} {s e : State} {b : State → State × α} (h : Kept s e) (hb : ∀ x, Kept s x → KeptP s (b x)) :
    KeptP s (let x := e; b x) := hb e h
theorem KeptP.letv {α : Type} {s : State} {β : Sort _} {e : β} {b : β → State × α} (hb : ∀ x, KeptP s (b x)) :
    KeptP s (let x := e; b x) := hb e
theorem KeptP.ite_ {α : Type} {s : State} {c : Prop} [Decidable c] {a b : State × α} (ha : KeptP s a) (hb : KeptP s b) :
    KeptP s (if c then a else b) := by split <;> assumption
theorem KeptP.dite_ {α : Type} {s : State} {c : Prop} [Decidable c] {a : c → State × α} {b : ¬c → State × α}
    (ha : ∀ h, KeptP s (a h)) (hb : ∀ h, KeptP s (b h)) : KeptP s (if h : c then a h else b h) := by
  split
  · exact ha _
  · exact hb _

theorem KeptO.let_ {s e : State} {b : State → Option State} (h : Kept s e) (hb : ∀ x, Kept s x → KeptO s (b x)) :
    KeptO s (let x := e; b x) := hb e h
theorem KeptO.letv {s : State} {β : Sort _} {e : β} {b : β → Option State} (hb : ∀ x, KeptO s (b x)) :
    KeptO s (let x := e; b x) := hb e
theorem KeptO.ite_ {s : State} {c : Prop} [Decidable c] {a b : Option State} (ha : KeptO s a) (hb : KeptO s b) :
    KeptO s (if c then a else b) := by split <;> assumption
theorem KeptO.dite_ {s : State} {c : Prop} [Decidable c] {a : c → Option State} {b : ¬c → Option State}
    (ha : ∀ h, KeptO s (a h)) (hb : ∀ h, KeptO s (b h)) : KeptO s (if h : c then a h else b h) := by
  split
  · exact ha _
  · exact hb _

theorem KeptQ.let_ {α : Type} {s e : State} {b : State → Option (State × α)} (h : Kept s e) (hb : ∀ x, Kept s x → KeptQ s (b x)) :
    KeptQ s (let x := e; b x) := hb e h
theorem KeptQ.letv {α : Type} {s : State} {β : Sort _} {e : β} {b : β → Option (State × α)} (hb : ∀ x, KeptQ s (b x)) :
    KeptQ s (let x := e; b x) := hb e
theorem KeptQ.ite_ {α : Type} {s : State} {c : Prop} [Decidable c] {a b : Option (State × α)} (ha : KeptQ s a) (hb : KeptQ s b) :
    KeptQ s (if c then a else b) := by split <;> assumption
theorem KeptQ.dite_ {α : Type} {s : State} {c : Prop} [Decidable c] {a : c → Option (State × α)} {b : ¬c → Option (State × α)}
    (ha : ∀ h, KeptQ s (a h)) (hb : ∀ h, KeptQ s (b h)) : KeptQ s (if h : c then a h else b h) := by
  split
  · exact ha _
  · exact hb _

/-- A fold of a kept operation. -/
theorem Kept.foldl {s x : State} {α : Type} (f : State → α → State) (l : List α) (h : Kept s x)
    (hf : ∀ y a, Kept s y → Kept s (f y a)) : Kept s (l.foldl f x) := by
  induction l generalizing x with
  | nil => exact h
  | cons a l ih => exact ih (hf x a h)

theorem State.each_kept {s x : State} (n : Nat) (f : Nat → State → State) (h : Kept s x)
    (hf : ∀ i y, Kept s y → Kept s (f i y)) : Kept s (x.each n f) :=
  Kept.foldl _ _ h fun y i hy => hf i y hy

/-! ### The shared operations -/

section
variable {s x : State} (h : Kept s x)
include h

theorem State.set_kept (f : Field) (v : Nat) : Kept s (x.set f v) :=
  h.same rfl rfl fun w => ⟨w.mem, Tab.rising_put _ _ _ w.regs, w.doors, w.wheel, w.causes, w.fwd, w.remote⟩
theorem State.setB_kept (f : Field) (b : Bool) : Kept s (x.setB f b) := State.set_kept h f _
theorem State.setBit_kept (f : Field) (i : Nat) (b : Bool) : Kept s (x.setBit f i b) := State.set_kept h f _
theorem State.addSat_kept (f : Field) (n : Nat) : Kept s (x.addSat f n) := State.set_kept h f _
theorem State.inc_kept (f : Field) : Kept s (x.inc f) := State.set_kept h f _
theorem State.setInt_kept (f : Field) (v : Int) : Kept s (x.setInt f v) := State.set_kept h f _
theorem State.resetFields_kept (fs : List Field) : Kept s (x.resetFields fs) :=
  Kept.foldl _ _ h fun _ f hy => State.set_kept hy f _
theorem State.raise_kept (k : Kind) (a : Nat) : Kept s (x.raise k a) := Kept.mkFlt h rfl rfl rfl
theorem State.endLevel_kept (k : Kind) (a : Nat) : Kept s (x.endLevel k a) :=
  h.same rfl rfl fun w => ⟨w.mem, w.regs, w.doors, w.wheel, w.causes.filter _, w.fwd, w.remote⟩
theorem State.raiseLevel_kept (k : Kind) (a : Nat) : Kept s (x.raiseLevel k a) := by
  unfold State.raiseLevel; split
  · exact h
  · rename_i hn
    apply State.raise_kept
    refine h.same rfl rfl fun w => ⟨w.mem, w.regs, w.doors, w.wheel, ?_, w.fwd, w.remote⟩
    refine List.nodup_append.2 ⟨w.causes, by simp, fun c hc d hd => ?_⟩
    rintro rfl
    rw [List.mem_singleton] at hd
    exact hn (by simpa [State.inCause, hd] using hc)
theorem State.level_kept (k : Kind) (a : Nat) (b : Bool) : Kept s (x.level k a b) := by
  cases b
  · exact State.endLevel_kept h k a
  · exact State.raiseLevel_kept h k a
theorem State.emit_kept (o : Out) : Kept s (x.emit o) := Kept.mk_ h
theorem State.sendFor_kept (cp ten : Nat) (c : Cell) : Kept s (x.sendFor cp ten c) := Kept.mk_ h
theorem State.send_kept (cp : Nat) (c : Cell) : Kept s (x.send cp c) := Kept.mk_ h
theorem State.draw_kept : Kept s x.draw := Kept.mk_ h
theorem State.setKp_kept (i : Nat) (r : KpReg) : Kept s (x.setKp i r) := by
  unfold State.setKp; split <;> exact Kept.mk_ h
theorem State.kpWrite_kept (i : Nat) (v : Word) : Kept s (x.kpWrite i v) :=
  State.endLevel_kept (State.setKp_kept h i _) _ _
theorem State.movePosition_kept (n : Nat) : Kept s (x.movePosition n) :=
  State.set_kept (State.set_kept (Kept.mk_ h) _ _) _ _
theorem State.advance_kept (n : Nat) : Kept s (x.advance n) := by
  unfold State.advance; split
  · exact h
  · refine State.setInt_kept (State.movePosition_kept (State.setInt_kept (h.trans ?_) _ _) _) _ _
    exact ⟨rfl, Nat.le_add_right _ _, fun w => ⟨w.mem, w.regs, w.doors, w.wheel, w.causes, w.fwd, w.remote⟩⟩
theorem State.waitUntil_kept (t : Nat) : Kept s (x.waitUntil t) := State.advance_kept h _
theorem State.waitTicks_kept (t : Nat) : Kept s (x.waitTicks t) := State.advance_kept h _

end

end Sys2Proof.Machine
end

