-- ==== Sys2Proof/Laws/KeptChainPins.lean ====
section
/-! SUPPORT. What the operations of `Machine/ChainPins.lean` keep: the queue, the direction of the clock, sound
stores. -/

namespace Sys2Proof.Machine

theorem State.setPort_kept {s₀ s : State} (h : Kept s₀ s) (p : Nat) (r : Chp) :
    Kept s₀ (State.setPort s p r) := by
  unfold State.setPort
  apply Kept.mk_
  exact h

end Sys2Proof.Machine
end

