-- ==== Sys2Proof/Laws/KeptSpares.lean ====
section
/-! SUPPORT. What the operations of `Machine/Spares.lean` keep: the queue, the direction of the clock, sound
stores. -/

namespace Sys2Proof.Machine

theorem State.requestRow_kept {s₀ s : State} (h : Kept s₀ s) (b row : Nat) :
    Kept s₀ (State.requestRow s b row) := by
  unfold State.requestRow
  refine Kept.ite_ ?_ ?_
  · apply State.raise_kept
    exact h
  · extract_lets -merge -useContext +onlyGivenNames a1
    clear_value a1
    apply State.set_kept
    apply Kept.mk_
    exact h

theorem State.noteWear_kept {s₀ s : State} (h : Kept s₀ s) (b : Nat) :
    Kept s₀ (State.noteWear s b) := by
  unfold State.noteWear
  apply Kept.mk_
  exact h

theorem State.sramErrors_kept {s₀ s : State} (h : Kept s₀ s) (b n : Nat) :
    Kept s₀ (State.sramErrors s b n) := by
  unfold State.sramErrors
  refine Kept.ite_ ?_ ?_
  · exact h
  · extract_lets -merge -useContext +onlyGivenNames a1
    clear_value a1
    extract_lets -merge -useContext +onlyGivenNames a2
    clear_value a2
    extract_lets -merge -useContext +onlyGivenNames a3
    clear_value a3
    extract_lets -merge -useContext +onlyGivenNames a4
    have h5 : Kept s₀ a4 := by
      unfold a4
      apply State.draw_kept
      apply Kept.mk_
      exact h
    clear_value a4
    refine Kept.ite_ ?_ ?_
    · extract_lets -merge -useContext +onlyGivenNames a6
      have h7 : Kept s₀ a6 := by
        unfold a6
        apply State.raise_kept
        apply State.noteWear_kept
        exact h5
      clear_value a6
      refine Kept.ite_ ?_ ?_
      · apply State.requestRow_kept
        exact h7
      · exact h7
    · exact h5

theorem State.ddrErrors_kept {s₀ s : State} (h : Kept s₀ s) (n : Nat) :
    Kept s₀ (State.ddrErrors s n) := by
  unfold State.ddrErrors
  refine Kept.ite_ ?_ ?_
  · exact h
  · extract_lets -merge -useContext +onlyGivenNames a1
    clear_value a1
    extract_lets -merge -useContext +onlyGivenNames a2
    clear_value a2
    extract_lets -merge -useContext +onlyGivenNames a3
    have h4 : Kept s₀ a3 := by
      unfold a3
      apply Kept.mk_
      exact h
    clear_value a3
    extract_lets -merge -useContext +onlyGivenNames a5
    have h6 : Kept s₀ a5 := by
      unfold a5
      apply State.addSat_kept
      exact h4
    clear_value a5
    refine Kept.ite_ ?_ ?_
    · apply State.raise_kept
      apply State.noteWear_kept
      exact h6
    · exact h6

end Sys2Proof.Machine
end

