-- ==== Sys2Proof/Laws/KeptTable.lean ====
section
/-! SUPPORT. What the operations of `Machine/Table.lean` keep: the queue, the direction of the clock, sound
stores. -/

namespace Sys2Proof.Machine

theorem State.block_kept {s₀ s : State} (h : Kept s₀ s) (x : Blocked) :
    Kept s₀ (State.block s x) := by
  unfold State.block
  refine Kept.mkTbl ?_ ?_ ?_ ?_
  · exact h
  · rfl
  · rfl
  · rfl

theorem State.putHomeByte_kept {s₀ s : State} (h : Kept s₀ s) (o : Nat) (b : Byte) :
    Kept s₀ (State.putHomeByte s o b) := by
  unfold State.putHomeByte
  split
  · refine h.same rfl rfl fun w => ⟨?_, w.regs, w.doors, w.wheel, w.causes, w.fwd, w.remote⟩
    have w := w.mem
    simp only [State.wf, Bool.and_eq_true] at w ⊢
    exact ⟨⟨⟨w.1.1.1, Tab.wf_put _ _ _ w.1.1.2⟩, w.1.2⟩, w.2⟩
  · refine h.same rfl rfl fun w => ⟨?_, w.regs, w.doors, w.wheel, w.causes, w.fwd, w.remote⟩
    have w := w.mem
    simp only [State.wf, Bool.and_eq_true] at w ⊢
    exact ⟨⟨⟨Tab.wf_put _ _ _ w.1.1.1, w.1.1.2⟩, w.1.2⟩, w.2⟩

theorem State.corrected_kept {s₀ s : State} (h : Kept s₀ s) (o n : Nat) :
    Kept s₀ (State.corrected s o n) := by
  unfold State.corrected
  apply State.ddrErrors_kept
  exact h

theorem State.freshSlots_kept {s₀ s : State} (h : Kept s₀ s) (o n : Nat) :
    Kept s₀ (State.freshSlots s o n) := by
  unfold State.freshSlots
  refine Kept.mkTbl ?_ ?_ ?_ ?_
  · exact h
  · rfl
  · rfl
  · rfl

theorem State.putHomeBytes_kept {s₀ s : State} (h : Kept s₀ s) (o : Nat) (bs : List Byte) :
    Kept s₀ (State.putHomeBytes s o bs) := by
  induction bs generalizing s o with
  | nil => exact h
  | cons b rest ih => exact ih (State.putHomeByte_kept h o b) (o + 1)

theorem State.putDataWord_kept {s₀ s : State} (h : Kept s₀ s) (dp w : Nat) (v : Word) :
    Kept s₀ (State.putDataWord s dp w v) := by
  unfold State.putDataWord
  apply State.putHomeBytes_kept
  apply State.freshSlots_kept
  exact h

theorem State.putDataWords_kept {s₀ s : State} (h : Kept s₀ s) (dp w : Nat) (ws : List Word) :
    Kept s₀ (State.putDataWords s dp w ws) := by
  induction ws generalizing s w with
  | nil => exact h
  | cons v rest ih => exact ih (State.putDataWord_kept h dp w v) (w + 1)

theorem State.noteFetched_kept {s₀ s : State} (h : Kept s₀ s) (ch : Nat) :
    Kept s₀ (State.noteFetched s ch) := by
  unfold State.noteFetched
  refine Kept.ite_ ?_ ?_
  · exact h
  · apply State.raise_kept
    exact h

theorem State.readEntry_kept {s₀ s : State} (h : Kept s₀ s) (ch : Nat) (ue : Bool) :
    KeptP s₀ (State.readEntry s ch ue) := by
  unfold State.readEntry
  refine KeptP.ite_ ?_ ?_
  · refine KeptP.mk ?_
    apply State.raise_kept
    exact h
  · refine KeptP.mk ?_
    apply State.noteFetched_kept
    apply State.corrected_kept
    exact h

theorem State.setLines_kept {s₀ s : State} (h : Kept s₀ s) (ls : List Line) :
    Kept s₀ (State.setLines s ls) := by
  unfold State.setLines
  apply State.set_kept
  refine Kept.mkTbl ?_ ?_ ?_ ?_
  · exact h
  · rfl
  · rfl
  · rfl

theorem State.flushLines_kept {s₀ s : State} (h : Kept s₀ s) :
    Kept s₀ (State.flushLines s) := by
  unfold State.flushLines
  apply State.setLines_kept
  exact h

theorem State.dropLine_kept {s₀ s : State} (h : Kept s₀ s) (ch : Nat) :
    Kept s₀ (State.dropLine s ch) := by
  unfold State.dropLine
  apply State.setLines_kept
  exact h

theorem State.putLine_kept {s₀ s : State} (h : Kept s₀ s) (l : Line) :
    Kept s₀ (State.putLine s l) := by
  unfold State.putLine
  apply State.setLines_kept
  exact h

theorem State.makeRoom_kept {s₀ s : State} (h : Kept s₀ s) (ch : Nat) :
    KeptO s₀ (State.makeRoom s ch) := by
  unfold State.makeRoom
  extract_lets -merge -useContext +onlyGivenNames a1
  clear_value a1
  refine KeptO.ite_ ?_ ?_
  · refine KeptO.some ?_
    exact h
  · split
    · rename_i a2 e3
      exact KeptO.none _
    · rename_i a4 a5 e6
      refine KeptO.some ?_
      apply State.dropLine_kept
      exact h

theorem State.install_kept {s₀ s : State} (h : Kept s₀ s) (ch : Nat) (e : Entry) :
    KeptO s₀ (State.install s ch e) := by
  unfold State.install
  split
  · rename_i a1 e2
    exact KeptO.none _
  · rename_i a3 x4 e5
    refine Kept.cut (s := s₀) (KeptO.of ?_ e5) fun h6 => ?_
    · apply State.makeRoom_kept
      exact h
    extract_lets -merge -useContext +onlyGivenNames a7
    clear_value a7
    extract_lets -merge -useContext +onlyGivenNames a8
    clear_value a8
    extract_lets -merge -useContext +onlyGivenNames a9
    extract_lets -merge -useContext +onlyGivenNames a10
    have h11 : Kept s₀ a10 := by
      unfold a10
      refine Kept.mkTbl ?_ ?_ ?_ ?_
      · exact h6
      · rfl
      · rfl
      · rfl
    clear_value a10
    extract_lets -merge -useContext +onlyGivenNames a12
    have h13 : Kept s₀ a12 := by
      unfold a12
      apply State.putLine_kept
      exact h11
    clear_value a12
    refine KeptO.some ?_
    refine Kept.ite_ ?_ ?_
    · apply State.raise_kept
      exact h13
    · exact h13

theorem State.installed_kept {s₀ s : State} (h : Kept s₀ s) (ch : Nat) (e : Entry) :
    Kept s₀ (State.installed s ch e) := by
  unfold State.installed
  refine KeptO.getD ?_ ?_
  · apply State.install_kept
    exact h
  · exact h

theorem State.markStale_kept {s₀ s : State} (h : Kept s₀ s) (ch : Nat) :
    Kept s₀ (State.markStale s ch) := by
  unfold State.markStale
  apply State.setLines_kept
  exact h

theorem State.installExpecting_kept {s₀ s : State} (h : Kept s₀ s) (ch g : Nat) :
    Kept s₀ (State.installExpecting s ch g) := by
  unfold State.installExpecting
  split
  · rename_i a1 e2
    exact h
  · rename_i a3 x4 e5
    refine Kept.cut (s := s₀) (KeptO.of ?_ e5) fun h6 => ?_
    · apply State.makeRoom_kept
      exact h
    apply State.putLine_kept
    exact h6

theorem State.fetchEntry_kept {s₀ s : State} (h : Kept s₀ s) (ch : Nat) (ue : Bool) :
    KeptQ s₀ (State.fetchEntry s ch ue) := by
  unfold State.fetchEntry
  refine KeptQ.ite_ ?_ ?_
  · refine KeptQ.some ?_
    exact h
  · refine KeptQ.ite_ ?_ ?_
    · exact KeptQ.none _
    · refine KeptQ.ite_ ?_ ?_
      · refine KeptQ.some ?_
        apply State.installed_kept
        exact h
      · split
        · rename_i a1 x2 e3
          refine Kept.cut (s := s₀) (KeptP.of ?_ e3) fun h4 => ?_
          · apply State.readEntry_kept
            exact h
          refine KeptQ.some ?_
          exact h4
        · rename_i a5 x6 a7 e8
          refine Kept.cut (s := s₀) (KeptP.of ?_ e8) fun h9 => ?_
          · apply State.readEntry_kept
            exact h
          split
          · rename_i a10 a11 e12
            refine KeptQ.ite_ ?_ ?_
            · refine KeptQ.some ?_
              apply State.installed_kept
              exact h9
            · refine KeptQ.some ?_
              exact h9
          · rename_i a13 e14
            refine KeptQ.some ?_
            apply State.installed_kept
            exact h9

theorem State.missLookup_kept {s₀ s : State} (h : Kept s₀ s) (ch : Nat) :
    KeptQ s₀ (State.missLookup s ch) := by
  unfold State.missLookup
  extract_lets -merge -useContext +onlyGivenNames a1
  have h2 : Kept s₀ a1 := by
    unfold a1
    apply State.inc_kept
    exact h
  clear_value a1
  refine KeptQ.ite_ ?_ ?_
  · refine KeptQ.some ?_
    refine Kept.mkTbl ?_ ?_ ?_ ?_
    · exact h2
    · rfl
    · rfl
    · rfl
  · apply State.fetchEntry_kept
    exact h2

theorem State.lookup_kept {s₀ s : State} (h : Kept s₀ s) (ch : Nat) :
    KeptQ s₀ (State.lookup s ch) := by
  unfold State.lookup
  refine KeptQ.ite_ ?_ ?_
  · refine KeptQ.some ?_
    exact h
  · split
    · rename_i a1 a2 e3
      refine KeptQ.ite_ ?_ ?_
      · extract_lets -merge -useContext +onlyGivenNames a4
        have h5 : Kept s₀ a4 := by
          unfold a4
          refine Kept.ite_ ?_ ?_
          · apply State.sramErrors_kept
            exact h
          · exact h
        clear_value a4
        extract_lets -merge -useContext +onlyGivenNames a6
        extract_lets -merge -useContext +onlyGivenNames a7
        have h8 : Kept s₀ a7 := by
          unfold a7
          refine Kept.mkTbl ?_ ?_ ?_ ?_
          · exact h5
          · rfl
          · rfl
          · rfl
        clear_value a7
        refine KeptQ.some ?_
        apply State.inc_kept
        exact h8
      · apply State.missLookup_kept
        exact h
    · rename_i a9 e10
      apply State.missLookup_kept
      exact h

theorem State.putOp_kept {s₀ s : State} (h : Kept s₀ s) (o : Op) :
    Kept s₀ (State.putOp s o) := by
  unfold State.putOp
  refine Kept.mkTbl ?_ ?_ ?_ ?_
  · exact h
  · rfl
  · rfl
  · rfl

theorem State.settleWait_kept {s₀ s : State} (h : Kept s₀ s) (n : Nat) :
    Kept s₀ (State.settleWait s n) := by
  unfold State.settleWait
  split
  · rename_i a1 e2
    exact h
  · rename_i a3 a4 e5
    apply State.addSat_kept
    refine Kept.mkTbl ?_ ?_ ?_ ?_
    · exact h
    · rfl
    · rfl
    · rfl

theorem State.judgeWait_kept {s₀ s : State} (h : Kept s₀ s) (n : Nat) :
    Kept s₀ (State.judgeWait s n) := by
  unfold State.judgeWait
  refine Kept.ite_ ?_ ?_
  · refine Kept.ite_ ?_ ?_
    · extract_lets -merge -useContext +onlyGivenNames a1
      clear_value a1
      refine Kept.mkTbl ?_ ?_ ?_ ?_
      · exact h
      · rfl
      · rfl
      · rfl
    · exact h
  · apply State.settleWait_kept
    exact h

theorem State.judgeWaits_kept {s₀ s : State} (h : Kept s₀ s) :
    Kept s₀ (State.judgeWaits s) := by
  unfold State.judgeWaits
  refine State.each_kept _ _ ?_ ?_
  · exact h
  · intro a1 x2 h3
    apply State.judgeWait_kept
    exact h3

theorem State.openOp_kept {s₀ s : State} (h : Kept s₀ s) (cp ten : Nat) (write : Bool) (ch : Nat) (e : Entry) (first count : Nat) (data : List Word) (p : Purpose) (paced : Bool) :
    Kept s₀ (State.openOp s cp ten write ch e first count data p paced) := by
  unfold State.openOp
  extract_lets -merge -useContext +onlyGivenNames a1
  clear_value a1
  apply State.judgeWait_kept
  refine Kept.mkTbl ?_ ?_ ?_ ?_
  · exact h
  · rfl
  · rfl
  · rfl

theorem State.chargeTenant_kept {s₀ s : State} (h : Kept s₀ s) (o : Op) :
    Kept s₀ (State.chargeTenant s o) := by
  unfold State.chargeTenant
  refine Kept.ite_ ?_ ?_
  · exact h
  · extract_lets -merge -useContext +onlyGivenNames a1
    clear_value a1
    extract_lets -merge -useContext +onlyGivenNames a2
    clear_value a2
    refine Kept.mkTbl ?_ ?_ ?_ ?_
    · exact h
    · rfl
    · rfl
    · rfl

theorem State.grantOp_kept {s₀ s : State} (h : Kept s₀ s) (o : Op) :
    Kept s₀ (State.grantOp s o) := by
  unfold State.grantOp
  extract_lets -merge -useContext +onlyGivenNames a1
  clear_value a1
  extract_lets -merge -useContext +onlyGivenNames a2
  clear_value a2
  extract_lets -merge -useContext +onlyGivenNames a3
  clear_value a3
  extract_lets -merge -useContext +onlyGivenNames a4
  have h5 : Kept s₀ a4 := by
    unfold a4
    apply State.putOp_kept
    apply State.settleWait_kept
    apply State.chargeTenant_kept
    exact h
  clear_value a4
  extract_lets -merge -useContext +onlyGivenNames a6
  extract_lets -merge -useContext +onlyGivenNames a7
  have h8 : Kept s₀ a7 := by
    unfold a7
    refine Kept.mkTbl ?_ ?_ ?_ ?_
    · exact h5
    · rfl
    · rfl
    · rfl
  clear_value a7
  apply State.judgeWait_kept
  exact h8

theorem State.roundRobin_kept {s₀ s : State} (h : Kept s₀ s) (r n : Nat) :
    Kept s₀ (State.roundRobin s r n) := by
  induction n generalizing s r with
  | zero => exact h
  | succ n ih =>
    unfold State.roundRobin
    extract_lets r w
    split
    · exact ih h r
    · extract_lets len d d'
      split
      · apply State.grantOp_kept
        apply Kept.mkTbl h <;> rfl
      · apply ih
        apply Kept.mkTbl h <;> rfl

theorem State.arbitrate_kept {s₀ s : State} (h : Kept s₀ s) :
    Kept s₀ (State.arbitrate s) := by
  unfold State.arbitrate
  extract_lets -merge -useContext +onlyGivenNames a1
  have h2 : Kept s₀ a1 := by
    unfold a1
    split
    · rename_i a3 a4 e5
      apply State.waitUntil_kept
      exact h
    · rename_i a6 e7
      exact h
  clear_value a1
  extract_lets -merge -useContext +onlyGivenNames a8
  extract_lets -merge -useContext +onlyGivenNames a9
  have h10 : Kept s₀ a9 := by
    unfold a9
    refine Kept.mkTbl ?_ ?_ ?_ ?_
    · exact h2
    · rfl
    · rfl
    · rfl
  clear_value a9
  split
  · rename_i a11 a12 e13
    apply State.grantOp_kept
    exact h10
  · rename_i a14 e15
    split
    · rename_i a16 a17 e18
      extract_lets -merge -useContext +onlyGivenNames a19
      clear_value a19
      apply State.grantOp_kept
      refine Kept.mkTbl ?_ ?_ ?_ ?_
      · exact h10
      · rfl
      · rfl
      · rfl
    · rename_i a20 e21
      apply State.roundRobin_kept
      exact h10

theorem State.dropBurst_kept {s₀ s : State} (h : Kept s₀ s) (b : Burst) :
    Kept s₀ (State.dropBurst s b) := by
  unfold State.dropBurst
  extract_lets -merge -useContext +onlyGivenNames a1
  have h2 : Kept s₀ a1 := by
    unfold a1
    split
    · rename_i a3 a4 e5
      apply State.putOp_kept
      exact h
    · rename_i a6 e7
      exact h
  clear_value a1
  extract_lets -merge -useContext +onlyGivenNames a8
  refine Kept.mkTbl ?_ ?_ ?_ ?_
  · exact h2
  · rfl
  · rfl
  · rfl

theorem State.refund_kept {s₀ s : State} (h : Kept s₀ s) (b : Burst) :
    Kept s₀ (State.refund s b) := by
  unfold State.refund
  extract_lets -merge -useContext +onlyGivenNames a1
  clear_value a1
  extract_lets -merge -useContext +onlyGivenNames a2
  clear_value a2
  refine Kept.mkTbl ?_ ?_ ?_ ?_
  · exact h
  · rfl
  · rfl
  · rfl

theorem State.revoke_kept {s₀ s : State} (h : Kept s₀ s) :
    Kept s₀ (State.revoke s) := by
  unfold State.revoke
  split
  · rename_i a1 e2
    exact h
  · rename_i a3 a4 e5
    refine Kept.ite_ ?_ ?_
    · exact h
    · extract_lets -merge -useContext +onlyGivenNames a6
      have h7 : Kept s₀ a6 := by
        unfold a6
        apply State.waitUntil_kept
        exact h
      clear_value a6
      extract_lets -merge -useContext +onlyGivenNames a8
      clear_value a8
      split
      · rename_i a9 e10
        exact h7
      · rename_i a11 a12 e13
        refine Kept.ite_ ?_ ?_
        · exact h7
        · extract_lets -merge -useContext +onlyGivenNames a14
          have h15 : Kept s₀ a14 := by
            unfold a14
            apply State.refund_kept
            apply State.inc_kept
            apply State.dropBurst_kept
            exact h7
          clear_value a14
          extract_lets -merge -useContext +onlyGivenNames a16
          extract_lets -merge -useContext +onlyGivenNames a17
          have h18 : Kept s₀ a17 := by
            unfold a17
            refine Kept.mkTbl ?_ ?_ ?_ ?_
            · exact h15
            · rfl
            · rfl
            · rfl
          clear_value a17
          apply State.grantOp_kept
          apply State.judgeWait_kept
          exact h18

theorem State.burstDone_kept {s₀ s : State} (h : Kept s₀ s) (n : Nat) :
    Kept s₀ (State.burstDone s n) := by
  unfold State.burstDone
  apply State.judgeWaits_kept
  apply State.set_kept
  apply State.settleWait_kept
  exact h

theorem State.moveOn_kept {s₀ s : State} (h : Kept s₀ s) (o : Op) (len : Nat) (data : Tab Word) :
    Kept s₀ (State.moveOn s o len data) := by
  unfold State.moveOn
  extract_lets -merge -useContext +onlyGivenNames a1
  clear_value a1
  apply State.putOp_kept
  exact h

theorem State.readChan_kept {s₀ s : State} (h : Kept s₀ s) (cp ten ch : Nat) (e : Entry) (w n : Nat) (p : Purpose) (ue : Bool) :
    KeptP s₀ (State.readChan s cp ten ch e w n p ue) := by
  unfold State.readChan
  refine KeptP.ite_ ?_ ?_
  · refine KeptP.mk ?_
    exact h
  · refine KeptP.ite_ ?_ ?_
    · extract_lets -merge -useContext +onlyGivenNames a1
      clear_value a1
      refine KeptP.ite_ ?_ ?_
      · refine KeptP.mk ?_
        apply State.raise_kept
        exact h
      · refine KeptP.mk ?_
        apply State.corrected_kept
        exact h
    · refine KeptP.mk ?_
      apply State.openOp_kept
      exact h

theorem State.putChan_kept {s₀ s : State} (h : Kept s₀ s) (cp ten ch : Nat) (e : Entry) (w : Nat) (ws : List Word) :
    Kept s₀ (State.putChan s cp ten ch e w ws) := by
  unfold State.putChan
  refine Kept.ite_ ?_ ?_
  · exact h
  · refine Kept.ite_ ?_ ?_
    · apply State.putDataWords_kept
      exact h
    · apply State.openOp_kept
      exact h

theorem State.writeLive_kept {s₀ s : State} (h : Kept s₀ s) (cp : Nat) (p : Entry → Bool) (ws : List Word) :
    Kept s₀ (State.writeLive s cp p ws) := by
  unfold State.writeLive
  refine Kept.ite_ ?_ ?_
  · exact h
  · refine Kept.foldl _ _ ?_ ?_
    · exact h
    · intro x1 a2 h3
      apply State.putChan_kept
      exact h3

theorem State.setDoors_kept {s₀ s : State} (h : Kept s₀ s) (ds : List Doorbell)
    (hl : (ds.filter fun d => d.phase != DoorPhase.complete).length ≤
      max 32 (s.tbl.doors.filter fun d => d.phase != DoorPhase.complete).length) :
    Kept s₀ (State.setDoors s ds) := by
  unfold State.setDoors
  apply State.set_kept
  refine h.same rfl rfl fun w => ⟨w.mem, w.regs, ?_, w.wheel, w.causes, w.fwd, w.remote⟩
  have := w.doors
  exact Nat.le_trans hl (Nat.max_le.2 ⟨Nat.le_refl _, this⟩)

/-- A change of doorbells that brings no complete one back leaves no more of them open. -/
theorem live_map (ds : List Doorbell) (f : Doorbell → Doorbell)
    (hf : ∀ d, d.phase = .complete → (f d).phase = .complete) :
    ((ds.map f).filter fun d => d.phase != DoorPhase.complete).length ≤
      max 32 (ds.filter fun d => d.phase != DoorPhase.complete).length := by
  refine Nat.le_trans ?_ (Nat.le_max_right _ _)
  induction ds with
  | nil => exact Nat.le_refl _
  | cons d ds ih =>
    by_cases hd : d.phase = .complete
    · simpa [List.filter_cons, hd, hf d hd] using ih
    · rw [List.map_cons, List.filter_cons, List.filter_cons, if_pos (c := (d.phase != _) = true) (by simpa using hd)]
      split
      · exact Nat.succ_le_succ ih
      · exact Nat.le_succ_of_le ih

theorem live_modify (ds : List Doorbell) (i : Nat) (f : Doorbell → Doorbell)
    (hf : ∀ d, d.phase = .complete → (f d).phase = .complete) :
    ((ds.modify i f).filter fun d => d.phase != DoorPhase.complete).length ≤
      max 32 (ds.filter fun d => d.phase != DoorPhase.complete).length := by
  refine Nat.le_trans ?_ (Nat.le_max_right _ _)
  induction ds generalizing i with
  | nil => simp
  | cons d ds ih =>
    cases i with
    | succ i =>
      rw [List.modify_succ_cons, List.filter_cons, List.filter_cons]
      split
      · exact Nat.succ_le_succ (ih i)
      · exact ih i
    | zero =>
      rw [List.modify_zero_cons, List.filter_cons, List.filter_cons]
      by_cases hd : d.phase = .complete
      · simp [hd, hf d hd]
      · rw [if_pos (c := (d.phase != _) = true) (by simpa using hd)]
        split
        · exact Nat.le_refl _
        · exact Nat.le_succ _

theorem State.ringDoor_kept {s₀ s : State} (h : Kept s₀ s) (update : Bool) (v : Word) :
    Kept s₀ (State.ringDoor s update v) := by
  unfold State.ringDoor
  extract_lets ch
  refine Kept.ite_ (State.raise_kept h _ _) ?_
  split
  · exact State.raise_kept h _ _
  · rename_i hn
    refine State.setDoors_kept h _ (Nat.le_trans ?_ (Nat.le_max_left _ _))
    have hn := Nat.lt_of_not_le hn
    rw [List.filter_append, List.length_append]
    refine Nat.le_trans (Nat.add_le_add_left (List.length_filter_le _ _) _) ?_
    exact hn

theorem State.countDone_kept {s₀ s : State} (h : Kept s₀ s) : Kept s₀ (State.countDone s) := by
  unfold State.countDone
  refine State.set_kept (State.setDoors_kept h _ (Nat.le_trans ?_ (Nat.le_max_right _ _))) _ _
  exact ((List.drop_sublist _ _).filter _).length_le

theorem State.setPhase_kept {s₀ s : State} (h : Kept s₀ s) (i : Nat) (p : DoorPhase) :
    Kept s₀ (State.setPhase s i p) :=
  State.setDoors_kept h _ (live_modify _ _ _ fun d hd => by simp [hd])

theorem State.completeAt_kept {s₀ s : State} (h : Kept s₀ s) (i : Nat) :
    Kept s₀ (State.completeAt s i) := by
  unfold State.completeAt
  apply State.countDone_kept
  apply State.setPhase_kept
  exact h

theorem State.finishAt_kept {s₀ s : State} (h : Kept s₀ s) (i : Nat) (ch : Nat) :
    Kept s₀ (State.finishAt s i ch) := by
  unfold State.finishAt
  apply State.setPhase_kept
  exact h

theorem State.serveInval_kept {s₀ s : State} (h : Kept s₀ s) (i : Nat) (d : Doorbell) (ue : Bool) :
    Kept s₀ (State.serveInval s i d ue) := by
  unfold State.serveInval
  refine Kept.ite_ ?_ ?_
  · apply State.completeAt_kept
    apply State.dropLine_kept
    exact h
  · refine Kept.ite_ ?_ ?_
    · exact h
    · split
      · rename_i a1 x2 e3
        refine Kept.cut (s := s₀) (KeptP.of ?_ e3) fun h4 => ?_
        · apply State.readEntry_kept
          apply State.markStale_kept
          exact h
        apply State.setPhase_kept
        exact h4
      · rename_i a5 x6 a7 e8
        refine Kept.cut (s := s₀) (KeptP.of ?_ e8) fun h9 => ?_
        · apply State.readEntry_kept
          apply State.markStale_kept
          exact h
        refine Kept.ite_ ?_ ?_
        · apply State.finishAt_kept
          apply State.installed_kept
          exact h9
        · apply State.setPhase_kept
          exact h9

theorem State.refetchInval_kept {s₀ s : State} (h : Kept s₀ s) (i : Nat) (d : Doorbell) (firstUe ue : Bool) :
    Kept s₀ (State.refetchInval s i d firstUe ue) := by
  unfold State.refetchInval
  extract_lets -merge -useContext +onlyGivenNames a1
  refine Kept.ite_ ?_ ?_
  · apply State.completeAt_kept
    apply State.dropLine_kept
    exact h
  · refine Kept.ite_ ?_ ?_
    · exact h
    · split
      · rename_i a2 x3 e4
        refine Kept.cut (s := s₀) (KeptP.of ?_ e4) fun h5 => ?_
        · apply State.readEntry_kept
          exact h
        refine Kept.ite_ ?_ ?_
        · apply State.completeAt_kept
          apply State.dropLine_kept
          exact h5
        · unfold a1
          apply State.finishAt_kept
          apply State.raise_kept
          apply State.installExpecting_kept
          exact h5
      · rename_i a6 x7 a8 e9
        refine Kept.cut (s := s₀) (KeptP.of ?_ e9) fun h10 => ?_
        · apply State.readEntry_kept
          exact h
        refine Kept.ite_ ?_ ?_
        · apply State.finishAt_kept
          apply State.installed_kept
          exact h10
        · unfold a1
          apply State.finishAt_kept
          apply State.raise_kept
          apply State.installExpecting_kept
          exact h10

theorem State.commitEntry_kept {s₀ s : State} (h : Kept s₀ s) (i : Nat) (d : Doorbell) :
    Kept s₀ (State.commitEntry s i d) := by
  unfold State.commitEntry
  extract_lets -merge -useContext +onlyGivenNames a1
  have h2 : Kept s₀ a1 := by
    unfold a1
    apply State.putHomeBytes_kept
    apply State.freshSlots_kept
    exact h
  clear_value a1
  apply State.finishAt_kept
  refine Kept.ite_ ?_ ?_
  · apply State.installed_kept
    exact h2
  · exact h2

theorem State.serveUpdate_kept {s₀ s : State} (h : Kept s₀ s) (i : Nat) (d : Doorbell) :
    Kept s₀ (State.serveUpdate s i d) := by
  unfold State.serveUpdate
  refine Kept.ite_ ?_ ?_
  · apply State.completeAt_kept
    apply State.raise_kept
    exact h
  · refine Kept.ite_ ?_ ?_
    · apply State.completeAt_kept
      exact h
    · refine Kept.ite_ ?_ ?_
      · exact h
      · refine Kept.ite_ ?_ ?_
        · apply State.commitEntry_kept
          exact h
        · apply State.setPhase_kept
          apply State.openOp_kept
          exact h

theorem State.completeDoors_kept {s₀ s : State} (h : Kept s₀ s) : Kept s₀ (State.completeDoors s) := by
  unfold State.completeDoors
  exact State.countDone_kept (State.setDoors_kept h _ (live_map _ _ fun d hd => by simp [hd]))

theorem State.judgeHome_kept {s₀ s : State} (h : Kept s₀ s) :
    Kept s₀ (State.judgeHome s) := by
  unfold State.judgeHome
  extract_lets -merge -useContext +onlyGivenNames a1
  clear_value a1
  apply State.level_kept
  apply State.setB_kept
  exact h

theorem State.writeHome_kept {s₀ s : State} (h : Kept s₀ s) (v : Word) :
    Kept s₀ (State.writeHome s v) := by
  unfold State.writeHome
  refine Kept.ite_ ?_ ?_
  · exact h
  · extract_lets -merge -useContext +onlyGivenNames a1
    clear_value a1
    extract_lets -merge -useContext +onlyGivenNames a2
    have h3 : Kept s₀ a2 := by
      unfold a2
      apply State.kpWrite_kept
      exact h
    clear_value a2
    refine Kept.ite_ ?_ ?_
    · apply State.judgeHome_kept
      apply State.flushLines_kept
      exact h3
    · exact h3

theorem State.dropOps_kept {s₀ s : State} (h : Kept s₀ s) (p : Op → Bool) :
    Kept s₀ (State.dropOps s p) := by
  unfold State.dropOps
  extract_lets gone u q x back
  have hx : Kept s₀ x := Kept.mkTblSeq h rfl rfl rfl rfl
  refine State.judgeWaits_kept (Kept.ite_ (State.setDoors_kept hx _ (live_map _ _ fun d hd => ?_)) hx)
  split
  · rename_i hb
    simp [back, hd] at hb
  · exact hd

theorem State.abandonOps_kept {s₀ s : State} (h : Kept s₀ s) :
    Kept s₀ (State.abandonOps s) := by
  unfold State.abandonOps
  extract_lets -merge -useContext +onlyGivenNames a1
  have h2 : Kept s₀ a1 := by
    unfold a1
    apply State.dropOps_kept
    exact h
  clear_value a1
  refine Kept.mkTbl ?_ ?_ ?_ ?_
  · exact h2
  · rfl
  · rfl
  · rfl

theorem State.loseHome_kept {s₀ s : State} (h : Kept s₀ s) : Kept s₀ (State.loseHome s) := by
  unfold State.loseHome
  refine Kept.ite_ h ?_
  extract_lets x y
  have hy : Kept s₀ y := State.abandonOps_kept (State.raiseLevel_kept (State.setB_kept h _ _) _ _)
  exact State.setDoors_kept hy _ (live_map _ _ fun d hd => by split <;> simp_all [Doorbell.inService])

theorem State.returnHome_kept {s₀ s : State} (h : Kept s₀ s) :
    Kept s₀ (State.returnHome s) := by
  unfold State.returnHome
  refine Kept.ite_ ?_ ?_
  · exact h
  · apply State.endLevel_kept
    apply State.flushLines_kept
    apply State.setB_kept
    exact h

theorem State.readArrives_kept {s₀ s : State} (h : Kept s₀ s) (ue : Bool) :
    Kept s₀ (State.readArrives s ue) := by
  unfold State.readArrives
  split
  · rename_i a1 e2
    exact h
  · rename_i a3 a4 a5 e6
    extract_lets -merge -useContext +onlyGivenNames a7
    have h8 : Kept s₀ a7 := by
      unfold a7
      apply State.waitUntil_kept
      exact h
    clear_value a7
    extract_lets -merge -useContext +onlyGivenNames a9
    extract_lets -merge -useContext +onlyGivenNames a10
    have h11 : Kept s₀ a10 := by
      unfold a10
      refine Kept.mkTbl ?_ ?_ ?_ ?_
      · exact h8
      · rfl
      · rfl
      · rfl
    clear_value a10
    split
    · rename_i a12 e13
      apply State.burstDone_kept
      exact h11
    · rename_i a14 a15 e16
      extract_lets -merge -useContext +onlyGivenNames a17
      clear_value a17
      refine Kept.ite_ ?_ ?_
      · extract_lets -merge -useContext +onlyGivenNames a18
        have h19 : Kept s₀ a18 := by
          unfold a18
          apply State.dropOps_kept
          exact h11
        clear_value a18
        apply State.burstDone_kept
        apply State.raise_kept
        exact h19
      · extract_lets -merge -useContext +onlyGivenNames a20
        clear_value a20
        apply State.burstDone_kept
        apply State.moveOn_kept
        apply State.corrected_kept
        exact h11

theorem State.writeBurst_kept {s₀ s : State} (h : Kept s₀ s) (o : Op) (b : Burst) :
    Kept s₀ (State.writeBurst s o b) := by
  unfold State.writeBurst
  split
  · rename_i a1 a2 e3
    split
    · rename_i a4 e5
      exact h
    · rename_i a6 a7 e8
      split
      · rename_i a9 e10
        exact h
      · rename_i a11 a12 e13
        apply State.commitEntry_kept
        exact h
  · rename_i a14 e15
    refine Kept.foldl _ _ ?_ ?_
    · exact h
    · intro x16 a17 h18
      apply State.putDataWord_kept
      exact h18

theorem State.dropStores_kept {s₀ s : State} (h : Kept s₀ s) :
    Kept s₀ (State.dropStores s) := by
  unfold State.dropStores
  refine Kept.mkTbl ?_ ?_ ?_ ?_
  · exact h
  · rfl
  · rfl
  · rfl

theorem State.commitBurst_kept {s₀ s : State} (h : Kept s₀ s) (n : Nat) :
    Kept s₀ (State.commitBurst s n) := by
  unfold State.commitBurst
  split
  · rename_i a1 e2
    exact h
  · rename_i a3 a4 e5
    split
    · rename_i a6 e7
      refine Kept.mkTbl ?_ ?_ ?_ ?_
      · exact h
      · rfl
      · rfl
      · rfl
    · rename_i a8 a9 e10
      extract_lets -merge -useContext +onlyGivenNames a11
      clear_value a11
      refine Kept.ite_ ?_ ?_
      · exact h
      · extract_lets -merge -useContext +onlyGivenNames a12
        have h13 : Kept s₀ a12 := by
          unfold a12
          apply State.waitUntil_kept
          exact h
        clear_value a12
        extract_lets -merge -useContext +onlyGivenNames a14
        extract_lets -merge -useContext +onlyGivenNames a15
        have h16 : Kept s₀ a15 := by
          unfold a15
          refine Kept.mkTbl ?_ ?_ ?_ ?_
          · exact h13
          · rfl
          · rfl
          · rfl
        clear_value a15
        apply State.burstDone_kept
        apply State.dropStores_kept
        apply State.moveOn_kept
        apply State.writeBurst_kept
        exact h16

theorem execTblInval_kept {s₀ s : State} (h : Kept s₀ s) (v : Word) :
    KeptR s₀ (execTblInval v s) := by
  unfold execTblInval
  refine KeptR.next ?_
  apply State.ringDoor_kept
  exact h

theorem execTblUpdate_kept {s₀ s : State} (h : Kept s₀ s) (v : Word) :
    KeptR s₀ (execTblUpdate v s) := by
  unfold execTblUpdate
  refine KeptR.next ?_
  apply State.ringDoor_kept
  exact h

theorem execInvalService_kept {s₀ s : State} (h : Kept s₀ s) (ue : Bool) :
    KeptR s₀ (execInvalService ue s) := by
  unfold execInvalService
  split
  · rename_i a1 a2 a3 e4
    refine KeptR.next ?_
    refine Kept.ite_ ?_ ?_
    · exact h
    · apply State.serveInval_kept
      exact h
  · rename_i a5 e6
    refine KeptR.next ?_
    exact h

theorem execInvalRefetch_kept {s₀ s : State} (h : Kept s₀ s) (ue : Bool) :
    KeptR s₀ (execInvalRefetch ue s) := by
  unfold execInvalRefetch
  refine KeptR.ite_ ?_ ?_
  · refine KeptR.next ?_
    exact h
  · split
    · rename_i a1 e2
      refine KeptR.next ?_
      exact h
    · rename_i a3 a4 e5
      split
      · rename_i a6 a7 e8
        split
        · rename_i a9 a10 a11 e12
          refine KeptR.next ?_
          apply State.refetchInval_kept
          apply State.waitUntil_kept
          exact h
        · rename_i a13 e14
          refine KeptR.next ?_
          exact h
      · rename_i a15 e16
        refine KeptR.next ?_
        exact h

theorem execUpdateService_kept {s₀ s : State} (h : Kept s₀ s) :
    KeptR s₀ (execUpdateService s) := by
  unfold execUpdateService
  split
  · rename_i a1 a2 a3 e4
    refine KeptR.next ?_
    refine Kept.ite_ ?_ ?_
    · apply State.serveUpdate_kept
      exact h
    · exact h
  · rename_i a5 e6
    refine KeptR.next ?_
    exact h

theorem execDoorbellComplete_kept {s₀ s : State} (h : Kept s₀ s) :
    KeptR s₀ (execDoorbellComplete s) := by
  unfold execDoorbellComplete
  refine KeptR.next ?_
  apply State.completeDoors_kept
  exact h

theorem execEntryFetch_kept {s₀ s : State} (h : Kept s₀ s) (ch : BitVec 16) (ue : Bool) :
    KeptR s₀ (execEntryFetch ch ue s) := by
  unfold execEntryFetch
  extract_lets -merge -useContext +onlyGivenNames a1
  clear_value a1
  refine KeptR.ite_ ?_ ?_
  · refine KeptR.next ?_
    exact h
  · extract_lets -merge -useContext +onlyGivenNames a2
    clear_value a2
    extract_lets -merge -useContext +onlyGivenNames a3
    have h4 : Kept s₀ a3 := by
      unfold a3
      refine KeptO.getD ?_ ?_
      · refine KeptO.map ?_
        apply State.fetchEntry_kept
        exact h
      · exact h
    clear_value a3
    refine KeptR.next ?_
    refine Kept.ite_ ?_ ?_
    · refine Kept.mkTbl ?_ ?_ ?_ ?_
      · exact h4
      · rfl
      · rfl
      · rfl
    · exact h4

theorem execTblHomeWrite_kept {s₀ s : State} (h : Kept s₀ s) (v : Word) :
    KeptR s₀ (execTblHomeWrite v s) := by
  unfold execTblHomeWrite
  refine KeptR.next ?_
  apply State.writeHome_kept
  exact h

theorem execHomeLost_kept {s₀ s : State} (h : Kept s₀ s) (cause : HomeLoss) :
    KeptR s₀ (execHomeLost cause s) := by
  unfold execHomeLost
  split
  · refine KeptR.next ?_
    refine Kept.ite_ ?_ ?_
    · apply State.loseHome_kept
      apply State.setB_kept
      exact h
    · exact h
  · extract_lets u t
    have ht : Kept s₀ t := Kept.mkTbl h (by split <;> rfl) (by split <;> rfl) (by split <;> rfl)
    exact KeptR.next (Kept.ite_ (State.loseHome_kept ht) ht)

theorem execHomeReturn_kept {s₀ s : State} (h : Kept s₀ s) :
    KeptR s₀ (execHomeReturn s) := by
  unfold execHomeReturn
  refine KeptR.next ?_
  apply State.returnHome_kept
  exact h

theorem execDdrRetrain_kept {s₀ s : State} (h : Kept s₀ s) (pass : Bool) :
    KeptR s₀ (execDdrRetrain pass s) := by
  unfold execDdrRetrain
  extract_lets -merge -useContext +onlyGivenNames a1
  refine KeptR.ite_ ?_ ?_
  · refine KeptR.next ?_
    exact h
  · refine KeptR.ite_ ?_ ?_
    · extract_lets -merge -useContext +onlyGivenNames a2
      have h3 : Kept s₀ a2 := by
        unfold a2
        apply State.waitUntil_kept
        exact h
      clear_value a2
      refine KeptR.next ?_
      refine Kept.mkTbl ?_ ?_ ?_ ?_
      · exact h3
      · rfl
      · rfl
      · rfl
    · extract_lets -merge -useContext +onlyGivenNames a4
      have h5 : Kept s₀ a4 := by
        unfold a4
        apply State.waitUntil_kept
        exact h
      clear_value a4
      refine KeptR.next ?_
      refine Kept.mkTbl ?_ ?_ ?_ ?_
      · exact h5
      · rfl
      · rfl
      · rfl

theorem execRevocation_kept {s₀ s : State} (h : Kept s₀ s) :
    KeptR s₀ (execRevocation s) := by
  unfold execRevocation
  refine KeptR.next ?_
  apply State.revoke_kept
  exact h

theorem execAliveFall_kept {s₀ s : State} (h : Kept s₀ s) (n : Fin 8) :
    KeptR s₀ (execAliveFall n s) := by
  unfold execAliveFall
  extract_lets -merge -useContext +onlyGivenNames a1
  clear_value a1
  extract_lets -merge -useContext +onlyGivenNames a2
  clear_value a2
  extract_lets -merge -useContext +onlyGivenNames a3
  have h4 : Kept s₀ a3 := by
    unfold a3
    apply State.setBit_kept
    exact h
  clear_value a3
  extract_lets -merge -useContext +onlyGivenNames a5
  have h6 : Kept s₀ a5 := by
    unfold a5
    apply State.dropOps_kept
    exact h4
  clear_value a5
  extract_lets -merge -useContext +onlyGivenNames a7
  have h8 : Kept s₀ a7 := by
    unfold a7
    apply State.set_kept
    exact h6
  clear_value a7
  refine KeptR.next ?_
  refine Kept.mkTbl ?_ ?_ ?_ ?_
  · exact h8
  · rfl
  · rfl
  · rfl

theorem execAliveRise_kept {s₀ s : State} (h : Kept s₀ s) (n : Fin 8) :
    KeptR s₀ (execAliveRise n s) := by
  unfold execAliveRise
  refine KeptR.next ?_
  apply State.setBit_kept
  exact h

theorem execTblStarve_kept {s₀ s : State} (h : Kept s₀ s) (n : Fin 8) :
    KeptR s₀ (execTblStarve n s) := by
  unfold execTblStarve
  split
  · rename_i a1 e2
    refine KeptR.next ?_
    exact h
  · rename_i a3 a4 e5
    extract_lets -merge -useContext +onlyGivenNames a6
    clear_value a6
    extract_lets -merge -useContext +onlyGivenNames a7
    have h8 : Kept s₀ a7 := by
      unfold a7
      apply State.waitUntil_kept
      exact h
    clear_value a7
    refine KeptR.next ?_
    apply State.raise_kept
    apply State.setBit_kept
    exact h8

end Sys2Proof.Machine
end

