-- ==== Sys2Proof/Laws/KeptPhaseOps.lean ====
section
/-! SUPPORT. What the operations of `Machine/PhaseOps.lean` keep: the queue, the direction of the clock, sound
stores. -/

namespace Sys2Proof.Machine

theorem State.setDom_kept {s₀ s : State} (h : Kept s₀ s) (d : Nat) (p : Ph) :
    Kept s₀ (State.setDom s d p) := by
  unfold State.setDom
  apply Kept.mk_
  exact h

theorem State.showModel_kept {s₀ s : State} (h : Kept s₀ s) (d : Nat) (m : Model) :
    Kept s₀ (State.showModel s d m) := by
  unfold State.showModel
  extract_lets -merge -useContext +onlyGivenNames a1
  have h2 : Kept s₀ a1 := by
    unfold a1
    apply State.set_kept
    apply State.set_kept
    exact h
  clear_value a1
  extract_lets -merge -useContext +onlyGivenNames a3
  have h4 : Kept s₀ a3 := by
    unfold a3
    apply State.set_kept
    apply State.set_kept
    apply State.set_kept
    exact h2
  clear_value a3
  apply State.setInt_kept
  apply State.setInt_kept
  exact h4

theorem State.updateX_kept {s₀ s : State} (h : Kept s₀ s) (d : Nat) :
    Kept s₀ (State.updateX s d) := by
  unfold State.updateX
  extract_lets -merge -useContext +onlyGivenNames a1
  clear_value a1
  split
  · rename_i a2 e3
    exact h
  · rename_i a4 a5 e6
    extract_lets -merge -useContext +onlyGivenNames a7
    clear_value a7
    extract_lets -merge -useContext +onlyGivenNames a8
    clear_value a8
    extract_lets -merge -useContext +onlyGivenNames a9
    clear_value a9
    extract_lets -merge -useContext +onlyGivenNames a10
    clear_value a10
    extract_lets -merge -useContext +onlyGivenNames a11
    clear_value a11
    extract_lets -merge -useContext +onlyGivenNames a12
    clear_value a12
    apply State.setDom_kept
    exact h

end Sys2Proof.Machine
end

