-- ==== Sys2Proof/Laws/KeptSeqOps.lean ====
section
/-! SUPPORT. What the operations of `Machine/SeqOps.lean` keep: the queue, the direction of the clock, sound
stores. -/

namespace Sys2Proof.Machine

theorem State.setEntry_kept {s₀ s : State} (h : Kept s₀ s) (i : Nat) (e : Eph) :
    Kept s₀ (State.setEntry s i e) := by
  unfold State.setEntry
  extract_lets -merge -useContext +onlyGivenNames a1
  clear_value a1
  extract_lets -merge -useContext +onlyGivenNames a2
  clear_value a2
  extract_lets -merge -useContext +onlyGivenNames a3
  extract_lets -merge -useContext +onlyGivenNames a4
  have h5 : Kept s₀ a4 := by
    unfold a4
    refine Kept.mkSeq ?_ ?_
    · exact h
    · rfl
  clear_value a4
  refine Kept.ite_ ?_ ?_
  · exact h5
  · extract_lets -merge -useContext +onlyGivenNames a6
    have h7 : Kept s₀ a6 := by
      unfold a6
      refine Kept.ite_ ?_ ?_
      · exact h5
      · apply State.set_kept
        exact h5
    clear_value a6
    refine Kept.ite_ ?_ ?_
    · exact h7
    · apply State.set_kept
      exact h7

theorem State.entryState_kept {s₀ s : State} (h : Kept s₀ s) (i st : Nat) :
    Kept s₀ (State.entryState s i st) := by
  unfold State.entryState
  apply State.setEntry_kept
  exact h

theorem State.setWheel_kept {s₀ s : State} (h : Kept s₀ s) (l : List Firing)
    (hl : l.length ≤ max 16384 s.seq.wheel.length) : Kept s₀ (State.setWheel s l) := by
  unfold State.setWheel
  apply State.set_kept
  refine h.same rfl rfl fun w => ⟨w.mem, w.regs, w.doors, ?_, w.causes, w.fwd, w.remote⟩
  exact Nat.le_trans hl (Nat.max_le.2 ⟨Nat.le_refl _, w.wheel⟩)

theorem State.withdraw_kept {s₀ s : State} (h : Kept s₀ s) (i : Nat) : Kept s₀ (State.withdraw s i) := by
  have hx : Kept s₀ (s.setWheel (s.seq.wheel.filter (fun (f : Firing) => f.entry != i))) :=
    State.setWheel_kept h _ (Nat.le_trans (List.length_filter_le _ _) (Nat.le_max_right _ _))
  exact Kept.ite_ (State.entryState_kept hx _ _) hx

theorem State.armNext_kept {s₀ s : State} (h : Kept s₀ s) (i : Nat) :
    Kept s₀ (State.armNext s i) := by
  unfold State.armNext
  extract_lets -merge -useContext +onlyGivenNames a1
  clear_value a1
  refine Kept.ite_ ?_ ?_
  · exact h
  · refine Kept.ite_ ?_ ?_
    · apply State.setEntry_kept
      exact h
    · apply State.setEntry_kept
      exact h

theorem State.rearm_kept {s₀ s : State} (h : Kept s₀ s) (d p : Nat) (every : Bool) :
    Kept s₀ (State.rearm s d p every) := by
  unfold State.rearm
  refine Kept.foldl _ _ ?_ ?_
  · exact h
  · intro x1 a2 h3
    extract_lets -merge -useContext +onlyGivenNames a4
    clear_value a4
    refine Kept.ite_ ?_ ?_
    · apply State.setEntry_kept
      exact h3
    · exact h3

theorem State.moveEntryOn_kept {s₀ s : State} (h : Kept s₀ s) (i : Nat) (fwd : Bool) :
    Kept s₀ (State.moveEntryOn s i fwd) := by
  unfold State.moveEntryOn
  extract_lets -merge -useContext +onlyGivenNames a1
  clear_value a1
  refine Kept.ite_ ?_ ?_
  · extract_lets -merge -useContext +onlyGivenNames a2
    clear_value a2
    apply State.setEntry_kept
    exact h
  · apply State.setEntry_kept
    exact h

theorem State.missEntry_kept {s₀ s : State} (h : Kept s₀ s) (i : Nat) (fwd : Bool) :
    Kept s₀ (State.missEntry s i fwd) := by
  unfold State.missEntry
  refine Kept.ite_ ?_ ?_
  · apply State.moveEntryOn_kept
    exact h
  · apply State.entryState_kept
    exact h

theorem State.repairEntry_kept {s₀ s : State} (h : Kept s₀ s) (i : Nat) :
    Kept s₀ (State.repairEntry s i) := by
  unfold State.repairEntry
  extract_lets -merge -useContext +onlyGivenNames a1
  clear_value a1
  extract_lets -merge -useContext +onlyGivenNames a2
  clear_value a2
  extract_lets -merge -useContext +onlyGivenNames a3
  have h4 : Kept s₀ a3 := by
    unfold a3
    apply State.withdraw_kept
    apply State.draw_kept
    exact h
  clear_value a3
  extract_lets -merge -useContext +onlyGivenNames a5
  extract_lets -merge -useContext +onlyGivenNames a6
  have h7 : Kept s₀ a6 := by
    unfold a6
    refine Kept.mkSeq ?_ ?_
    · exact h4
    · rfl
  clear_value a6
  extract_lets -merge -useContext +onlyGivenNames a8
  clear_value a8
  extract_lets -merge -useContext +onlyGivenNames a9
  have h10 : Kept s₀ a9 := by
    unfold a9
    apply State.setEntry_kept
    exact h7
  clear_value a9
  apply State.raise_kept
  exact h10

theorem State.touchEntry_kept {s₀ s : State} (h : Kept s₀ s) (i : Nat) (ue : Bool) :
    Kept s₀ (State.touchEntry s i ue) := by
  unfold State.touchEntry
  extract_lets -merge -useContext +onlyGivenNames a1
  have h2 : Kept s₀ a1 := by
    unfold a1
    refine Kept.ite_ ?_ ?_
    · apply State.sramErrors_kept
      exact h
    · exact h
  clear_value a1
  refine Kept.ite_ ?_ ?_
  · apply State.repairEntry_kept
    exact h2
  · exact h2

theorem State.applyEntry_kept {s₀ s : State} (h : Kept s₀ s) (i : Nat) (n : Eph) :
    Kept s₀ (State.applyEntry s i n) := by
  unfold State.applyEntry
  extract_lets -merge -useContext +onlyGivenNames a1
  have h2 : Kept s₀ a1 := by
    unfold a1
    apply State.withdraw_kept
    exact h
  clear_value a1
  extract_lets -merge -useContext +onlyGivenNames a3
  clear_value a3
  extract_lets -merge -useContext +onlyGivenNames a4
  have h5 : Kept s₀ a4 := by
    unfold a4
    apply State.setEntry_kept
    exact h2
  clear_value a4
  refine Kept.ite_ ?_ ?_
  · apply State.armNext_kept
    exact h5
  · exact h5

theorem State.writeEntry_kept {s₀ s : State} (h : Kept s₀ s) (i : Nat) (ps : List (Nat × Word)) :
    Kept s₀ (State.writeEntry s i ps) := by
  unfold State.writeEntry
  refine Kept.ite_ ?_ ?_
  · exact h
  · extract_lets -merge -useContext +onlyGivenNames a1
    clear_value a1
    extract_lets -merge -useContext +onlyGivenNames a2
    clear_value a2
    refine Kept.ite_ ?_ ?_
    · apply State.raise_kept
      exact h
    · extract_lets -merge -useContext +onlyGivenNames a3
      clear_value a3
      refine Kept.ite_ ?_ ?_
      · apply State.raise_kept
        exact h
      · apply State.applyEntry_kept
        exact h

theorem State.writeEph_kept {s₀ s : State} (h : Kept s₀ s) (page w : Nat) (ws : List Word) :
    Kept s₀ (State.writeEph s page w ws) := by
  unfold State.writeEph
  refine Kept.foldl _ _ ?_ ?_
  · exact h
  · intro x1 a2 h3
    apply State.writeEntry_kept
    exact h3

theorem State.withdrawDomain_kept {s₀ s : State} (h : Kept s₀ s) (d : Nat) :
    Kept s₀ (State.withdrawDomain s d) := by
  unfold State.withdrawDomain
  refine Kept.foldl _ _ ?_ ?_
  · exact h
  · intro x1 a2 h3
    apply State.withdraw_kept
    exact h3

theorem State.skipEntries_kept {s₀ s : State} (h : Kept s₀ s) (d : Nat) (p q : Eph → Bool) :
    Kept s₀ (State.skipEntries s d p q) := by
  unfold State.skipEntries
  extract_lets -merge -useContext +onlyGivenNames a1
  clear_value a1
  extract_lets -merge -useContext +onlyGivenNames a2
  have h3 : Kept s₀ a2 := by
    unfold a2
    refine Kept.foldl _ _ ?_ ?_
    · exact h
    · intro x4 a5 h6
      refine Kept.ite_ ?_ ?_
      · apply State.setEntry_kept
        exact h6
      · apply State.entryState_kept
        exact h6
  clear_value a2
  apply State.raise_kept
  apply State.addSat_kept
  exact h3

theorem State.seqSlip_kept {s₀ s : State} (h : Kept s₀ s) (d from_ to_ : Nat) :
    Kept s₀ (State.seqSlip s d from_ to_) := by
  unfold State.seqSlip
  extract_lets -merge -useContext +onlyGivenNames a1
  have h2 : Kept s₀ a1 := by
    unfold a1
    apply State.withdrawDomain_kept
    exact h
  clear_value a1
  extract_lets -merge -useContext +onlyGivenNames a3
  clear_value a3
  extract_lets -merge -useContext +onlyGivenNames a4
  apply State.skipEntries_kept
  exact h2

theorem State.seqResume_kept {s₀ s : State} (h : Kept s₀ s) (d : Nat) :
    Kept s₀ (State.seqResume s d) := by
  unfold State.seqResume
  extract_lets -merge -useContext +onlyGivenNames a1
  have h2 : Kept s₀ a1 := by
    unfold a1
    apply State.set_kept
    exact h
  clear_value a1
  extract_lets -merge -useContext +onlyGivenNames a3
  have h4 : Kept s₀ a3 := by
    unfold a3
    apply State.skipEntries_kept
    exact h2
  clear_value a3
  extract_lets -merge -useContext +onlyGivenNames a5
  have h6 : Kept s₀ a5 := by
    unfold a5
    apply State.set_kept
    exact h4
  clear_value a5
  extract_lets -merge -useContext +onlyGivenNames a7
  extract_lets -merge -useContext +onlyGivenNames a8
  have h9 : Kept s₀ a8 := by
    unfold a8
    refine Kept.mkSeq ?_ ?_
    · exact h6
    · rfl
  clear_value a8
  apply State.rearm_kept
  exact h9

theorem State.seqTrack_kept {s₀ s : State} (h : Kept s₀ s) (d : Nat) :
    Kept s₀ (State.seqTrack s d) := by
  unfold State.seqTrack
  extract_lets -merge -useContext +onlyGivenNames a1
  have h2 : Kept s₀ a1 := by
    unfold a1
    apply State.set_kept
    exact h
  clear_value a1
  extract_lets -merge -useContext +onlyGivenNames a3
  extract_lets -merge -useContext +onlyGivenNames a4
  have h5 : Kept s₀ a4 := by
    unfold a4
    refine Kept.mkSeq ?_ ?_
    · exact h2
    · rfl
  clear_value a4
  apply State.rearm_kept
  exact h5

theorem State.recompute_kept {s₀ s : State} (h : Kept s₀ s) (d : Nat) : Kept s₀ (State.recompute s d) := by
  unfold State.recompute
  split
  · refine Kept.ite_ h ?_
    refine Kept.foldl _ _ (Kept.mkSeq h rfl) fun y f hy => ?_
    split
    · exact State.setWheel_kept hy _ (Nat.le_trans (Nat.le_of_eq (List.length_map _)) (Nat.le_max_right _ _))
    · exact State.withdraw_kept hy _
  · exact Kept.mkSeq h rfl
  · exact h

theorem State.moveRunfrom_kept {s₀ s : State} (h : Kept s₀ s) (d : Nat) :
    Kept s₀ (State.moveRunfrom s d) := by
  unfold State.moveRunfrom
  extract_lets -merge -useContext +onlyGivenNames a1
  have h2 : Kept s₀ a1 := by
    unfold a1
    apply State.updateX_kept
    exact h
  clear_value a1
  extract_lets -merge -useContext +onlyGivenNames a3
  clear_value a3
  extract_lets -merge -useContext +onlyGivenNames a4
  clear_value a4
  refine Kept.ite_ ?_ ?_
  · apply State.setInt_kept
    exact h2
  · exact h2

theorem State.shiftSeq_kept {s₀ s : State} (h : Kept s₀ s) (off : Int) :
    Kept s₀ (State.shiftSeq s off) := by
  unfold State.shiftSeq
  refine h.same rfl rfl fun w => ⟨w.mem, w.regs, w.doors, ?_, w.causes, w.fwd, w.remote⟩
  exact Nat.le_trans (Nat.le_of_eq (List.length_map _)) w.wheel

theorem State.endPhaseWaits_kept {s₀ s : State} (h : Kept s₀ s) (d val : Nat) :
    Kept s₀ (State.endPhaseWaits s d val) := by
  unfold State.endPhaseWaits
  refine State.each_kept _ _ ?_ ?_
  · exact h
  · intro a1 x2 h3
    extract_lets -merge -useContext +onlyGivenNames a4
    clear_value a4
    split
    · rename_i a5 a6 a7 a8 a9 e10
      refine Kept.ite_ ?_ ?_
      · apply Kept.mk_
        exact h3
      · exact h3
    · rename_i a11 e12
      exact h3

theorem State.actEffect_kept {s₀ s : State} (h : Kept s₀ s) (id : Nat) :
    Kept s₀ (State.actEffect s id) := by
  unfold State.actEffect
  refine Kept.mkSeq ?_ ?_
  · exact h
  · rfl

theorem State.endAct_kept {s₀ s : State} (h : Kept s₀ s) (id : Nat) :
    Kept s₀ (State.endAct s id) := by
  unfold State.endAct
  split
  · rename_i a1 e2
    exact h
  · rename_i a3 a4 e5
    refine Kept.ite_ ?_ ?_
    · exact h
    · apply State.actEffect_kept
      exact h

end Sys2Proof.Machine
end

