-- ==== Sys2Proof/Laws/KeptAccess.lean ====
section
/-! SUPPORT. What the operations of `Machine/Access.lean` keep: the queue, the direction of the clock, sound
stores. -/

namespace Sys2Proof.Machine

theorem State.decode_kept {s₀ s : State} (h : Kept s₀ s) (bcast : Bool) (t ch w n : Nat) (ws : Option (List Word)) :
    KeptP s₀ (State.decode s bcast t ch w n ws) := by
  unfold State.decode
  refine KeptP.ite_ ?_ ?_
  · refine KeptP.mk ?_
    exact h
  · refine KeptP.ite_ ?_ ?_
    · refine KeptP.mk ?_
      exact h
    · refine KeptP.ite_ ?_ ?_
      · refine KeptP.mk ?_
        exact h
      · refine KeptP.ite_ ?_ ?_
        · split
          · rename_i a1 e2
            refine KeptP.mk ?_
            exact h
          · rename_i a3 x4 a5 e6
            refine Kept.cut (s := s₀) (KeptQ.of ?_ e6) fun h7 => ?_
            · refine KeptQ.ite_ ?_ ?_
              · exact KeptQ.none _
              · apply State.lookup_kept
                exact h
            refine KeptP.ite_ ?_ ?_
            · refine KeptP.mk ?_
              exact h7
            · refine KeptP.ite_ ?_ ?_
              · refine KeptP.mk ?_
                exact h7
              · refine KeptP.ite_ ?_ ?_
                · refine KeptP.mk ?_
                  exact h7
                · refine KeptP.mk ?_
                  exact h7
        · refine KeptP.ite_ ?_ ?_
          · refine KeptP.mk ?_
            exact h
          · refine KeptP.ite_ ?_ ?_
            · refine KeptP.mk ?_
              exact h
            · refine KeptP.mk ?_
              exact h

theorem State.refuse_kept {s₀ s : State} (h : Kept s₀ s) (st ch w : Nat) :
    Kept s₀ (State.refuse s st ch w) := by
  unfold State.refuse
  apply State.raise_kept
  exact h

end Sys2Proof.Machine
end

