-- ==== Sys2Proof/Laws/KeptInsnWord.lean ====
section
/-! SUPPORT. What the operations of `Machine/InsnWord.lean` keep: the queue, the direction of the clock, sound
stores. -/

namespace Sys2Proof.Machine

end Sys2Proof.Machine
end

