-- ==== Sys2Proof/Laws/KeptBayOps.lean ====
section
/-! SUPPORT. What the operations of `Machine/BayOps.lean` keep: the queue, the direction of the clock, sound
stores. -/

namespace Sys2Proof.Machine

theorem State.setBay_kept {s₀ s : State} (h : Kept s₀ s) (b : Nat) (r : Bay) :
    Kept s₀ (State.setBay s b r) := by
  unfold State.setBay
  apply Kept.mk_
  exact h

theorem State.setEngine_kept {s₀ s : State} (h : Kept s₀ s) (k : Nat) (e : Eng) :
    Kept s₀ (State.setEngine s k e) := by
  unfold State.setEngine
  apply Kept.mk_
  exact h

theorem State.setPhysical_kept {s₀ s : State} (h : Kept s₀ s) (b l t : Nat) :
    Kept s₀ (State.setPhysical s b l t) := by
  unfold State.setPhysical
  split
  · rename_i a1
    apply State.set_kept
    exact h
  · rename_i a2
    apply State.set_kept
    exact h
  · rename_i a3
    apply State.set_kept
    exact h
  · rename_i a4 e5 e6 e7
    apply State.set_kept
    exact h

theorem State.tenConfig_kept {s₀ s : State} (h : Kept s₀ s) (b t off : Nat) :
    Kept s₀ (State.tenConfig s b t off) := by
  unfold State.tenConfig
  apply State.raise_kept
  exact h

theorem State.drivePin_kept {s₀ s : State} (h : Kept s₀ s) (b p : Nat) (v : Bool) :
    Kept s₀ (State.drivePin s b p v) := by
  unfold State.drivePin
  extract_lets -merge -useContext +onlyGivenNames a1
  have h2 : Kept s₀ a1 := by
    unfold a1
    apply State.setBit_kept
    exact h
  clear_value a1
  refine Kept.ite_ ?_ ?_
  · apply State.setBit_kept
    exact h2
  · exact h2

theorem State.drivePins_kept {s₀ s : State} (h : Kept s₀ s) (b mask value : Nat) :
    Kept s₀ (State.drivePins s b mask value) := by
  unfold State.drivePins
  refine State.each_kept _ _ ?_ ?_
  · exact h
  · intro a1 x2 h3
    refine Kept.ite_ ?_ ?_
    · apply State.drivePin_kept
      exact h3
    · exact h3

theorem State.tenDrive_kept {s₀ s : State} (h : Kept s₀ s) (b t p : Nat) (v : Bool) :
    Kept s₀ (State.tenDrive s b t p v) := by
  unfold State.tenDrive
  refine Kept.ite_ ?_ ?_
  · apply State.drivePin_kept
    exact h
  · exact h

theorem State.settlePads_kept {s₀ s : State} (h : Kept s₀ s) (b : Nat) (was : Nat × Nat) :
    Kept s₀ (State.settlePads s b was) := by
  unfold State.settlePads
  refine State.each_kept _ _ ?_ ?_
  · exact h
  · intro a1 x2 h3
    extract_lets -merge -useContext +onlyGivenNames a4
    clear_value a4
    refine Kept.ite_ ?_ ?_
    · apply State.setBit_kept
      exact h3
    · refine Kept.ite_ ?_ ?_
      · apply State.setBit_kept
        exact h3
      · exact h3

theorem State.dataDrive_kept {s₀ s : State} (h : Kept s₀ s) (b t p : Nat) (v : Bool) :
    Kept s₀ (State.dataDrive s b t p v) := by
  unfold State.dataDrive
  refine Kept.ite_ ?_ ?_
  · exact h
  · apply State.tenDrive_kept
    exact h

theorem State.sideSet_kept {s₀ s : State} (h : Kept s₀ s) (b t w : Nat) :
    Kept s₀ (State.sideSet s b t w) := by
  unfold State.sideSet
  refine State.each_kept _ _ ?_ ?_
  · exact h
  · intro a1 x2 h3
    refine Kept.ite_ ?_ ?_
    · apply State.dataDrive_kept
      exact h3
    · exact h3

theorem State.settleCnt_kept {s₀ s : State} (h : Kept s₀ s) (b t : Nat) :
    Kept s₀ (State.settleCnt s b t) := by
  unfold State.settleCnt
  extract_lets -merge -useContext +onlyGivenNames a1
  clear_value a1
  apply State.setEngine_kept
  exact h

theorem State.restClock_kept {s₀ s : State} (h : Kept s₀ s) (b t : Nat) :
    Kept s₀ (State.restClock s b t) := by
  unfold State.restClock
  refine Kept.ite_ ?_ ?_
  · apply State.tenDrive_kept
    exact h
  · exact h

theorem State.restClocks_kept {s₀ s : State} (h : Kept s₀ s) (b : Nat) :
    Kept s₀ (State.restClocks s b) := by
  unfold State.restClocks
  refine Kept.ite_ ?_ ?_
  · exact h
  · refine State.each_kept _ _ ?_ ?_
    · exact h
    · intro a1 x2 h3
      refine Kept.ite_ ?_ ?_
      · exact h3
      · apply State.restClock_kept
        exact h3

theorem State.setGen_kept {s₀ s : State} (h : Kept s₀ s) (b t m c : Nat) :
    Kept s₀ (State.setGen s b t m c) := by
  unfold State.setGen
  extract_lets -merge -useContext +onlyGivenNames a1
  have h2 : Kept s₀ a1 := by
    unfold a1
    apply State.settleCnt_kept
    exact h
  clear_value a1
  apply State.restClock_kept
  apply State.setEngine_kept
  exact h2

theorem State.shiftOne_kept {s₀ s : State} (h : Kept s₀ s) (b t w pins : Nat) :
    Kept s₀ (State.shiftOne s b t w pins) := by
  unfold State.shiftOne
  extract_lets -merge -useContext +onlyGivenNames a1
  clear_value a1
  extract_lets -merge -useContext +onlyGivenNames a2
  refine Kept.ite_ ?_ ?_
  · unfold a2
    apply State.setEngine_kept
    exact h
  · extract_lets -merge -useContext +onlyGivenNames a3
    clear_value a3
    extract_lets -merge -useContext +onlyGivenNames a4
    have h5 : Kept s₀ a4 := by
      unfold a4
      refine State.each_kept _ _ ?_ ?_
      · exact h
      · intro a6 x7 h8
        apply State.dataDrive_kept
        exact h8
    clear_value a4
    apply State.emit_kept
    unfold a2
    apply State.setEngine_kept
    exact h5

theorem State.stepShift_kept {s₀ s : State} (h : Kept s₀ s) (b t : Nat) (x : Shift) :
    Kept s₀ (State.stepShift s b t x) := by
  unfold State.stepShift
  extract_lets -merge -useContext +onlyGivenNames a1
  have h2 : Kept s₀ a1 := by
    unfold a1
    apply State.shiftOne_kept
    exact h
  clear_value a1
  apply State.setEngine_kept
  exact h2

theorem State.settleSteps_kept {s₀ s : State} (h : Kept s₀ s) (b t n : Nat) :
    Kept s₀ (State.settleSteps s b t n) := by
  induction n generalizing s with
  | zero => exact h
  | succ n ih =>
    unfold State.settleSteps
    split
    · exact Kept.ite_ (ih (State.stepShift_kept h _ _ _)) h
    · exact h

theorem State.settleShift_kept {s₀ s : State} (h : Kept s₀ s) (b t : Nat) :
    Kept s₀ (State.settleShift s b t) := by
  unfold State.settleShift
  split
  · rename_i a1 a2 e3
    apply State.settleCnt_kept
    exact h
  · rename_i a4 e5
    exact h

theorem State.settleTen_kept {s₀ s : State} (h : Kept s₀ s) (b t : Nat) :
    Kept s₀ (State.settleTen s b t) := by
  unfold State.settleTen
  refine Kept.ite_ ?_ ?_
  · extract_lets -merge -useContext +onlyGivenNames a1
    have h2 : Kept s₀ a1 := by
      unfold a1
      apply State.settleSteps_kept
      exact h
    clear_value a1
    refine Kept.ite_ ?_ ?_
    · apply State.tenDrive_kept
      exact h2
    · exact h2
  · exact h

theorem State.settleChains_kept {s₀ s : State} (h : Kept s₀ s) (b : Nat) :
    Kept s₀ (State.settleChains s b) := by
  unfold State.settleChains
  refine State.each_kept _ _ ?_ ?_
  · exact h
  · intro a1 x2 h3
    extract_lets -merge -useContext +onlyGivenNames a4
    clear_value a4
    refine State.each_kept _ _ ?_ ?_
    · exact h3
    · intro a5 x6 h7
      refine Kept.ite_ ?_ ?_
      · apply State.drivePin_kept
        exact h7
      · exact h7

theorem State.settleBay_kept {s₀ s : State} (h : Kept s₀ s) (b : Nat) :
    Kept s₀ (State.settleBay s b) := by
  unfold State.settleBay
  apply State.settleChains_kept
  refine State.each_kept _ _ ?_ ?_
  · exact h
  · intro a1 x2 h3
    apply State.settleTen_kept
    exact h3

theorem State.setQueues_kept {s₀ s : State} (h : Kept s₀ s) (b l : Nat) (q : Queues) :
    Kept s₀ (State.setQueues s b l q) := by
  unfold State.setQueues
  extract_lets -merge -useContext +onlyGivenNames a1
  clear_value a1
  extract_lets -merge -useContext +onlyGivenNames a2
  clear_value a2
  apply State.setBay_kept
  exact h

theorem State.countItem_kept {s₀ s : State} (h : Kept s₀ s) (b : Nat) :
    Kept s₀ (State.countItem s b) := by
  unfold State.countItem
  apply State.setBay_kept
  exact h

theorem State.arrive_kept {s₀ s : State} (h : Kept s₀ s) (b l pri : Nat) (moved : Bool) (v : Word) :
    Kept s₀ (State.arrive s b l pri moved v) := by
  unfold State.arrive
  extract_lets -merge -useContext +onlyGivenNames a1
  clear_value a1
  extract_lets -merge -useContext +onlyGivenNames a2
  clear_value a2
  apply State.countItem_kept
  apply State.setQueues_kept
  exact h

theorem State.outPush_kept {s₀ s : State} (h : Kept s₀ s) (b l pri : Nat) (v : Word) :
    Kept s₀ (State.outPush s b l pri v) := by
  unfold State.outPush
  extract_lets -merge -useContext +onlyGivenNames a1
  clear_value a1
  extract_lets -merge -useContext +onlyGivenNames a2
  clear_value a2
  apply State.countItem_kept
  apply State.setQueues_kept
  exact h

theorem State.pumpOp_kept {s₀ s : State} (h : Kept s₀ s) (id fuel : Nat) :
    Kept s₀ (State.pumpOp s id fuel) := by
  induction fuel generalizing s with
  | zero => exact h
  | succ n ih =>
    unfold State.pumpOp
    split
    · rename_i a1 e2
      exact h
    · rename_i a3 a4 e5
      extract_lets -merge -useContext +onlyGivenNames a6
      clear_value a6
      extract_lets -merge -useContext +onlyGivenNames a7
      clear_value a7
      refine Kept.ite_ ?_ ?_
      · refine Kept.ite_ ?_ ?_
        · apply State.putOp_kept
          exact h
        · split
          · rename_i a8 e9
            apply State.putOp_kept
            exact h
          · rename_i a10 a11 a12 e13
            extract_lets -merge -useContext +onlyGivenNames a14
            have h15 : Kept s₀ a14 := by
              unfold a14
              apply State.putOp_kept
              apply State.setQueues_kept
              exact h
            clear_value a14
            apply ih
            exact h15
      · refine Kept.ite_ ?_ ?_
        · apply State.putOp_kept
          exact h
        · refine Kept.ite_ ?_ ?_
          · extract_lets -merge -useContext +onlyGivenNames a16
            have h17 : Kept s₀ a16 := by
              unfold a16
              apply State.putOp_kept
              apply State.arrive_kept
              exact h
            clear_value a16
            apply ih
            exact h17
          · apply State.putOp_kept
            exact h

theorem State.reapOps_kept {s₀ s : State} (h : Kept s₀ s) :
    Kept s₀ (State.reapOps s) := by
  unfold State.reapOps
  refine Kept.mkTbl ?_ ?_ ?_ ?_
  · exact h
  · rfl
  · rfl
  · rfl

theorem State.pump_kept {s₀ s : State} (h : Kept s₀ s) (b l : Nat) :
    Kept s₀ (State.pump s b l) := by
  unfold State.pump
  apply State.reapOps_kept
  refine Kept.foldl _ _ ?_ ?_
  · exact h
  · intro x1 a2 h3
    apply State.judgeWait_kept
    apply State.pumpOp_kept
    exact h3

theorem State.streamEnds_kept {s₀ s : State} (h : Kept s₀ s) (b l reason : Nat) :
    Kept s₀ (State.streamEnds s b l reason) := by
  unfold State.streamEnds
  apply State.raise_kept
  exact h

theorem State.abortStream_kept {s₀ s : State} (h : Kept s₀ s) (o : Op) (reason : Nat) :
    Kept s₀ (State.abortStream s o reason) := by
  unfold State.abortStream
  extract_lets -merge -useContext +onlyGivenNames a1
  have h2 : Kept s₀ a1 := by
    unfold a1
    refine Kept.ite_ ?_ ?_
    · apply State.putDataWords_kept
      exact h
    · exact h
  clear_value a1
  extract_lets -merge -useContext +onlyGivenNames a3
  have h4 : Kept s₀ a3 := by
    unfold a3
    apply State.dropOps_kept
    exact h2
  clear_value a3
  extract_lets -merge -useContext +onlyGivenNames a5
  extract_lets -merge -useContext +onlyGivenNames a6
  have h7 : Kept s₀ a6 := by
    unfold a6
    refine Kept.mkTbl ?_ ?_ ?_ ?_
    · exact h4
    · rfl
    · rfl
    · rfl
  clear_value a6
  apply State.streamEnds_kept
  exact h7

theorem State.abortStreams_kept {s₀ s : State} (h : Kept s₀ s) (b l reason : Nat) :
    Kept s₀ (State.abortStreams s b l reason) := by
  unfold State.abortStreams
  extract_lets -merge -useContext +onlyGivenNames a1
  have h2 : Kept s₀ a1 := by
    unfold a1
    refine Kept.foldl _ _ ?_ ?_
    · exact h
    · intro x3 a4 h5
      apply State.abortStream_kept
      exact h5
  clear_value a1
  refine Kept.ite_ ?_ ?_
  · apply State.streamEnds_kept
    apply State.setBay_kept
    exact h2
  · exact h2

theorem State.endSide_kept {s₀ s : State} (h : Kept s₀ s) (b t : Nat) :
    Kept s₀ (State.endSide s b t) := by
  unfold State.endSide
  extract_lets -merge -useContext +onlyGivenNames a1
  clear_value a1
  split
  · rename_i a2 e3
    exact h
  · rename_i a4 a5 e6
    apply State.sideSet_kept
    apply State.setEngine_kept
    exact h

theorem State.rankCause_kept {s₀ s : State} (h : Kept s₀ s) (b t cause : Nat) :
    Kept s₀ (State.rankCause s b t cause) := by
  unfold State.rankCause
  extract_lets -merge -useContext +onlyGivenNames a1
  clear_value a1
  refine Kept.ite_ ?_ ?_
  · exact h
  · apply State.set_kept
    exact h

theorem State.stopTenon_kept {s₀ s : State} (h : Kept s₀ s) (b t cause : Nat) :
    Kept s₀ (State.stopTenon s b t cause) := by
  unfold State.stopTenon
  refine Kept.ite_ ?_ ?_
  · extract_lets -merge -useContext +onlyGivenNames a1
    have h2 : Kept s₀ a1 := by
      unfold a1
      apply State.settleTen_kept
      exact h
    clear_value a1
    extract_lets -merge -useContext +onlyGivenNames a3
    clear_value a3
    extract_lets -merge -useContext +onlyGivenNames a4
    have h5 : Kept s₀ a4 := by
      unfold a4
      refine Kept.ite_ ?_ ?_
      · apply State.endSide_kept
        exact h2
      · exact h2
    clear_value a4
    extract_lets -merge -useContext +onlyGivenNames a6
    have h7 : Kept s₀ a6 := by
      unfold a6
      apply State.set_kept
      apply State.set_kept
      exact h5
    clear_value a6
    extract_lets -merge -useContext +onlyGivenNames a8
    have h9 : Kept s₀ a8 := by
      unfold a8
      apply State.setGen_kept
      exact h7
    clear_value a8
    extract_lets -merge -useContext +onlyGivenNames a10
    clear_value a10
    apply State.setEngine_kept
    exact h9
  · refine Kept.ite_ ?_ ?_
    · apply State.rankCause_kept
      exact h
    · exact h

theorem State.startTenon_kept {s₀ s : State} (h : Kept s₀ s) (b t : Nat) :
    Kept s₀ (State.startTenon s b t) := by
  unfold State.startTenon
  refine Kept.ite_ ?_ ?_
  · exact h
  · refine Kept.ite_ ?_ ?_
    · apply State.tenConfig_kept
      exact h
    · extract_lets -merge -useContext +onlyGivenNames a1
      have h2 : Kept s₀ a1 := by
        unfold a1
        apply State.set_kept
        exact h
      clear_value a1
      extract_lets -merge -useContext +onlyGivenNames a3
      have h4 : Kept s₀ a3 := by
        unfold a3
        apply State.setGen_kept
        exact h2
      clear_value a3
      extract_lets -merge -useContext +onlyGivenNames a5
      clear_value a5
      apply State.setEngine_kept
      exact h4

theorem State.beginTest_kept {s₀ s : State} (h : Kept s₀ s) (b t back : Nat) :
    Kept s₀ (State.beginTest s b t back) := by
  unfold State.beginTest
  extract_lets -merge -useContext +onlyGivenNames a1
  clear_value a1
  extract_lets -merge -useContext +onlyGivenNames a2
  have h3 : Kept s₀ a2 := by
    unfold a2
    apply State.settlePads_kept
    apply State.set_kept
    exact h
  clear_value a2
  apply State.setEngine_kept
  exact h3

theorem State.writeTenCtl_kept {s₀ s : State} (h : Kept s₀ s) (b t : Nat) (v : Word) :
    Kept s₀ (State.writeTenCtl s b t v) := by
  unfold State.writeTenCtl
  extract_lets -merge -useContext +onlyGivenNames a1
  clear_value a1
  extract_lets -merge -useContext +onlyGivenNames a2
  have h3 : Kept s₀ a2 := by
    unfold a2
    apply State.set_kept
    exact h
  clear_value a2
  refine Kept.ite_ ?_ ?_
  · apply State.stopTenon_kept
    exact h3
  · refine Kept.ite_ ?_ ?_
    · apply State.startTenon_kept
      exact h3
    · refine Kept.ite_ ?_ ?_
      · apply State.beginTest_kept
        exact h3
      · exact h3

theorem State.writeTenCfg_kept {s₀ s : State} (h : Kept s₀ s) (b t : Nat) (v : Word) :
    Kept s₀ (State.writeTenCfg s b t v) := by
  unfold State.writeTenCfg
  refine Kept.ite_ ?_ ?_
  · apply State.tenConfig_kept
    exact h
  · extract_lets -merge -useContext +onlyGivenNames a1
    have h2 : Kept s₀ a1 := by
      unfold a1
      apply State.settleCnt_kept
      exact h
    clear_value a1
    extract_lets -merge -useContext +onlyGivenNames a3
    have h4 : Kept s₀ a3 := by
      unfold a3
      apply State.set_kept
      apply State.set_kept
      apply State.set_kept
      exact h2
    clear_value a3
    apply State.set_kept
    apply State.set_kept
    apply State.set_kept
    exact h4

theorem State.writeTenClk_kept {s₀ s : State} (h : Kept s₀ s) (b t : Nat) (v : Word) :
    Kept s₀ (State.writeTenClk s b t v) := by
  unfold State.writeTenClk
  refine Kept.ite_ ?_ ?_
  · apply State.tenConfig_kept
    exact h
  · extract_lets -merge -useContext +onlyGivenNames a1
    have h2 : Kept s₀ a1 := by
      unfold a1
      apply State.settleCnt_kept
      exact h
    clear_value a1
    extract_lets -merge -useContext +onlyGivenNames a3
    have h4 : Kept s₀ a3 := by
      unfold a3
      apply State.set_kept
      apply State.set_kept
      apply State.set_kept
      exact h2
    clear_value a3
    apply State.restClocks_kept
    apply State.set_kept
    apply State.set_kept
    apply State.set_kept
    exact h4

theorem State.writeTenPins_kept {s₀ s : State} (h : Kept s₀ s) (b t : Nat) (v : Word) :
    Kept s₀ (State.writeTenPins s b t v) := by
  unfold State.writeTenPins
  refine Kept.ite_ ?_ ?_
  · apply State.tenConfig_kept
    exact h
  · extract_lets -merge -useContext +onlyGivenNames a1
    clear_value a1
    extract_lets -merge -useContext +onlyGivenNames a2
    have h3 : Kept s₀ a2 := by
      unfold a2
      apply State.set_kept
      apply State.set_kept
      exact h
    clear_value a2
    apply State.restClocks_kept
    apply State.settlePads_kept
    apply State.set_kept
    apply State.set_kept
    apply State.set_kept
    apply State.set_kept
    exact h3

theorem State.setBankOk_kept {s₀ s : State} (h : Kept s₀ s) (b : Nat) (ok : Bool) :
    Kept s₀ (State.setBankOk s b ok) := by
  unfold State.setBankOk
  extract_lets -merge -useContext +onlyGivenNames a1
  have h2 : Kept s₀ a1 := by
    unfold a1
    apply State.settleBay_kept
    exact h
  clear_value a1
  extract_lets -merge -useContext +onlyGivenNames a3
  clear_value a3
  extract_lets -merge -useContext +onlyGivenNames a4
  clear_value a4
  extract_lets -merge -useContext +onlyGivenNames a5
  have h6 : Kept s₀ a5 := by
    unfold a5
    apply State.settlePads_kept
    apply State.setB_kept
    exact h2
  clear_value a5
  refine Kept.ite_ ?_ ?_
  · apply State.endLevel_kept
    exact h6
  · refine Kept.ite_ ?_ ?_
    · apply State.raiseLevel_kept
      exact h6
    · exact h6

theorem State.writeQlink_kept {s₀ s : State} (h : Kept s₀ s) (b q : Nat) :
    Kept s₀ (State.writeQlink s b q) := by
  unfold State.writeQlink
  refine Kept.ite_ ?_ ?_
  · exact h
  · refine Kept.ite_ ?_ ?_
    · apply State.set_kept
      exact h
    · apply State.raise_kept
      exact h

theorem State.flushQueues_kept {s₀ s : State} (h : Kept s₀ s) (b l : Nat) :
    Kept s₀ (State.flushQueues s b l) := by
  unfold State.flushQueues
  refine Kept.ite_ ?_ ?_
  · extract_lets -merge -useContext +onlyGivenNames a1
    have h2 : Kept s₀ a1 := by
      unfold a1
      apply State.setQueues_kept
      exact h
    clear_value a1
    refine Kept.ite_ ?_ ?_
    · apply State.abortStreams_kept
      exact h2
    · exact h2
  · apply State.tenConfig_kept
    exact h

theorem State.queueIn_kept {s₀ s : State} (h : Kept s₀ s) (b l : Nat) (v : Word) :
    Kept s₀ (State.queueIn s b l v) := by
  unfold State.queueIn
  refine Kept.ite_ ?_ ?_
  · apply State.arrive_kept
    exact h
  · apply State.inc_kept
    exact h

theorem State.queueOut_kept {s₀ s : State} (h : Kept s₀ s) (b l : Nat) :
    KeptP s₀ (State.queueOut s b l) := by
  unfold State.queueOut
  refine KeptP.ite_ ?_ ?_
  · refine KeptP.mk ?_
    exact h
  · split
    · rename_i a1 e2
      refine KeptP.mk ?_
      exact h
    · rename_i a3 a4 a5 e6
      refine KeptP.mk ?_
      apply State.set_kept
      apply State.setQueues_kept
      exact h

theorem State.requestSwap_kept {s₀ s : State} (h : Kept s₀ s) (b l : Nat) (copy retire policy : Bool) :
    Kept s₀ (State.requestSwap s b l copy retire policy) := by
  unfold State.requestSwap
  extract_lets -merge -useContext +onlyGivenNames a1
  clear_value a1
  extract_lets -merge -useContext +onlyGivenNames a2
  clear_value a2
  refine Kept.ite_ ?_ ?_
  · extract_lets -merge -useContext +onlyGivenNames a3
    have h4 : Kept s₀ a3 := by
      unfold a3
      apply State.set_kept
      apply State.set_kept
      apply State.set_kept
      exact h
    clear_value a3
    apply State.setBay_kept
    exact h4
  · refine Kept.ite_ ?_ ?_
    · apply State.raise_kept
      exact h
    · apply State.raise_kept
      apply State.set_kept
      apply State.set_kept
      exact h

theorem State.failSwap_kept {s₀ s : State} (h : Kept s₀ s) (b reason : Nat) :
    Kept s₀ (State.failSwap s b reason) := by
  unfold State.failSwap
  split
  · rename_i a1 e2
    exact h
  · rename_i a3 a4 e5
    extract_lets -merge -useContext +onlyGivenNames a6
    have h7 : Kept s₀ a6 := by
      unfold a6
      apply State.set_kept
      apply State.set_kept
      apply State.set_kept
      exact h
    clear_value a6
    extract_lets -merge -useContext +onlyGivenNames a8
    clear_value a8
    extract_lets -merge -useContext +onlyGivenNames a9
    have h10 : Kept s₀ a9 := by
      unfold a9
      apply State.setBay_kept
      exact h7
    clear_value a9
    apply State.raise_kept
    exact h10

theorem State.writeSwap_kept {s₀ s : State} (h : Kept s₀ s) (b : Nat) (v : Word) :
    Kept s₀ (State.writeSwap s b v) := by
  unfold State.writeSwap
  extract_lets -merge -useContext +onlyGivenNames a1
  have h2 : Kept s₀ a1 := by
    unfold a1
    apply State.set_kept
    apply State.set_kept
    apply State.set_kept
    exact h
  clear_value a1
  extract_lets -merge -useContext +onlyGivenNames a3
  have h4 : Kept s₀ a3 := by
    unfold a3
    refine Kept.ite_ ?_ ?_
    · apply State.failSwap_kept
      exact h2
    · exact h2
  clear_value a3
  refine Kept.ite_ ?_ ?_
  · apply State.requestSwap_kept
    exact h4
  · exact h4

theorem State.armSwap_kept {s₀ s : State} (h : Kept s₀ s) (b : Nat) :
    Kept s₀ (State.armSwap s b) := by
  unfold State.armSwap
  split
  · rename_i a1 e2
    exact h
  · rename_i a3 a4 e5
    refine Kept.ite_ ?_ ?_
    · extract_lets -merge -useContext +onlyGivenNames a6
      have h7 : Kept s₀ a6 := by
        unfold a6
        apply State.set_kept
        exact h
      clear_value a6
      extract_lets -merge -useContext +onlyGivenNames a8
      have h9 : Kept s₀ a8 := by
        unfold a8
        refine Kept.ite_ ?_ ?_
        · apply State.set_kept
          exact h7
        · exact h7
      clear_value a8
      apply State.setBay_kept
      exact h9
    · exact h

theorem State.disarmSwap_kept {s₀ s : State} (h : Kept s₀ s) (b : Nat) :
    Kept s₀ (State.disarmSwap s b) := by
  unfold State.disarmSwap
  split
  · rename_i a1 e2
    exact h
  · rename_i a3 a4 e5
    refine Kept.ite_ ?_ ?_
    · apply State.set_kept
      exact h
    · exact h

theorem State.swapTenons_kept {s₀ s : State} (h : Kept s₀ s) (b : Nat) (w : Swap) :
    Kept s₀ (State.swapTenons s b w) := by
  unfold State.swapTenons
  extract_lets -merge -useContext +onlyGivenNames a1
  have h2 : Kept s₀ a1 := by
    unfold a1
    apply State.settleBay_kept
    exact h
  clear_value a1
  extract_lets -merge -useContext +onlyGivenNames a3
  clear_value a3
  extract_lets -merge -useContext +onlyGivenNames a4
  clear_value a4
  extract_lets -merge -useContext +onlyGivenNames a5
  have h6 : Kept s₀ a5 := by
    unfold a5
    apply State.settleCnt_kept
    exact h2
  clear_value a5
  extract_lets -merge -useContext +onlyGivenNames a7
  have h8 : Kept s₀ a7 := by
    unfold a7
    refine Kept.foldl _ _ ?_ ?_
    · exact h6
    · intro x9 a10 h11
      apply State.set_kept
      exact h11
  clear_value a7
  extract_lets -merge -useContext +onlyGivenNames a12
  clear_value a12
  extract_lets -merge -useContext +onlyGivenNames a13
  clear_value a13
  extract_lets -merge -useContext +onlyGivenNames a14
  have h15 : Kept s₀ a14 := by
    unfold a14
    apply State.setEngine_kept
    exact h8
  clear_value a14
  extract_lets -merge -useContext +onlyGivenNames a16
  have h17 : Kept s₀ a16 := by
    unfold a16
    apply State.setPhysical_kept
    exact h15
  clear_value a16
  extract_lets -merge -useContext +onlyGivenNames a18
  have h19 : Kept s₀ a18 := by
    unfold a18
    apply State.set_kept
    exact h17
  clear_value a18
  extract_lets -merge -useContext +onlyGivenNames a20
  have h21 : Kept s₀ a20 := by
    unfold a20
    apply State.set_kept
    exact h19
  clear_value a20
  extract_lets -merge -useContext +onlyGivenNames a22
  have h23 : Kept s₀ a22 := by
    unfold a22
    apply State.setEngine_kept
    exact h21
  clear_value a22
  extract_lets -merge -useContext +onlyGivenNames a24
  have h25 : Kept s₀ a24 := by
    unfold a24
    apply State.set_kept
    exact h23
  clear_value a24
  extract_lets -merge -useContext +onlyGivenNames a26
  have h27 : Kept s₀ a26 := by
    unfold a26
    apply State.set_kept
    apply State.set_kept
    exact h25
  clear_value a26
  extract_lets -merge -useContext +onlyGivenNames a28
  clear_value a28
  extract_lets -merge -useContext +onlyGivenNames a29
  have h30 : Kept s₀ a29 := by
    unfold a29
    apply State.setBay_kept
    exact h27
  clear_value a29
  extract_lets -merge -useContext +onlyGivenNames a31
  have h32 : Kept s₀ a31 := by
    unfold a31
    apply State.raise_kept
    exact h30
  clear_value a31
  extract_lets -merge -useContext +onlyGivenNames a33
  have h34 : Kept s₀ a33 := by
    unfold a33
    apply State.settlePads_kept
    exact h32
  clear_value a33
  refine Kept.ite_ ?_ ?_
  · apply State.set_kept
    apply State.set_kept
    exact h34
  · apply State.beginTest_kept
    apply State.set_kept
    apply State.set_kept
    exact h34

theorem State.policySwap_kept {s₀ s : State} (h : Kept s₀ s) (b t : Nat) :
    Kept s₀ (State.policySwap s b t) := by
  unfold State.policySwap
  split
  · rename_i a1 e2
    exact h
  · rename_i a3 a4 e5
    refine Kept.ite_ ?_ ?_
    · apply State.requestSwap_kept
      exact h
    · exact h

theorem State.countStoreCe_kept {s₀ s : State} (h : Kept s₀ s) (b t ce : Nat) :
    Kept s₀ (State.countStoreCe s b t ce) := by
  unfold State.countStoreCe
  extract_lets -merge -useContext +onlyGivenNames a1
  have h2 : Kept s₀ a1 := by
    unfold a1
    apply State.sramErrors_kept
    exact h
  clear_value a1
  extract_lets -merge -useContext +onlyGivenNames a3
  clear_value a3
  extract_lets -merge -useContext +onlyGivenNames a4
  have h5 : Kept s₀ a4 := by
    unfold a4
    apply State.setEngine_kept
    apply State.addSat_kept
    exact h2
  clear_value a4
  extract_lets -merge -useContext +onlyGivenNames a6
  clear_value a6
  refine Kept.ite_ ?_ ?_
  · apply State.policySwap_kept
    apply State.raise_kept
    exact h5
  · exact h5

theorem State.bayHold_kept {s₀ s : State} (h : Kept s₀ s) (b : Nat) :
    Kept s₀ (State.bayHold s b) := by
  unfold State.bayHold
  extract_lets -merge -useContext +onlyGivenNames a1
  have h2 : Kept s₀ a1 := by
    unfold a1
    refine State.each_kept _ _ ?_ ?_
    · apply State.settleBay_kept
      exact h
    · intro a3 x4 h5
      apply State.stopTenon_kept
      exact h5
  clear_value a1
  extract_lets -merge -useContext +onlyGivenNames a6
  have h7 : Kept s₀ a6 := by
    unfold a6
    refine State.each_kept _ _ ?_ ?_
    · exact h2
    · intro a8 x9 h10
      refine Kept.ite_ ?_ ?_
      · apply State.abortStreams_kept
        exact h10
      · exact h10
  clear_value a6
  apply State.drivePins_kept
  exact h7

end Sys2Proof.Machine
end

