-- ==== Sys2Proof/Laws/KeptOperands.lean ====
section
/-! SUPPORT. What the operations of `Machine/Operands.lean` keep: the queue, the direction of the clock, sound
stores. -/

namespace Sys2Proof.Machine

theorem State.setReg_kept {s₀ s : State} (h : Kept s₀ s) (g : Engine) (i : Nat) (v : Word) :
    Kept s₀ (State.setReg s g i v) := by
  unfold State.setReg
  extract_lets -merge -useContext +onlyGivenNames a1
  clear_value a1
  split
  · rename_i a2 a3 a4
    refine Kept.ite_ ?_ ?_
    · extract_lets -merge -useContext +onlyGivenNames a5
      clear_value a5
      apply State.setEngine_kept
      exact h
    · apply State.setEngine_kept
      exact h
  · rename_i a6 a7
    apply State.setEngine_kept
    exact h

end Sys2Proof.Machine
end

