-- ==== Sys2Proof/Laws/KeptDetaica.lean ====
section
/-! SUPPORT. What the operations of `Machine/Detaica.lean` keep: the queue, the direction of the clock, sound
stores. -/

namespace Sys2Proof.Machine

theorem State.laneIdle_kept {s₀ s : State} (h : Kept s₀ s) (k : Nat) :
    Kept s₀ (State.laneIdle s k) := by
  unfold State.laneIdle
  extract_lets -merge -useContext +onlyGivenNames a1
  have h2 : Kept s₀ a1 := by
    unfold a1
    apply State.setBit_kept
    apply State.set_kept
    exact h
  clear_value a1
  extract_lets -merge -useContext +onlyGivenNames a3
  clear_value a3
  extract_lets -merge -useContext +onlyGivenNames a4
  have h5 : Kept s₀ a4 := by
    unfold a4
    apply State.setEngine_kept
    exact h2
  clear_value a4
  apply State.reapOps_kept
  refine Kept.mkTbl ?_ ?_ ?_ ?_
  · exact h5
  · rfl
  · rfl
  · rfl

theorem State.stopLane_kept {s₀ s : State} (h : Kept s₀ s) (k cause : Nat) :
    Kept s₀ (State.stopLane s k cause) := by
  unfold State.stopLane
  extract_lets -merge -useContext +onlyGivenNames a1
  clear_value a1
  extract_lets -merge -useContext +onlyGivenNames a2
  have h3 : Kept s₀ a2 := by
    unfold a2
    apply State.set_kept
    apply State.set_kept
    apply State.set_kept
    exact h
  clear_value a2
  apply State.raise_kept
  apply State.laneIdle_kept
  exact h3

theorem State.illegal_kept {s₀ s : State} (h : Kept s₀ s) (g : Engine) (cause : Nat) :
    Kept s₀ (State.illegal s g cause) := by
  unfold State.illegal
  split
  · rename_i a1 a2
    apply State.stopLane_kept
    exact h
  · rename_i a3 a4 a5
    extract_lets -merge -useContext +onlyGivenNames a6
    clear_value a6
    extract_lets -merge -useContext +onlyGivenNames a7
    clear_value a7
    extract_lets -merge -useContext +onlyGivenNames a8
    have h9 : Kept s₀ a8 := by
      unfold a8
      apply State.setEngine_kept
      exact h
    clear_value a8
    apply State.raise_kept
    apply State.stopTenon_kept
    exact h9

theorem State.fetchFails_kept {s₀ s : State} (h : Kept s₀ s) (g : Engine) :
    Kept s₀ (State.fetchFails s g) := by
  unfold State.fetchFails
  split
  · rename_i a1 a2
    apply State.stopLane_kept
    exact h
  · rename_i a3 a4 a5
    extract_lets -merge -useContext +onlyGivenNames a6
    clear_value a6
    apply State.raise_kept
    apply State.stopTenon_kept
    exact h

theorem State.issue_kept {s₀ s : State} (h : Kept s₀ s) (g : Engine) :
    Kept s₀ (State.issue s g) := by
  unfold State.issue
  extract_lets -merge -useContext +onlyGivenNames a1
  clear_value a1
  extract_lets -merge -useContext +onlyGivenNames a2
  clear_value a2
  extract_lets -merge -useContext +onlyGivenNames a3
  have h4 : Kept s₀ a3 := by
    unfold a3
    apply State.waitUntil_kept
    exact h
  clear_value a3
  extract_lets -merge -useContext +onlyGivenNames a5
  have h6 : Kept s₀ a5 := by
    unfold a5
    split
    · rename_i a7 a8
      exact h4
    · rename_i a9 a10 a11
      apply State.settleShift_kept
      apply State.settleTen_kept
      exact h4
  clear_value a5
  extract_lets -merge -useContext +onlyGivenNames a12
  clear_value a12
  extract_lets -merge -useContext +onlyGivenNames a13
  have h14 : Kept s₀ a13 := by
    unfold a13
    apply State.setEngine_kept
    exact h6
  clear_value a13
  split
  · rename_i a15 a16
    exact h14
  · rename_i a17 a18 a19
    apply State.endSide_kept
    exact h14

theorem State.issueSide_kept {s₀ s : State} (h : Kept s₀ s) (g : Engine) (w : Nat) :
    Kept s₀ (State.issueSide s g w) := by
  unfold State.issueSide
  split
  · rename_i a1 a2
    exact h
  · rename_i a3 a4 a5
    refine Kept.ite_ ?_ ?_
    · apply State.setEngine_kept
      exact h
    · apply State.sideSet_kept
      exact h

theorem State.finish_kept {s₀ s : State} (h : Kept s₀ s) (g : Engine) (clocks pc : Nat) :
    Kept s₀ (State.finish s g clocks pc) := by
  unfold State.finish
  extract_lets -merge -useContext +onlyGivenNames a1
  clear_value a1
  extract_lets -merge -useContext +onlyGivenNames a2
  clear_value a2
  split
  · rename_i a3 a4
    refine Kept.ite_ ?_ ?_
    · apply State.stopLane_kept
      exact h
    · apply State.setEngine_kept
      exact h
  · rename_i a5 a6 a7
    apply State.setEngine_kept
    exact h

theorem State.finishNext_kept {s₀ s : State} (h : Kept s₀ s) (g : Engine) (clocks : Nat) :
    Kept s₀ (State.finishNext s g clocks) := by
  unfold State.finishNext
  apply State.finish_kept
  exact h

theorem State.flags_kept {s₀ s : State} (h : Kept s₀ s) (g : Engine) (f : FlagSet) :
    Kept s₀ (State.flags s g f) := by
  unfold State.flags
  apply State.setEngine_kept
  exact h

theorem State.countFetch_kept {s₀ s : State} (h : Kept s₀ s) (g : Engine) :
    Kept s₀ (State.countFetch s g) := by
  unfold State.countFetch
  refine Kept.ite_ ?_ ?_
  · split
    · rename_i a1 a2
      apply State.sramErrors_kept
      exact h
    · rename_i a3 a4 a5
      apply State.countStoreCe_kept
      exact h
  · exact h

theorem State.lateCause_kept {s₀ s : State} (h : Kept s₀ s) (g : Engine) (op : Nat) :
    Kept s₀ (State.lateCause s g op) := by
  unfold State.lateCause
  split
  · rename_i a1 a2
    exact h
  · rename_i a3 a4 a5
    extract_lets -merge -useContext +onlyGivenNames a6
    clear_value a6
    extract_lets -merge -useContext +onlyGivenNames a7
    clear_value a7
    refine Kept.ite_ ?_ ?_
    · exact h
    · refine Kept.ite_ ?_ ?_
      · apply State.fetchFails_kept
        exact h
      · refine Kept.ite_ ?_ ?_
        · apply State.illegal_kept
          exact h
        · refine Kept.ite_ ?_ ?_
          · apply State.stopTenon_kept
            exact h
          · refine Kept.ite_ ?_ ?_
            · apply State.illegal_kept
              exact h
            · refine Kept.ite_ ?_ ?_
              · apply State.illegal_kept
                exact h
              · exact h

theorem runInsn_kept {s₀ s : State} (h : Kept s₀ s) (g : Engine) (op : Nat) (body : State → Nat → State)
    (hb : ∀ x w, Kept s₀ x → Kept s₀ (body x w)) : Kept s₀ (runInsn g op body s) := by
  unfold runInsn
  refine Kept.ite_ (State.lateCause_kept h g op) ?_
  extract_lets f
  have hc := State.countFetch_kept (State.issue_kept h g) g
  refine Kept.ite_ ?_ (Kept.ite_ ?_ (Kept.ite_ h ?_))
  · exact State.fetchFails_kept (State.issue_kept h g) g
  · exact State.illegal_kept hc g 2
  · exact hb _ _ (State.issueSide_kept hc g _)

theorem aluR_kept {s₀ s : State} (h : Kept s₀ s) (g : Engine) (op : Nat) (f : Word → Word → Word × FlagSet) :
    Kept s₀ (aluR g op f s) := by
  unfold aluR
  apply runInsn_kept
  · exact h
  · intro x1 a2 h3
    extract_lets -merge -useContext +onlyGivenNames a4
    clear_value a4
    apply State.finishNext_kept
    apply State.flags_kept
    apply State.setReg_kept
    exact h3

theorem aluI_kept {s₀ s : State} (h : Kept s₀ s) (g : Engine) (op : Nat) (f : Word → Nat → Word × FlagSet) :
    Kept s₀ (aluI g op f s) := by
  unfold aluI
  apply runInsn_kept
  · exact h
  · intro x1 a2 h3
    extract_lets -merge -useContext +onlyGivenNames a4
    clear_value a4
    apply State.finishNext_kept
    apply State.flags_kept
    apply State.setReg_kept
    exact h3

theorem flagsOnly_kept {s₀ s : State} (h : Kept s₀ s) (g : Engine) (op : Nat) (f : State → Nat → FlagSet) :
    Kept s₀ (flagsOnly g op f s) := by
  unfold flagsOnly
  apply runInsn_kept
  · exact h
  · intro x1 a2 h3
    apply State.finishNext_kept
    apply State.flags_kept
    exact h3

theorem execNop_kept {s₀ s : State} (h : Kept s₀ s) (g : Engine) :
    KeptR s₀ (execNop g s) := by
  unfold execNop
  refine KeptR.next ?_
  apply runInsn_kept
  · exact h
  · intro x1 a2 h3
    apply State.finishNext_kept
    exact h3

theorem execHalt_kept {s₀ s : State} (h : Kept s₀ s) (g : Engine) :
    KeptR s₀ (execHalt g s) := by
  unfold execHalt
  refine KeptR.next ?_
  apply runInsn_kept
  · exact h
  · intro x1 a2 h3
    split
    · rename_i a4 a5
      apply State.laneIdle_kept
      exact h3
    · rename_i a6 a7 a8
      apply State.stopTenon_kept
      apply State.endSide_kept
      exact h3

theorem execMov_kept {s₀ s : State} (h : Kept s₀ s) (g : Engine) :
    KeptR s₀ (execMov g s) := by
  unfold execMov
  refine KeptR.next ?_
  apply aluR_kept
  exact h

theorem execMovi_kept {s₀ s : State} (h : Kept s₀ s) (g : Engine) :
    KeptR s₀ (execMovi g s) := by
  unfold execMovi
  refine KeptR.next ?_
  apply aluI_kept
  exact h

theorem execMovh_kept {s₀ s : State} (h : Kept s₀ s) (g : Engine) :
    KeptR s₀ (execMovh g s) := by
  unfold execMovh
  refine KeptR.next ?_
  apply runInsn_kept
  · exact h
  · intro x1 a2 h3
    apply State.finishNext_kept
    apply State.setReg_kept
    exact h3

theorem execAdd_kept {s₀ s : State} (h : Kept s₀ s) (g : Engine) :
    KeptR s₀ (execAdd g s) := by
  unfold execAdd
  refine KeptR.next ?_
  apply aluR_kept
  exact h

theorem execSub_kept {s₀ s : State} (h : Kept s₀ s) (g : Engine) :
    KeptR s₀ (execSub g s) := by
  unfold execSub
  refine KeptR.next ?_
  apply aluR_kept
  exact h

theorem execAnd_kept {s₀ s : State} (h : Kept s₀ s) (g : Engine) :
    KeptR s₀ (execAnd g s) := by
  unfold execAnd
  refine KeptR.next ?_
  apply aluR_kept
  exact h

theorem execOr_kept {s₀ s : State} (h : Kept s₀ s) (g : Engine) :
    KeptR s₀ (execOr g s) := by
  unfold execOr
  refine KeptR.next ?_
  apply aluR_kept
  exact h

theorem execXor_kept {s₀ s : State} (h : Kept s₀ s) (g : Engine) :
    KeptR s₀ (execXor g s) := by
  unfold execXor
  refine KeptR.next ?_
  apply aluR_kept
  exact h

theorem execShl_kept {s₀ s : State} (h : Kept s₀ s) (g : Engine) :
    KeptR s₀ (execShl g s) := by
  unfold execShl
  refine KeptR.next ?_
  apply aluR_kept
  exact h

theorem execShr_kept {s₀ s : State} (h : Kept s₀ s) (g : Engine) :
    KeptR s₀ (execShr g s) := by
  unfold execShr
  refine KeptR.next ?_
  apply aluR_kept
  exact h

theorem execSar_kept {s₀ s : State} (h : Kept s₀ s) (g : Engine) :
    KeptR s₀ (execSar g s) := by
  unfold execSar
  refine KeptR.next ?_
  apply aluR_kept
  exact h

theorem execAddi_kept {s₀ s : State} (h : Kept s₀ s) (g : Engine) :
    KeptR s₀ (execAddi g s) := by
  unfold execAddi
  refine KeptR.next ?_
  apply aluI_kept
  exact h

theorem execAndi_kept {s₀ s : State} (h : Kept s₀ s) (g : Engine) :
    KeptR s₀ (execAndi g s) := by
  unfold execAndi
  refine KeptR.next ?_
  apply aluI_kept
  exact h

theorem execOri_kept {s₀ s : State} (h : Kept s₀ s) (g : Engine) :
    KeptR s₀ (execOri g s) := by
  unfold execOri
  refine KeptR.next ?_
  apply aluI_kept
  exact h

theorem execXori_kept {s₀ s : State} (h : Kept s₀ s) (g : Engine) :
    KeptR s₀ (execXori g s) := by
  unfold execXori
  refine KeptR.next ?_
  apply aluI_kept
  exact h

theorem execShli_kept {s₀ s : State} (h : Kept s₀ s) (g : Engine) :
    KeptR s₀ (execShli g s) := by
  unfold execShli
  refine KeptR.next ?_
  apply aluI_kept
  exact h

theorem execShri_kept {s₀ s : State} (h : Kept s₀ s) (g : Engine) :
    KeptR s₀ (execShri g s) := by
  unfold execShri
  refine KeptR.next ?_
  apply aluI_kept
  exact h

theorem execSari_kept {s₀ s : State} (h : Kept s₀ s) (g : Engine) :
    KeptR s₀ (execSari g s) := by
  unfold execSari
  refine KeptR.next ?_
  apply aluI_kept
  exact h

theorem execCmpr_kept {s₀ s : State} (h : Kept s₀ s) (g : Engine) :
    KeptR s₀ (execCmpr g s) := by
  unfold execCmpr
  refine KeptR.next ?_
  apply flagsOnly_kept
  exact h

theorem execCmpri_kept {s₀ s : State} (h : Kept s₀ s) (g : Engine) :
    KeptR s₀ (execCmpri g s) := by
  unfold execCmpri
  refine KeptR.next ?_
  apply flagsOnly_kept
  exact h

theorem execTst_kept {s₀ s : State} (h : Kept s₀ s) (g : Engine) :
    KeptR s₀ (execTst g s) := by
  unfold execTst
  refine KeptR.next ?_
  apply flagsOnly_kept
  exact h

theorem execBr_kept {s₀ s : State} (h : Kept s₀ s) (g : Engine) :
    KeptR s₀ (execBr g s) := by
  unfold execBr
  refine KeptR.next ?_
  apply runInsn_kept
  · exact h
  · intro x1 a2 h3
    refine Kept.ite_ ?_ ?_
    · apply State.finish_kept
      exact h3
    · apply State.finishNext_kept
      exact h3

theorem execCall_kept {s₀ s : State} (h : Kept s₀ s) (g : Engine) :
    KeptR s₀ (execCall g s) := by
  unfold execCall
  refine KeptR.next ?_
  apply runInsn_kept
  · exact h
  · intro x1 a2 h3
    extract_lets -merge -useContext +onlyGivenNames a4
    clear_value a4
    refine Kept.ite_ ?_ ?_
    · apply State.illegal_kept
      exact h3
    · extract_lets -merge -useContext +onlyGivenNames a5
      have h6 : Kept s₀ a5 := by
        unfold a5
        apply State.setEngine_kept
        exact h3
      clear_value a5
      apply State.finish_kept
      exact h6

theorem execRet_kept {s₀ s : State} (h : Kept s₀ s) (g : Engine) :
    KeptR s₀ (execRet g s) := by
  unfold execRet
  refine KeptR.next ?_
  apply runInsn_kept
  · exact h
  · intro x1 a2 h3
    extract_lets -merge -useContext +onlyGivenNames a4
    clear_value a4
    split
    · rename_i a5 e6
      apply State.illegal_kept
      exact h3
    · rename_i a7 a8 a9 e10
      apply State.finish_kept
      apply State.setEngine_kept
      exact h3

theorem execLoop_kept {s₀ s : State} (h : Kept s₀ s) (g : Engine) :
    KeptR s₀ (execLoop g s) := by
  unfold execLoop
  refine KeptR.next ?_
  apply runInsn_kept
  · exact h
  · intro x1 a2 h3
    extract_lets -merge -useContext +onlyGivenNames a4
    clear_value a4
    extract_lets -merge -useContext +onlyGivenNames a5
    have h6 : Kept s₀ a5 := by
      unfold a5
      apply State.setReg_kept
      exact h3
    clear_value a5
    refine Kept.ite_ ?_ ?_
    · apply State.finish_kept
      exact h6
    · apply State.finishNext_kept
      exact h6

theorem execWait_kept {s₀ s : State} (h : Kept s₀ s) (g : Engine) :
    KeptR s₀ (execWait g s) := by
  unfold execWait
  refine KeptR.next ?_
  apply runInsn_kept
  · exact h
  · intro x1 a2 h3
    extract_lets -merge -useContext +onlyGivenNames a4
    have h5 : Kept s₀ a4 := by
      unfold a4
      apply State.finishNext_kept
      exact h3
    clear_value a4
    refine Kept.ite_ ?_ ?_
    · exact h5
    · apply State.setEngine_kept
      exact h5

theorem execExt_kept {s₀ s : State} (h : Kept s₀ s) (g : Engine) :
    KeptR s₀ (execExt g s) := by
  unfold execExt
  refine KeptR.next ?_
  apply runInsn_kept
  · exact h
  · intro x1 a2 h3
    extract_lets -merge -useContext +onlyGivenNames a4
    clear_value a4
    apply State.finishNext_kept
    apply State.flags_kept
    apply State.setReg_kept
    exact h3

theorem execIns_kept {s₀ s : State} (h : Kept s₀ s) (g : Engine) :
    KeptR s₀ (execIns g s) := by
  unfold execIns
  refine KeptR.next ?_
  apply runInsn_kept
  · exact h
  · intro x1 a2 h3
    extract_lets -merge -useContext +onlyGivenNames a4
    clear_value a4
    apply State.finishNext_kept
    apply State.flags_kept
    apply State.setReg_kept
    exact h3

theorem execJmpr_kept {s₀ s : State} (h : Kept s₀ s) (g : Engine) :
    KeptR s₀ (execJmpr g s) := by
  unfold execJmpr
  refine KeptR.next ?_
  apply runInsn_kept
  · exact h
  · intro x1 a2 h3
    extract_lets -merge -useContext +onlyGivenNames a4
    clear_value a4
    refine Kept.ite_ ?_ ?_
    · apply State.illegal_kept
      exact h3
    · apply State.finish_kept
      exact h3

end Sys2Proof.Machine
end

