-- ==== Sys2Proof/Laws/KeptTenonProfile.lean ====
section
/-! SUPPORT. What the operations of `Machine/TenonProfile.lean` keep: the queue, the direction of the clock, sound
stores. -/

namespace Sys2Proof.Machine

theorem State.waits_kept {s₀ s : State} (h : Kept s₀ s) (b : Fin 32) (t : Fin 5) (wt : Wait) :
    Kept s₀ (State.waits s b t wt) := by
  unfold State.waits
  apply State.setEngine_kept
  exact h

theorem State.resumeNow_kept {s₀ s : State} (h : Kept s₀ s) (b : Fin 32) (t : Fin 5) :
    Kept s₀ (State.resumeNow s b t) := by
  unfold State.resumeNow
  extract_lets -merge -useContext +onlyGivenNames a1
  clear_value a1
  apply State.setEngine_kept
  exact h

theorem State.pushEnd_kept {s₀ s : State} (h : Kept s₀ s) (b : Fin 32) (t : Fin 5) (pri clocks : Nat) (v : Word) :
    Kept s₀ (State.pushEnd s b t pri clocks v) := by
  unfold State.pushEnd
  extract_lets -merge -useContext +onlyGivenNames a1
  clear_value a1
  refine Kept.ite_ ?_ ?_
  · apply State.finishNext_kept
    apply State.pump_kept
    apply State.outPush_kept
    exact h
  · apply State.waits_kept
    exact h

theorem State.shiftRun_kept {s₀ s : State} (h : Kept s₀ s) (b : Fin 32) (t : Fin 5) (w : Nat) (samples : List (BitVec 16)) :
    Kept s₀ (State.shiftRun s b t w samples) := by
  unfold State.shiftRun
  extract_lets -merge -useContext +onlyGivenNames a1
  clear_value a1
  extract_lets -merge -useContext +onlyGivenNames a2
  clear_value a2
  extract_lets -merge -useContext +onlyGivenNames a3
  clear_value a3
  extract_lets -merge -useContext +onlyGivenNames a4
  clear_value a4
  refine Kept.ite_ ?_ ?_
  · extract_lets -merge -useContext +onlyGivenNames a5
    have h6 : Kept s₀ a5 := by
      unfold a5
      apply State.settleBay_kept
      exact h
    clear_value a5
    extract_lets -merge -useContext +onlyGivenNames a7
    clear_value a7
    apply State.waits_kept
    exact h6
  · extract_lets -merge -useContext +onlyGivenNames a8
    have h9 : Kept s₀ a8 := by
      unfold a8
      apply State.waits_kept
      apply State.flags_kept
      exact h
    clear_value a8
    refine Kept.ite_ ?_ ?_
    · exact h9
    · extract_lets -merge -useContext +onlyGivenNames a10
      clear_value a10
      refine Kept.ite_ ?_ ?_
      · apply State.finishNext_kept
        exact h9
      · apply State.finish_kept
        exact h9

theorem State.shifto_kept {s₀ s : State} (h : Kept s₀ s) (b : Fin 32) (t : Fin 5) (w : Nat) :
    Kept s₀ (State.shifto s b t w) := by
  unfold State.shifto
  extract_lets -merge -useContext +onlyGivenNames a1
  clear_value a1
  refine Kept.ite_ ?_ ?_
  · apply State.finishNext_kept
    apply State.flags_kept
    exact h
  · refine Kept.ite_ ?_ ?_
    · extract_lets -merge -useContext +onlyGivenNames a2
      clear_value a2
      split
      · rename_i a3 e4
        apply State.waits_kept
        exact h
      · rename_i a5 a6 a7 e8
        apply State.shiftRun_kept
        apply State.setReg_kept
        apply State.setQueues_kept
        exact h
    · apply State.shiftRun_kept
      exact h

theorem execShifto_kept {s₀ s : State} (h : Kept s₀ s) (b : Fin 32) (t : Fin 5) :
    KeptR s₀ (execShifto b t s) := by
  unfold execShifto
  refine KeptR.next ?_
  apply runInsn_kept
  · exact h
  · intro x1 a2 h3
    apply State.shifto_kept
    exact h3

theorem execShifti_kept {s₀ s : State} (h : Kept s₀ s) (b : Fin 32) (t : Fin 5) (samples : List (BitVec 16)) :
    KeptR s₀ (execShifti b t samples s) := by
  unfold execShifti
  refine KeptR.next ?_
  apply runInsn_kept
  · exact h
  · intro x1 a2 h3
    refine Kept.ite_ ?_ ?_
    · apply State.finishNext_kept
      apply State.flags_kept
      exact h3
    · apply State.shiftRun_kept
      exact h3

theorem State.frameStep_kept {s₀ s : State} (h : Kept s₀ s) (b t : Nat) :
    Kept s₀ (State.frameStep s b t) := by
  unfold State.frameStep
  split
  · rename_i a1 a2 a3 a4 e5
    extract_lets -merge -useContext +onlyGivenNames a6
    have h7 : Kept s₀ a6 := by
      unfold a6
      refine Kept.ite_ ?_ ?_
      · apply State.shiftOne_kept
        exact h
      · exact h
    clear_value a6
    apply State.setEngine_kept
    exact h7
  · rename_i a8 e9
    exact h

theorem State.frameSteps_kept {s₀ s : State} (h : Kept s₀ s) (b t edges : Nat) (samples : List (BitVec 16)) :
    Kept s₀ (State.frameSteps s b t edges samples) := by
  unfold State.frameSteps
  split
  · rename_i a1 a2 a3 a4 e5
    extract_lets -merge -useContext +onlyGivenNames a6
    clear_value a6
    extract_lets -merge -useContext +onlyGivenNames a7
    clear_value a7
    extract_lets -merge -useContext +onlyGivenNames a8
    have h9 : Kept s₀ a8 := by
      unfold a8
      apply State.setEngine_kept
      exact h
    clear_value a8
    extract_lets -merge -useContext +onlyGivenNames a10
    clear_value a10
    extract_lets -merge -useContext +onlyGivenNames a11
    have h12 : Kept s₀ a11 := by
      unfold a11
      refine State.each_kept _ _ ?_ ?_
      · exact h9
      · intro a13 x14 h15
        apply State.frameStep_kept
        exact h15
    clear_value a11
    split
    · rename_i a16 a17 a18 a19 e20
      apply State.setEngine_kept
      exact h12
    · rename_i a21 e22
      exact h12
  · rename_i a23 e24
    exact h

theorem State.selectEnds_kept {s₀ s : State} (h : Kept s₀ s) (b : Fin 32) (t : Fin 5) :
    Kept s₀ (State.selectEnds s b t) := by
  unfold State.selectEnds
  extract_lets -merge -useContext +onlyGivenNames a1
  clear_value a1
  extract_lets -merge -useContext +onlyGivenNames a2
  have h3 : Kept s₀ a2 := by
    unfold a2
    apply State.setBit_kept
    exact h
  clear_value a2
  split
  · rename_i a4 a5 a6 e7
    apply State.waits_kept
    exact h3
  · rename_i a8 a9 a10 a11 e12
    extract_lets -merge -useContext +onlyGivenNames a13
    have h14 : Kept s₀ a13 := by
      unfold a13
      apply State.resumeNow_kept
      exact h3
    clear_value a13
    refine Kept.ite_ ?_ ?_
    · extract_lets -merge -useContext +onlyGivenNames a15
      have h16 : Kept s₀ a15 := by
        unfold a15
        apply State.raise_kept
        apply State.inc_kept
        exact h14
      clear_value a15
      apply State.finishNext_kept
      apply State.flags_kept
      apply State.setReg_kept
      exact h16
    · extract_lets -merge -useContext +onlyGivenNames a17
      have h18 : Kept s₀ a17 := by
        unfold a17
        refine Kept.ite_ ?_ ?_
        · apply State.raise_kept
          apply State.inc_kept
          exact h14
        · exact h14
      clear_value a17
      extract_lets -merge -useContext +onlyGivenNames a19
      have h20 : Kept s₀ a19 := by
        unfold a19
        apply State.flags_kept
        exact h18
      clear_value a19
      refine Kept.ite_ ?_ ?_
      · apply State.pushEnd_kept
        exact h20
      · apply State.finishNext_kept
        exact h20
  · rename_i a21 e22 e23
    exact h3

theorem execSelectRelease_kept {s₀ s : State} (h : Kept s₀ s) (b : Fin 32) (t : Fin 5) (edges : Nat) (samples : List (BitVec 16)) :
    KeptR s₀ (execSelectRelease b t edges samples s) := by
  unfold execSelectRelease
  split
  · rename_i a1 a2 a3 a4 e5
    refine KeptR.next ?_
    apply State.selectEnds_kept
    apply State.frameSteps_kept
    exact h
  · rename_i a6 e7
    refine KeptR.next ?_
    exact h

theorem execWclk_kept {s₀ s : State} (h : Kept s₀ s) (b : Fin 32) (t : Fin 5) :
    KeptR s₀ (execWclk b t s) := by
  unfold execWclk
  extract_lets -merge -useContext +onlyGivenNames a1
  clear_value a1
  refine KeptR.next ?_
  apply runInsn_kept
  · exact h
  · intro x2 a3 h4
    extract_lets -merge -useContext +onlyGivenNames a5
    clear_value a5
    extract_lets -merge -useContext +onlyGivenNames a6
    clear_value a6
    refine Kept.ite_ ?_ ?_
    · refine Kept.ite_ ?_ ?_
      · apply State.finishNext_kept
        apply State.flags_kept
        exact h4
      · extract_lets -merge -useContext +onlyGivenNames a7
        clear_value a7
        extract_lets -merge -useContext +onlyGivenNames a8
        clear_value a8
        extract_lets -merge -useContext +onlyGivenNames a9
        clear_value a9
        apply State.finishNext_kept
        apply State.waits_kept
        apply State.flags_kept
        exact h4
    · apply State.waits_kept
      apply State.flags_kept
      exact h4

theorem execWpin_kept {s₀ s : State} (h : Kept s₀ s) (b : Fin 32) (t : Fin 5) :
    KeptR s₀ (execWpin b t s) := by
  unfold execWpin
  extract_lets -merge -useContext +onlyGivenNames a1
  clear_value a1
  refine KeptR.next ?_
  apply runInsn_kept
  · exact h
  · intro x2 a3 h4
    extract_lets -merge -useContext +onlyGivenNames a5
    have h6 : Kept s₀ a5 := by
      unfold a5
      apply State.settleBay_kept
      exact h4
    clear_value a5
    refine Kept.ite_ ?_ ?_
    · apply State.finishNext_kept
      exact h6
    · apply State.waits_kept
      exact h6

theorem execCmp_kept {s₀ s : State} (h : Kept s₀ s) (b : Fin 32) (t : Fin 5) :
    KeptR s₀ (execCmp b t s) := by
  unfold execCmp
  extract_lets -merge -useContext +onlyGivenNames a1
  clear_value a1
  refine KeptR.next ?_
  apply flagsOnly_kept
  exact h

theorem State.popTo_kept {s₀ s : State} (h : Kept s₀ s) (b : Fin 32) (t : Fin 5) (w : Nat) :
    KeptO s₀ (State.popTo s b t w) := by
  unfold State.popTo
  extract_lets -merge -useContext +onlyGivenNames a1
  clear_value a1
  split
  · rename_i a2 e3
    exact KeptO.none _
  · rename_i a4 a5 a6 e7
    refine KeptO.some ?_
    apply State.finishNext_kept
    apply State.flags_kept
    apply State.setReg_kept
    apply State.setQueues_kept
    exact h

theorem execPop_kept {s₀ s : State} (h : Kept s₀ s) (b : Fin 32) (t : Fin 5) :
    KeptR s₀ (execPop b t s) := by
  unfold execPop
  extract_lets -merge -useContext +onlyGivenNames a1
  clear_value a1
  refine KeptR.next ?_
  apply runInsn_kept
  · exact h
  · intro x2 a3 h4
    split
    · rename_i a5 x6 e7
      refine Kept.cut (s := s₀) (KeptO.of ?_ e7) fun h8 => ?_
      · apply State.popTo_kept
        exact h4
      exact h8
    · rename_i a9 e10
      refine Kept.ite_ ?_ ?_
      · apply State.finishNext_kept
        apply State.flags_kept
        exact h4
      · apply State.waits_kept
        exact h4

theorem execPush_kept {s₀ s : State} (h : Kept s₀ s) (b : Fin 32) (t : Fin 5) :
    KeptR s₀ (execPush b t s) := by
  unfold execPush
  extract_lets -merge -useContext +onlyGivenNames a1
  clear_value a1
  refine KeptR.next ?_
  apply runInsn_kept
  · exact h
  · intro x2 a3 h4
    extract_lets -merge -useContext +onlyGivenNames a5
    clear_value a5
    refine Kept.ite_ ?_ ?_
    · apply State.finishNext_kept
      apply State.pump_kept
      apply State.outPush_kept
      apply State.flags_kept
      exact h4
    · refine Kept.ite_ ?_ ?_
      · apply State.finishNext_kept
        apply State.flags_kept
        exact h4
      · apply State.waits_kept
        exact h4

theorem State.countPin_kept {s₀ s : State} (h : Kept s₀ s) (b t pin : Nat) (rising : Bool) :
    Kept s₀ (State.countPin s b t pin rising) := by
  unfold State.countPin
  extract_lets -merge -useContext +onlyGivenNames a1
  clear_value a1
  extract_lets -merge -useContext +onlyGivenNames a2
  clear_value a2
  extract_lets -merge -useContext +onlyGivenNames a3
  clear_value a3
  extract_lets -merge -useContext +onlyGivenNames a4
  clear_value a4
  refine Kept.ite_ ?_ ?_
  · extract_lets -merge -useContext +onlyGivenNames a5
    clear_value a5
    apply State.setEngine_kept
    exact h
  · exact h

theorem State.shiftDone_kept {s₀ s : State} (h : Kept s₀ s) (b : Fin 32) (t : Fin 5) (w : Nat) :
    Kept s₀ (State.shiftDone s b t w) := by
  unfold State.shiftDone
  extract_lets -merge -useContext +onlyGivenNames a1
  have h2 : Kept s₀ a1 := by
    unfold a1
    apply State.resumeNow_kept
    exact h
  clear_value a1
  refine Kept.ite_ ?_ ?_
  · apply State.pushEnd_kept
    exact h2
  · apply State.finishNext_kept
    exact h2

theorem State.waitEdge_kept {s₀ s : State} (h : Kept s₀ s) (b : Fin 32) (t : Fin 5) (pin : Nat) (rising : Bool) :
    Kept s₀ (State.waitEdge s b t pin rising) := by
  unfold State.waitEdge
  extract_lets -merge -useContext +onlyGivenNames a1
  clear_value a1
  extract_lets -merge -useContext +onlyGivenNames a2
  clear_value a2
  extract_lets -merge -useContext +onlyGivenNames a3
  clear_value a3
  extract_lets -merge -useContext +onlyGivenNames a4
  clear_value a4
  extract_lets -merge -useContext +onlyGivenNames a5
  split
  · rename_i a6 a7 e8
    extract_lets -merge -useContext +onlyGivenNames a9
    clear_value a9
    refine Kept.ite_ ?_ ?_
    · exact h
    · refine Kept.ite_ ?_ ?_
      · apply State.finishNext_kept
        apply State.resumeNow_kept
        exact h
      · apply State.waits_kept
        exact h
  · rename_i a10 e11
    refine Kept.ite_ ?_ ?_
    · apply State.finishNext_kept
      apply State.resumeNow_kept
      exact h
    · exact h
  · rename_i a12 a13 e14
    refine Kept.ite_ ?_ ?_
    · exact h
    · extract_lets -merge -useContext +onlyGivenNames a15
      have h16 : Kept s₀ a15 := by
        unfold a15
        apply State.stepShift_kept
        exact h
      clear_value a15
      refine Kept.ite_ ?_ ?_
      · exact h16
      · apply State.shiftDone_kept
        exact h16
  · rename_i a17 a18 a19 a20 e21
    extract_lets -merge -useContext +onlyGivenNames a22
    clear_value a22
    refine Kept.ite_ ?_ ?_
    · refine Kept.ite_ ?_ ?_
      · exact h
      · apply State.selectEnds_kept
        exact h
    · refine Kept.ite_ ?_ ?_
      · apply State.frameStep_kept
        exact h
      · exact h
  · rename_i a23 e24 e25 e26 e27
    exact h

theorem State.pinEdge_kept {s₀ s : State} (h : Kept s₀ s) (b : Fin 32) (pin : Nat) (rising : Bool) :
    Kept s₀ (State.pinEdge s b pin rising) := by
  unfold State.pinEdge
  extract_lets -merge -useContext +onlyGivenNames a1
  have h2 : Kept s₀ a1 := by
    unfold a1
    apply State.setBit_kept
    apply State.settleBay_kept
    exact h
  clear_value a1
  refine Kept.foldl _ _ ?_ ?_
  · exact h2
  · intro x3 a4 h5
    extract_lets -merge -useContext +onlyGivenNames a6
    have h7 : Kept s₀ a6 := by
      unfold a6
      apply State.countPin_kept
      exact h5
    clear_value a6
    refine Kept.ite_ ?_ ?_
    · apply State.waitEdge_kept
      exact h7
    · exact h7

theorem State.seePins_kept {s₀ s : State} (h : Kept s₀ s) (b : Fin 32) (pins : BitVec 16) :
    Kept s₀ (State.seePins s b pins) := by
  unfold State.seePins
  refine State.each_kept _ _ ?_ ?_
  · apply State.settleBay_kept
    exact h
  · intro a1 x2 h3
    refine Kept.ite_ ?_ ?_
    · exact h3
    · apply State.pinEdge_kept
      exact h3

theorem execCounterPinEdge_kept {s₀ s : State} (h : Kept s₀ s) (b : Fin 32) (pin : Fin 16) (rising : Bool) :
    KeptR s₀ (execCounterPinEdge b pin rising s) := by
  unfold execCounterPinEdge
  refine KeptR.next ?_
  apply State.pinEdge_kept
  exact h

theorem State.shiftPush_kept {s₀ s : State} (h : Kept s₀ s) (b : Fin 32) (t : Fin 5) (w : Nat) :
    Kept s₀ (State.shiftPush s b t w) := by
  unfold State.shiftPush
  extract_lets -merge -useContext +onlyGivenNames a1
  clear_value a1
  extract_lets -merge -useContext +onlyGivenNames a2
  have h3 : Kept s₀ a2 := by
    unfold a2
    apply State.waitUntil_kept
    exact h
  clear_value a2
  extract_lets -merge -useContext +onlyGivenNames a4
  have h5 : Kept s₀ a4 := by
    unfold a4
    apply State.settleShift_kept
    apply State.settleTen_kept
    exact h3
  clear_value a4
  apply State.pushEnd_kept
  apply State.waits_kept
  exact h5

theorem execInstructionWaitEnd_kept {s₀ s : State} (h : Kept s₀ s) (b : Fin 32) (t : Fin 5) (pins : BitVec 16) :
    KeptR s₀ (execInstructionWaitEnd b t pins s) := by
  unfold execInstructionWaitEnd
  extract_lets -merge -useContext +onlyGivenNames a1
  clear_value a1
  extract_lets -merge -useContext +onlyGivenNames a2
  have h3 : Kept s₀ a2 := by
    unfold a2
    apply State.seePins_kept
    exact h
  clear_value a2
  extract_lets -merge -useContext +onlyGivenNames a4
  clear_value a4
  extract_lets -merge -useContext +onlyGivenNames a5
  clear_value a5
  split
  · rename_i a6 e7
    refine KeptR.ite_ ?_ ?_
    · refine KeptR.next ?_
      refine KeptO.getD ?_ ?_
      · apply State.popTo_kept
        apply State.resumeNow_kept
        exact h3
      · exact h3
    · refine KeptR.next ?_
      split
      · rename_i a8 e9
        exact h3
      · rename_i a10 a11 a12 e13
        apply State.shiftRun_kept
        apply State.setReg_kept
        apply State.setQueues_kept
        apply State.resumeNow_kept
        exact h3
  · rename_i a14 e15
    refine KeptR.ite_ ?_ ?_
    · extract_lets -merge -useContext +onlyGivenNames a16
      clear_value a16
      extract_lets -merge -useContext +onlyGivenNames a17
      clear_value a17
      refine KeptR.next ?_
      apply State.finishNext_kept
      apply State.pump_kept
      apply State.outPush_kept
      apply State.flags_kept
      apply State.resumeNow_kept
      exact h3
    · refine KeptR.next ?_
      exact h3
  · rename_i a18 e19
    refine KeptR.next ?_
    refine Kept.ite_ ?_ ?_
    · apply State.finishNext_kept
      apply State.resumeNow_kept
      exact h3
    · exact h3
  · rename_i a20 a21 e22
    refine KeptR.next ?_
    refine Kept.ite_ ?_ ?_
    · apply State.shiftPush_kept
      exact h3
    · exact h3
  · rename_i a23 e24 e25 e26 e27
    refine KeptR.next ?_
    exact h3

theorem queueOp_kept {s₀ s : State} (h : Kept s₀ s) (b : Fin 32) (t : Fin 5) (op : Nat) (f : Queues → Nat → Queues) :
    Kept s₀ (queueOp b t op f s) := by
  unfold queueOp
  apply runInsn_kept
  · exact h
  · intro x1 a2 h3
    extract_lets -merge -useContext +onlyGivenNames a4
    clear_value a4
    extract_lets -merge -useContext +onlyGivenNames a5
    have h6 : Kept s₀ a5 := by
      unfold a5
      refine Kept.ite_ ?_ ?_
      · exact h3
      · apply State.setQueues_kept
        exact h3
    clear_value a5
    apply State.finishNext_kept
    apply State.pump_kept
    exact h6

theorem execMark_kept {s₀ s : State} (h : Kept s₀ s) (b : Fin 32) (t : Fin 5) :
    KeptR s₀ (execMark b t s) := by
  unfold execMark
  refine KeptR.next ?_
  apply queueOp_kept
  exact h

theorem execRewind_kept {s₀ s : State} (h : Kept s₀ s) (b : Fin 32) (t : Fin 5) :
    KeptR s₀ (execRewind b t s) := by
  unfold execRewind
  refine KeptR.next ?_
  apply queueOp_kept
  exact h

theorem execRelease_kept {s₀ s : State} (h : Kept s₀ s) (b : Fin 32) (t : Fin 5) :
    KeptR s₀ (execRelease b t s) := by
  unfold execRelease
  refine KeptR.next ?_
  apply queueOp_kept
  exact h

theorem execClkctl_kept {s₀ s : State} (h : Kept s₀ s) (b : Fin 32) (t : Fin 5) :
    KeptR s₀ (execClkctl b t s) := by
  unfold execClkctl
  extract_lets -merge -useContext +onlyGivenNames a1
  clear_value a1
  refine KeptR.next ?_
  apply runInsn_kept
  · exact h
  · intro x2 a3 h4
    apply State.finishNext_kept
    apply State.setGen_kept
    exact h4

theorem State.writeSeqStore_kept {s₀ s : State} (h : Kept s₀ s) (w : Nat) (v : Word) :
    Kept s₀ (State.writeSeqStore s w v) := by
  refine h.same rfl rfl fun q => ⟨?_, q.regs, q.doors, q.wheel, q.causes, q.fwd, q.remote⟩
  have k := q.mem
  simp only [State.wf, Bool.and_eq_true] at k ⊢
  exact ⟨⟨k.1.1, Tab.wf_put _ _ _ k.1.2⟩, k.2⟩

theorem execSeqStoreWrite_kept {s₀ s : State} (h : Kept s₀ s) (w : BitVec 16) (v : Word) :
    KeptR s₀ (execSeqStoreWrite w v s) := by
  unfold execSeqStoreWrite
  refine KeptR.next ?_
  refine Kept.ite_ ?_ ?_
  · apply State.writeSeqStore_kept
    exact h
  · exact h

theorem State.writeTenStore_kept {s₀ s : State} (h : Kept s₀ s) (w : Nat) (v : Word) :
    Kept s₀ (State.writeTenStore s w v) := by
  unfold State.writeTenStore
  extract_lets b t
  refine Kept.ite_ (h.same rfl rfl fun q => ⟨?_, q.regs, q.doors, q.wheel, q.causes, q.fwd, q.remote⟩)
    (State.raise_kept h _ _)
  have k := q.mem
  simp only [State.wf, Bool.and_eq_true] at k ⊢
  exact ⟨k.1, Tab.wf_put _ _ _ k.2⟩

theorem execTenonStoreWrite_kept {s₀ s : State} (h : Kept s₀ s) (w : BitVec 16) (v : Word) :
    KeptR s₀ (execTenonStoreWrite w v s) := by
  unfold execTenonStoreWrite
  refine KeptR.next ?_
  refine Kept.ite_ ?_ ?_
  · apply State.writeTenStore_kept
    exact h
  · exact h

end Sys2Proof.Machine
end

