-- ==== Sys2Proof/Laws/KeptBays.lean ====
section
/-! SUPPORT. What the operations of `Machine/Bays.lean` keep: the queue, the direction of the clock, sound
stores. -/

namespace Sys2Proof.Machine

theorem State.pumpAll_kept {s₀ s : State} (h : Kept s₀ s) :
    Kept s₀ (State.pumpAll s) := by
  unfold State.pumpAll
  refine Kept.foldl _ _ ?_ ?_
  · exact h
  · intro x1 a2 h3
    apply State.pump_kept
    exact h3

theorem execBankOutOfBand_kept {s₀ s : State} (h : Kept s₀ s) (b : Fin 32) :
    KeptR s₀ (execBankOutOfBand b s) := by
  unfold execBankOutOfBand
  refine KeptR.next ?_
  apply State.setBankOk_kept
  exact h

theorem execBankInBand_kept {s₀ s : State} (h : Kept s₀ s) (b : Fin 32) :
    KeptR s₀ (execBankInBand b s) := by
  unfold execBankInBand
  refine KeptR.next ?_
  refine Kept.ite_ ?_ ?_
  · apply State.setBankOk_kept
    exact h
  · exact h

theorem execTenonStart_kept {s₀ s : State} (h : Kept s₀ s) (b : Fin 32) (t : Fin 5) (v : Word) :
    KeptR s₀ (execTenonStart b t v s) := by
  unfold execTenonStart
  refine KeptR.next ?_
  apply State.writeTenCtl_kept
  exact h

theorem execTenonStop_kept {s₀ s : State} (h : Kept s₀ s) (b : Fin 32) (t : Fin 5) :
    KeptR s₀ (execTenonStop b t s) := by
  unfold execTenonStop
  refine KeptR.next ?_
  apply State.writeTenCtl_kept
  exact h

theorem execTenonTest_kept {s₀ s : State} (h : Kept s₀ s) (b : Fin 32) (t : Fin 5) :
    KeptR s₀ (execTenonTest b t s) := by
  unfold execTenonTest
  refine KeptR.next ?_
  apply State.writeTenCtl_kept
  exact h

theorem execPeriodicSelftest_kept {s₀ s : State} (h : Kept s₀ s) (b : Fin 32) :
    KeptR s₀ (execPeriodicSelftest b s) := by
  unfold execPeriodicSelftest
  extract_lets -merge -useContext +onlyGivenNames a1
  clear_value a1
  extract_lets -merge -useContext +onlyGivenNames a2
  clear_value a2
  extract_lets -merge -useContext +onlyGivenNames a3
  clear_value a3
  refine KeptR.next ?_
  refine Kept.ite_ ?_ ?_
  · apply State.beginTest_kept
    apply State.setBay_kept
    exact h
  · exact h

theorem execSelftestComplete_kept {s₀ s : State} (h : Kept s₀ s) (b : Fin 32) (t : Fin 5) (pass : Bool) (ce : BitVec 8) :
    KeptR s₀ (execSelftestComplete b t pass ce s) := by
  unfold execSelftestComplete
  extract_lets -merge -useContext +onlyGivenNames a1
  clear_value a1
  extract_lets -merge -useContext +onlyGivenNames a2
  clear_value a2
  refine KeptR.ite_ ?_ ?_
  · refine KeptR.next ?_
    exact h
  · extract_lets -merge -useContext +onlyGivenNames a3
    clear_value a3
    extract_lets -merge -useContext +onlyGivenNames a4
    clear_value a4
    extract_lets -merge -useContext +onlyGivenNames a5
    have h6 : Kept s₀ a5 := by
      unfold a5
      apply State.waitUntil_kept
      exact h
    clear_value a5
    extract_lets -merge -useContext +onlyGivenNames a7
    clear_value a7
    extract_lets -merge -useContext +onlyGivenNames a8
    clear_value a8
    extract_lets -merge -useContext +onlyGivenNames a9
    have h10 : Kept s₀ a9 := by
      unfold a9
      apply State.setEngine_kept
      exact h6
    clear_value a9
    extract_lets -merge -useContext +onlyGivenNames a11
    have h12 : Kept s₀ a11 := by
      unfold a11
      apply State.setB_kept
      exact h10
    clear_value a11
    extract_lets -merge -useContext +onlyGivenNames a13
    clear_value a13
    extract_lets -merge -useContext +onlyGivenNames a14
    clear_value a14
    extract_lets -merge -useContext +onlyGivenNames a15
    have h16 : Kept s₀ a15 := by
      unfold a15
      refine Kept.ite_ ?_ ?_
      · apply State.set_kept
        apply State.inc_kept
        exact h12
      · apply State.raise_kept
        apply State.set_kept
        apply State.inc_kept
        exact h12
    clear_value a15
    extract_lets -merge -useContext +onlyGivenNames a17
    have h18 : Kept s₀ a17 := by
      unfold a17
      apply State.settlePads_kept
      exact h16
    clear_value a17
    extract_lets -merge -useContext +onlyGivenNames a19
    have h20 : Kept s₀ a19 := by
      unfold a19
      refine Kept.ite_ ?_ ?_
      · exact h18
      · apply State.policySwap_kept
        exact h18
    clear_value a19
    refine KeptR.next ?_
    apply State.countStoreCe_kept
    exact h20

theorem execQlinkWrite_kept {s₀ s : State} (h : Kept s₀ s) (b : Fin 32) (v : Word) :
    KeptR s₀ (execQlinkWrite b v s) := by
  unfold execQlinkWrite
  refine KeptR.next ?_
  apply State.writeQlink_kept
  exact h

theorem execQueueInWrite_kept {s₀ s : State} (h : Kept s₀ s) (b : Fin 32) (l : Fin 4) (v : Word) :
    KeptR s₀ (execQueueInWrite b l v s) := by
  unfold execQueueInWrite
  refine KeptR.next ?_
  apply State.queueIn_kept
  exact h

theorem execFlush_kept {s₀ s : State} (h : Kept s₀ s) (b : Fin 32) (l : Fin 4) :
    KeptR s₀ (execFlush b l s) := by
  unfold execFlush
  refine KeptR.next ?_
  apply State.flushQueues_kept
  exact h

theorem State.autoWaits_kept {s₀ s : State} (h : Kept s₀ s) (b l : Nat) :
    Kept s₀ (State.autoWaits s b l) := by
  unfold State.autoWaits
  extract_lets -merge -useContext +onlyGivenNames a1
  clear_value a1
  refine Kept.ite_ ?_ ?_
  · apply State.setBay_kept
    exact h
  · exact h

theorem State.takeItems_kept {s₀ s : State} (h : Kept s₀ s) (b l n : Nat) :
    KeptP s₀ (State.takeItems s b l n) := by
  induction n generalizing s with
  | zero => exact KeptP.mk h
  | succ n ih =>
    unfold State.takeItems
    split
    · exact KeptP.mk h
    · exact KeptP.mk (ih (State.setQueues_kept h b l _)).fst

theorem State.arriveAll_kept {s₀ s : State} (h : Kept s₀ s) (b l : Nat) (ws : List Word) :
    Kept s₀ (State.arriveAll s b l ws) := by
  unfold State.arriveAll
  refine Kept.foldl _ _ ?_ ?_
  · exact h
  · intro x1 a2 h3
    apply State.arrive_kept
    exact h3

theorem State.moveWptr_kept {s₀ s : State} (h : Kept s₀ s) (b l n points : Nat) :
    Kept s₀ (State.moveWptr s b l n points) := by
  unfold State.moveWptr
  extract_lets -merge -useContext +onlyGivenNames a1
  clear_value a1
  extract_lets -merge -useContext +onlyGivenNames a2
  clear_value a2
  extract_lets -merge -useContext +onlyGivenNames a3
  have h4 : Kept s₀ a3 := by
    unfold a3
    apply State.setBay_kept
    exact h
  clear_value a3
  apply State.set_kept
  exact h4

theorem State.autoLands_kept {s₀ s : State} (h : Kept s₀ s) (b l p points : Nat) (ws : List Word) :
    Kept s₀ (State.autoLands s b l p points ws) := by
  unfold State.autoLands
  apply State.moveWptr_kept
  apply State.arriveAll_kept
  apply State.set_kept
  exact h

theorem State.autoClosed_kept {s₀ s : State} (h : Kept s₀ s) (o : Op) :
    Kept s₀ (State.autoClosed s o) := by
  unfold State.autoClosed
  extract_lets -merge -useContext +onlyGivenNames a1
  clear_value a1
  extract_lets -merge -useContext +onlyGivenNames a2
  clear_value a2
  extract_lets -merge -useContext +onlyGivenNames a3
  clear_value a3
  refine Kept.ite_ ?_ ?_
  · apply State.autoWaits_kept
    exact h
  · apply State.autoLands_kept
    refine Kept.mkTbl ?_ ?_ ?_ ?_
    · exact h
    · rfl
    · rfl
    · rfl

theorem State.autoBurst_kept {s₀ s : State} (h : Kept s₀ s) (b l ch : Nat) (e : Entry) (p : Nat) :
    Kept s₀ (State.autoBurst s b l ch e p) := by
  unfold State.autoBurst
  extract_lets -merge -useContext +onlyGivenNames a1
  clear_value a1
  refine Kept.ite_ ?_ ?_
  · extract_lets -merge -useContext +onlyGivenNames a2
    refine Kept.ite_ ?_ ?_
    · apply State.autoWaits_kept
      exact h
    · apply State.moveWptr_kept
      apply State.putChan_kept
      apply State.set_kept
      refine KeptP.fst ?_
      unfold a2
      apply State.takeItems_kept
      exact h
  · extract_lets -merge -useContext +onlyGivenNames a3
    clear_value a3
    refine Kept.ite_ ?_ ?_
    · apply State.autoWaits_kept
      exact h
    · split
      · rename_i a4 x5 a6 e7
        refine Kept.cut (s := s₀) (KeptP.of ?_ e7) fun h8 => ?_
        · apply State.readChan_kept
          exact h
        apply State.autoLands_kept
        exact h8
      · rename_i a9 x10 a11 e12 e13
        refine Kept.cut (s := s₀) (KeptP.of ?_ e13) fun h14 => ?_
        · apply State.readChan_kept
          exact h
        exact h14

theorem execAutoStreamBurst_kept {s₀ s : State} (h : Kept s₀ s) (b : Fin 32) (l : Fin 4) :
    KeptR s₀ (execAutoStreamBurst b l s) := by
  unfold execAutoStreamBurst
  extract_lets -merge -useContext +onlyGivenNames a1
  clear_value a1
  extract_lets -merge -useContext +onlyGivenNames a2
  clear_value a2
  split
  · rename_i a3 a4 e5
    refine KeptR.next ?_
    refine Kept.ite_ ?_ ?_
    · apply State.autoClosed_kept
      exact h
    · exact h
  · rename_i a6 e7
    refine KeptR.ite_ ?_ ?_
    · refine KeptR.next ?_
      exact h
    · extract_lets -merge -useContext +onlyGivenNames a8
      clear_value a8
      split
      · rename_i a9 e10
        refine KeptR.next ?_
        exact h
      · rename_i a11 x12 a13 e14
        refine Kept.cut (s := s₀) (KeptQ.of ?_ e14) fun h15 => ?_
        · apply State.lookup_kept
          exact h
        refine KeptR.ite_ ?_ ?_
        · extract_lets -merge -useContext +onlyGivenNames a16
          clear_value a16
          extract_lets -merge -useContext +onlyGivenNames a17
          have h18 : Kept s₀ a17 := by
            unfold a17
            apply State.setBay_kept
            exact h15
          clear_value a17
          refine KeptR.next ?_
          apply State.streamEnds_kept
          apply State.set_kept
          exact h18
        · refine KeptR.ite_ ?_ ?_
          · refine KeptR.next ?_
            exact h15
          · refine KeptR.next ?_
            apply State.autoBurst_kept
            exact h15

theorem State.endStalled_kept {s₀ s : State} (h : Kept s₀ s) (b l : Nat) :
    Kept s₀ (State.endStalled s b l) := by
  unfold State.endStalled
  split
  · rename_i a1 a2 e3
    apply State.abortStream_kept
    exact h
  · rename_i a4 e5
    apply State.streamEnds_kept
    apply State.setBay_kept
    exact h

theorem execStreamStall_kept {s₀ s : State} (h : Kept s₀ s) (b : Fin 32) (l : Fin 4) :
    KeptR s₀ (execStreamStall b l s) := by
  unfold execStreamStall
  extract_lets -merge -useContext +onlyGivenNames a1
  clear_value a1
  split
  · rename_i a2 e3
    refine KeptR.next ?_
    exact h
  · rename_i a4 a5 e6
    refine KeptR.next ?_
    refine Kept.ite_ ?_ ?_
    · exact h
    · apply State.endStalled_kept
      apply State.waitUntil_kept
      exact h

theorem execSwapGo_kept {s₀ s : State} (h : Kept s₀ s) (b : Fin 32) (v : Word) :
    KeptR s₀ (execSwapGo b v s) := by
  unfold execSwapGo
  refine KeptR.next ?_
  apply State.writeSwap_kept
  exact h

theorem execTenonSwapCancel_kept {s₀ s : State} (h : Kept s₀ s) (b : Fin 32) :
    KeptR s₀ (execTenonSwapCancel b s) := by
  unfold execTenonSwapCancel
  refine KeptR.next ?_
  apply State.failSwap_kept
  exact h

theorem State.copyStore_kept {s₀ s : State} (h : Kept s₀ s) (b p n : Nat) :
    Kept s₀ (State.copyStore s b p n) := by
  unfold State.copyStore
  generalize Tab.getList _ _ _ _ = l
  refine h.same rfl rfl fun q => ⟨?_, q.regs, q.doors, q.wheel, q.causes, q.fwd, q.remote⟩
  have k := q.mem
  simp only [State.wf, Bool.and_eq_true] at k ⊢
  exact ⟨k.1, Tab.wf_putList _ _ _ k.2⟩

theorem execStoreCopyComplete_kept {s₀ s : State} (h : Kept s₀ s) (b : Fin 32) (ue : Bool) :
    KeptR s₀ (execStoreCopyComplete b ue s) := by
  unfold execStoreCopyComplete
  split
  · rename_i a1 e2
    refine KeptR.next ?_
    exact h
  · rename_i a3 a4 e5
    refine KeptR.ite_ ?_ ?_
    · refine KeptR.next ?_
      exact h
    · extract_lets -merge -useContext +onlyGivenNames a6
      have h7 : Kept s₀ a6 := by
        unfold a6
        apply State.waitUntil_kept
        exact h
      clear_value a6
      refine KeptR.ite_ ?_ ?_
      · refine KeptR.next ?_
        apply State.failSwap_kept
        exact h7
      · extract_lets -merge -useContext +onlyGivenNames a8
        have h9 : Kept s₀ a8 := by
          unfold a8
          apply State.copyStore_kept
          exact h7
        clear_value a8
        refine KeptR.next ?_
        apply State.setBay_kept
        exact h9

theorem execTenSpareIn_kept {s₀ s : State} (h : Kept s₀ s) (b : Fin 32) :
    KeptR s₀ (execTenSpareIn b s) := by
  unfold execTenSpareIn
  split
  · rename_i a1 e2
    refine KeptR.next ?_
    exact h
  · rename_i a3 a4 e5
    refine KeptR.next ?_
    refine Kept.ite_ ?_ ?_
    · apply State.swapTenons_kept
      exact h
    · exact h

end Sys2Proof.Machine
end

