-- ==== Sys2Proof/Laws/KeptChain.lean ====
section
/-! SUPPORT. What the operations of `Machine/Chain.lean` keep: the queue, the direction of the clock, sound
stores. -/

namespace Sys2Proof.Machine

theorem State.chnConfig_kept {s₀ s : State} (h : Kept s₀ s) (p : Nat) :
    Kept s₀ (State.chnConfig s p) := by
  unfold State.chnConfig
  apply State.raise_kept
  exact h

theorem State.chainMoved_kept {s₀ s : State} (h : Kept s₀ s) (p : Nat) (e : Entry) (ws : List Word) :
    Kept s₀ (State.chainMoved s p e ws) := by
  unfold State.chainMoved
  extract_lets -merge -useContext +onlyGivenNames a1
  clear_value a1
  extract_lets -merge -useContext +onlyGivenNames a2
  clear_value a2
  extract_lets -merge -useContext +onlyGivenNames a3
  have h4 : Kept s₀ a3 := by
    unfold a3
    apply State.setPort_kept
    exact h
  clear_value a3
  refine Kept.ite_ ?_ ?_
  · apply State.raise_kept
    exact h4
  · exact h4

theorem State.chainLatch_kept {s₀ s : State} (h : Kept s₀ s) (p : Nat) (l : Latch) :
    KeptP s₀ (State.chainLatch s p l) := by
  unfold State.chainLatch
  refine KeptP.ite_ ?_ ?_
  · refine KeptP.mk ?_
    exact h
  · refine KeptP.ite_ ?_ ?_
    · refine KeptP.mk ?_
      apply State.chnConfig_kept
      exact h
    · refine KeptP.ite_ ?_ ?_
      · refine KeptP.mk ?_
        exact h
      · refine KeptP.mk ?_
        apply State.setPort_kept
        exact h

theorem State.dropLatches_kept {s₀ s : State} (h : Kept s₀ s) (p : Nat) :
    Kept s₀ (State.dropLatches s p) := by
  unfold State.dropLatches
  extract_lets -merge -useContext +onlyGivenNames a1
  have h2 : Kept s₀ a1 := by
    unfold a1
    refine Kept.foldl _ _ ?_ ?_
    · exact h
    · intro x3 a4 h5
      apply State.endAct_kept
      exact h5
  clear_value a1
  extract_lets -merge -useContext +onlyGivenNames a6
  have h7 : Kept s₀ a6 := by
    unfold a6
    refine Kept.ite_ ?_ ?_
    · apply State.set_kept
      exact h2
    · exact h2
  clear_value a6
  apply State.setPort_kept
  exact h7

theorem State.chEmit_kept {s₀ s : State} (h : Kept s₀ s) (p : Nat) (o : Out) :
    Kept s₀ (State.chEmit s p o) := by
  unfold State.chEmit
  refine Kept.ite_ ?_ ?_
  · apply State.emit_kept
    exact h
  · exact h

theorem State.showFtime_kept {s₀ s : State} (h : Kept s₀ s) (p : Nat) :
    Kept s₀ (State.showFtime s p) := by
  unfold State.showFtime
  apply State.set_kept
  exact h

theorem State.enablePort_kept {s₀ s : State} (h : Kept s₀ s) (p : Nat) :
    Kept s₀ (State.enablePort s p) := by
  unfold State.enablePort
  extract_lets -merge -useContext +onlyGivenNames a1
  have h2 : Kept s₀ a1 := by
    unfold a1
    apply State.set_kept
    exact h
  clear_value a1
  refine Kept.ite_ ?_ ?_
  · extract_lets -merge -useContext +onlyGivenNames a3
    clear_value a3
    extract_lets -merge -useContext +onlyGivenNames a4
    clear_value a4
    extract_lets -merge -useContext +onlyGivenNames a5
    have h6 : Kept s₀ a5 := by
      unfold a5
      apply State.showFtime_kept
      apply State.set_kept
      apply State.setPort_kept
      exact h2
    clear_value a5
    apply State.settlePads_kept
    apply State.settleChains_kept
    exact h6
  · apply State.chnConfig_kept
    exact h2

theorem State.disablePort_kept {s₀ s : State} (h : Kept s₀ s) (p : Nat) :
    Kept s₀ (State.disablePort s p) := by
  unfold State.disablePort
  extract_lets -merge -useContext +onlyGivenNames a1
  have h2 : Kept s₀ a1 := by
    unfold a1
    apply State.dropLatches_kept
    exact h
  clear_value a1
  extract_lets -merge -useContext +onlyGivenNames a3
  have h4 : Kept s₀ a3 := by
    unfold a3
    split
    · rename_i a5 a6 e7
      apply State.endAct_kept
      exact h2
    · rename_i a8 e9
      exact h2
  clear_value a3
  extract_lets -merge -useContext +onlyGivenNames a10
  clear_value a10
  apply State.settlePads_kept
  apply State.setPort_kept
  apply State.set_kept
  apply State.set_kept
  exact h4

theorem State.kick_kept {s₀ s : State} (h : Kept s₀ s) (p : Nat) :
    Kept s₀ (State.kick s p) := by
  unfold State.kick
  refine Kept.ite_ ?_ ?_
  · apply State.setPort_kept
    exact h
  · exact h

theorem State.writeChpCtl_kept {s₀ s : State} (h : Kept s₀ s) (p : Nat) (v : Word) :
    Kept s₀ (State.writeChpCtl s p v) := by
  unfold State.writeChpCtl
  extract_lets -merge -useContext +onlyGivenNames a1
  have h2 : Kept s₀ a1 := by
    unfold a1
    apply State.set_kept
    exact h
  clear_value a1
  extract_lets -merge -useContext +onlyGivenNames a3
  clear_value a3
  extract_lets -merge -useContext +onlyGivenNames a4
  have h5 : Kept s₀ a4 := by
    unfold a4
    refine Kept.ite_ ?_ ?_
    · refine Kept.ite_ ?_ ?_
      · exact h2
      · apply State.enablePort_kept
        exact h2
    · refine Kept.ite_ ?_ ?_
      · apply State.disablePort_kept
        exact h2
      · exact h2
  clear_value a4
  refine Kept.ite_ ?_ ?_
  · apply State.kick_kept
    exact h5
  · exact h5

theorem State.cutImages_kept {s₀ s : State} (h : Kept s₀ s) (p : Nat) :
    Kept s₀ (State.cutImages s p) := by
  unfold State.cutImages
  extract_lets -merge -useContext +onlyGivenNames a1
  clear_value a1
  extract_lets -merge -useContext +onlyGivenNames a2
  clear_value a2
  apply State.setPort_kept
  exact h

theorem State.writeChpCfg_kept {s₀ s : State} (h : Kept s₀ s) (p : Nat) (v : Word) :
    Kept s₀ (State.writeChpCfg s p v) := by
  unfold State.writeChpCfg
  extract_lets -merge -useContext +onlyGivenNames a1
  clear_value a1
  refine Kept.ite_ ?_ ?_
  · apply State.chnConfig_kept
    exact h
  · apply State.showFtime_kept
    apply State.cutImages_kept
    apply State.set_kept
    apply State.set_kept
    apply State.set_kept
    exact h

theorem State.writeChpTiming_kept {s₀ s : State} (h : Kept s₀ s) (p : Nat) (v : Word) :
    Kept s₀ (State.writeChpTiming s p v) := by
  unfold State.writeChpTiming
  refine Kept.ite_ ?_ ?_
  · apply State.chnConfig_kept
    exact h
  · apply State.showFtime_kept
    apply State.set_kept
    apply State.set_kept
    apply State.set_kept
    exact h

theorem State.startFrame_kept {s₀ s : State} (h : Kept s₀ s) (p : Nat) (latch : Option Latch) (lat : Nat) :
    Kept s₀ (State.startFrame s p latch lat) := by
  unfold State.startFrame
  extract_lets -merge -useContext +onlyGivenNames a1
  clear_value a1
  extract_lets -merge -useContext +onlyGivenNames a2
  clear_value a2
  extract_lets -merge -useContext +onlyGivenNames a3
  clear_value a3
  extract_lets -merge -useContext +onlyGivenNames a4
  clear_value a4
  extract_lets -merge -useContext +onlyGivenNames a5
  clear_value a5
  extract_lets -merge -useContext +onlyGivenNames a6
  clear_value a6
  extract_lets -merge -useContext +onlyGivenNames a7
  clear_value a7
  extract_lets -merge -useContext +onlyGivenNames a8
  have h9 : Kept s₀ a8 := by
    unfold a8
    apply State.setPort_kept
    exact h
  clear_value a8
  extract_lets -merge -useContext +onlyGivenNames a10
  have h11 : Kept s₀ a10 := by
    unfold a10
    apply State.set_kept
    apply State.set_kept
    exact h9
  clear_value a10
  extract_lets -merge -useContext +onlyGivenNames a12
  clear_value a12
  extract_lets -merge -useContext +onlyGivenNames a13
  clear_value a13
  apply State.settleChains_kept
  apply State.chEmit_kept
  exact h11

theorem State.latRises_kept {s₀ s : State} (h : Kept s₀ s) (p : Nat) :
    Kept s₀ (State.latRises s p) := by
  unfold State.latRises
  apply State.settleChains_kept
  apply State.chEmit_kept
  apply State.setPort_kept
  exact h

theorem State.startLatch_kept {s₀ s : State} (h : Kept s₀ s) (p : Nat) (l : Latch) :
    Kept s₀ (State.startLatch s p l) := by
  unfold State.startLatch
  extract_lets -merge -useContext +onlyGivenNames a1
  clear_value a1
  extract_lets -merge -useContext +onlyGivenNames a2
  clear_value a2
  extract_lets -merge -useContext +onlyGivenNames a3
  have h4 : Kept s₀ a3 := by
    unfold a3
    apply State.waitUntil_kept
    exact h
  clear_value a3
  extract_lets -merge -useContext +onlyGivenNames a5
  clear_value a5
  extract_lets -merge -useContext +onlyGivenNames a6
  have h7 : Kept s₀ a6 := by
    unfold a6
    apply State.setPort_kept
    exact h4
  clear_value a6
  apply State.startFrame_kept
  exact h7

theorem State.abortFrame_kept {s₀ s : State} (h : Kept s₀ s) (p : Nat) (l : Latch) :
    Kept s₀ (State.abortFrame s p l) := by
  unfold State.abortFrame
  extract_lets -merge -useContext +onlyGivenNames a1
  have h2 : Kept s₀ a1 := by
    unfold a1
    apply State.waitUntil_kept
    exact h
  clear_value a1
  extract_lets -merge -useContext +onlyGivenNames a3
  have h4 : Kept s₀ a3 := by
    unfold a3
    apply State.set_kept
    apply State.inc_kept
    exact h2
  clear_value a3
  extract_lets -merge -useContext +onlyGivenNames a5
  clear_value a5
  extract_lets -merge -useContext +onlyGivenNames a6
  clear_value a6
  extract_lets -merge -useContext +onlyGivenNames a7
  have h8 : Kept s₀ a7 := by
    unfold a7
    apply State.setPort_kept
    exact h4
  clear_value a7
  refine Kept.ite_ ?_ ?_
  · apply State.latRises_kept
    exact h8
  · exact h8

theorem execFrameStart_kept {s₀ s : State} (h : Kept s₀ s) (p : Fin 64) :
    KeptR s₀ (execFrameStart p s) := by
  unfold execFrameStart
  extract_lets -merge -useContext +onlyGivenNames a1
  clear_value a1
  extract_lets -merge -useContext +onlyGivenNames a2
  have h3 : Kept s₀ a2 := by
    unfold a2
    refine Kept.ite_ ?_ ?_
    · apply State.dropLatches_kept
      exact h
    · exact h
  clear_value a2
  extract_lets -merge -useContext +onlyGivenNames a4
  clear_value a4
  refine KeptR.ite_ ?_ ?_
  · refine KeptR.next ?_
    exact h3
  · split
    · rename_i a5 a6 a7 a8 e9 e10
      refine KeptR.ite_ ?_ ?_
      · extract_lets -merge -useContext +onlyGivenNames a11
        have h12 : Kept s₀ a11 := by
          unfold a11
          apply State.waitUntil_kept
          exact h3
        clear_value a11
        refine KeptR.next ?_
        apply State.startFrame_kept
        exact h12
      · refine KeptR.next ?_
        apply State.startLatch_kept
        exact h3
    · rename_i a13 a14 e15 e16
      refine KeptR.ite_ ?_ ?_
      · extract_lets -merge -useContext +onlyGivenNames a17
        have h18 : Kept s₀ a17 := by
          unfold a17
          apply State.waitUntil_kept
          exact h3
        clear_value a17
        refine KeptR.next ?_
        apply State.startFrame_kept
        exact h18
      · refine KeptR.next ?_
        exact h3
    · rename_i a19 a20 a21 a22 a23 e24 e25
      refine KeptR.ite_ ?_ ?_
      · refine KeptR.next ?_
        apply State.abortFrame_kept
        exact h3
      · refine KeptR.next ?_
        exact h3
    · rename_i a26 a27 a28 e29 e30
      refine KeptR.next ?_
      exact h3

theorem execRefreshDue_kept {s₀ s : State} (h : Kept s₀ s) (p : Fin 64) :
    KeptR s₀ (execRefreshDue p s) := by
  unfold execRefreshDue
  extract_lets -merge -useContext +onlyGivenNames a1
  clear_value a1
  extract_lets -merge -useContext +onlyGivenNames a2
  clear_value a2
  refine KeptR.ite_ ?_ ?_
  · refine KeptR.next ?_
    exact h
  · extract_lets -merge -useContext +onlyGivenNames a3
    have h4 : Kept s₀ a3 := by
      unfold a3
      apply State.waitUntil_kept
      exact h
    clear_value a3
    refine KeptR.next ?_
    apply State.setPort_kept
    exact h4

theorem execFrameEnd_kept {s₀ s : State} (h : Kept s₀ s) (p : Fin 64) :
    KeptR s₀ (execFrameEnd p s) := by
  unfold execFrameEnd
  extract_lets -merge -useContext +onlyGivenNames a1
  clear_value a1
  split
  · rename_i a2 e3
    refine KeptR.next ?_
    exact h
  · rename_i a4 a5 e6
    extract_lets -merge -useContext +onlyGivenNames a7
    have h8 : Kept s₀ a7 := by
      unfold a7
      apply State.waitUntil_kept
      exact h
    clear_value a7
    extract_lets -merge -useContext +onlyGivenNames a9
    clear_value a9
    extract_lets -merge -useContext +onlyGivenNames a10
    clear_value a10
    extract_lets -merge -useContext +onlyGivenNames a11
    clear_value a11
    extract_lets -merge -useContext +onlyGivenNames a12
    have h13 : Kept s₀ a12 := by
      unfold a12
      apply State.setPort_kept
      exact h8
    clear_value a12
    extract_lets -merge -useContext +onlyGivenNames a14
    have h15 : Kept s₀ a14 := by
      unfold a14
      apply State.set_kept
      exact h13
    clear_value a14
    extract_lets -merge -useContext +onlyGivenNames a16
    have h17 : Kept s₀ a16 := by
      unfold a16
      refine Kept.ite_ ?_ ?_
      · apply State.latRises_kept
        exact h15
      · exact h15
    clear_value a16
    extract_lets -merge -useContext +onlyGivenNames a18
    have h19 : Kept s₀ a18 := by
      unfold a18
      refine Kept.ite_ ?_ ?_
      · apply State.raise_kept
        apply State.inc_kept
        exact h17
      · exact h17
    clear_value a18
    refine KeptR.next ?_
    split
    · rename_i a20 a21 e22
      apply State.actEffect_kept
      exact h19
    · rename_i a23 e24
      exact h19

theorem State.chnLevel_kept {s₀ s : State} (h : Kept s₀ s) (k : Kind) (p seqno : Nat) (holds : Bool) :
    Kept s₀ (State.chnLevel s k p seqno holds) := by
  unfold State.chnLevel
  extract_lets mine
  refine Kept.ite_ (Kept.ite_ h (State.raiseLevel_kept h _ _)) ?_
  exact h.same rfl rfl fun w => ⟨w.mem, w.regs, w.doors, w.wheel, w.causes.filter _, w.fwd, w.remote⟩

theorem execReadbackJudgement_kept {s₀ s : State} (h : Kept s₀ s) (p : Fin 64) (status : BitVec 24) (laneBits : Nat) (crc : BitVec 16) :
    KeptR s₀ (execReadbackJudgement p status laneBits crc s) := by
  unfold execReadbackJudgement
  extract_lets -merge -useContext +onlyGivenNames a1
  clear_value a1
  split
  · rename_i a2 e3
    refine KeptR.next ?_
    exact h
  · rename_i a4 a5 e6
    refine KeptR.ite_ ?_ ?_
    · refine KeptR.next ?_
      exact h
    · extract_lets -merge -useContext +onlyGivenNames a7
      have h8 : Kept s₀ a7 := by
        unfold a7
        apply State.waitUntil_kept
        exact h
      clear_value a7
      extract_lets -merge -useContext +onlyGivenNames a9
      clear_value a9
      extract_lets -merge -useContext +onlyGivenNames a10
      clear_value a10
      extract_lets -merge -useContext +onlyGivenNames a11
      clear_value a11
      extract_lets -merge -useContext +onlyGivenNames a12
      clear_value a12
      extract_lets -merge -useContext +onlyGivenNames a13
      have h14 : Kept s₀ a13 := by
        unfold a13
        apply State.set_kept
        exact h8
      clear_value a13
      extract_lets -merge -useContext +onlyGivenNames a15
      clear_value a15
      extract_lets -merge -useContext +onlyGivenNames a16
      clear_value a16
      extract_lets -merge -useContext +onlyGivenNames a17
      have h18 : Kept s₀ a17 := by
        unfold a17
        apply State.setPort_kept
        exact h14
      clear_value a17
      extract_lets -merge -useContext +onlyGivenNames a19
      have h20 : Kept s₀ a19 := by
        unfold a19
        apply State.chnLevel_kept
        exact h18
      clear_value a19
      extract_lets -merge -useContext +onlyGivenNames a21
      have h22 : Kept s₀ a21 := by
        unfold a21
        refine Kept.ite_ ?_ ?_
        · apply State.chnLevel_kept
          apply State.chnLevel_kept
          exact h20
        · exact h20
      clear_value a21
      extract_lets -merge -useContext +onlyGivenNames a23
      split
      · rename_i a24 e25
        refine KeptR.next ?_
        unfold a23
        apply State.setPort_kept
        exact h22
      · rename_i a26 a27 e28
        extract_lets -merge -useContext +onlyGivenNames a29
        clear_value a29
        extract_lets -merge -useContext +onlyGivenNames a30
        clear_value a30
        extract_lets -merge -useContext +onlyGivenNames a31
        clear_value a31
        refine KeptR.ite_ ?_ ?_
        · extract_lets -merge -useContext +onlyGivenNames a32
          have h33 : Kept s₀ a32 := by
            unfold a32
            apply State.set_kept
            exact h22
          clear_value a32
          refine KeptR.next ?_
          unfold a23
          apply State.setPort_kept
          apply State.setPort_kept
          exact h33
        · refine KeptR.ite_ ?_ ?_
          · extract_lets -merge -useContext +onlyGivenNames a34
            have h35 : Kept s₀ a34 := by
              unfold a34
              apply State.inc_kept
              exact h22
            clear_value a34
            refine KeptR.next ?_
            unfold a23
            apply State.setPort_kept
            refine Kept.ite_ ?_ ?_
            · exact h35
            · apply State.raise_kept
              exact h35
          · extract_lets -merge -useContext +onlyGivenNames a36
            have h37 : Kept s₀ a36 := by
              unfold a36
              apply State.raise_kept
              apply State.inc_kept
              exact h22
            clear_value a36
            refine KeptR.next ?_
            unfold a23
            apply State.setPort_kept
            exact h37

theorem execChainEnable_kept {s₀ s : State} (h : Kept s₀ s) (p : Fin 64) (v : Word) :
    KeptR s₀ (execChainEnable p v s) := by
  unfold execChainEnable
  refine KeptR.next ?_
  apply State.writeChpCtl_kept
  exact h

theorem execKick_kept {s₀ s : State} (h : Kept s₀ s) (p : Fin 64) :
    KeptR s₀ (execKick p s) := by
  unfold execKick
  refine KeptR.next ?_
  apply State.kick_kept
  exact h

theorem State.setHead_kept {s₀ s : State} (hk : Kept s₀ s) (h : Nat) (x : Head) :
    Kept s₀ (State.setHead s h x) := by
  unfold State.setHead
  apply Kept.mk_
  exact hk

theorem execHeadFrameDecision_kept {s₀ s : State} (hk : Kept s₀ s) (h : Fin 64) (a b : Option HeadFrame) :
    KeptR s₀ (execHeadFrameDecision h a b s) := by
  unfold execHeadFrameDecision
  split
  · rename_i a1 e2
    refine KeptR.next ?_
    exact hk
  · rename_i a3 a4 e5
    extract_lets -merge -useContext +onlyGivenNames a6
    have h7 : Kept s₀ a6 := by
      unfold a6
      split
      · rename_i a8 a9
        apply State.emit_kept
        exact hk
      · rename_i a10
        exact hk
    clear_value a6
    extract_lets -merge -useContext +onlyGivenNames a11
    have h12 : Kept s₀ a11 := by
      unfold a11
      split
      · rename_i a13 a14
        apply State.emit_kept
        exact h7
      · rename_i a15
        exact h7
    clear_value a11
    extract_lets -merge -useContext +onlyGivenNames a16
    extract_lets -merge -useContext +onlyGivenNames a17
    extract_lets -merge -useContext +onlyGivenNames a18
    refine KeptR.next ?_
    apply State.setHead_kept
    exact h12

theorem execClaimHoldExpiry_kept {s₀ s : State} (hk : Kept s₀ s) (h : Fin 64) :
    KeptR s₀ (execClaimHoldExpiry h s) := by
  unfold execClaimHoldExpiry
  split
  · rename_i a1 e2
    refine KeptR.next ?_
    exact hk
  · rename_i a3 a4 e5
    refine KeptR.next ?_
    refine Kept.ite_ ?_ ?_
    · apply State.setHead_kept
      exact hk
    · exact hk

theorem execSafeTimeout_kept {s₀ s : State} (hk : Kept s₀ s) (h : Fin 64) :
    KeptR s₀ (execSafeTimeout h s) := by
  unfold execSafeTimeout
  split
  · rename_i a1 e2
    refine KeptR.next ?_
    exact hk
  · rename_i a3 a4 e5
    refine KeptR.next ?_
    refine Kept.ite_ ?_ ?_
    · apply State.setHead_kept
      exact hk
    · exact hk

theorem execHeadPowerUp_kept {s₀ s : State} (hk : Kept s₀ s) (h : Fin 64) (size : Nat) :
    KeptR s₀ (execHeadPowerUp h size s) := by
  unfold execHeadPowerUp
  refine KeptR.ite_ ?_ ?_
  · exact KeptR.fault _ _
  · refine KeptR.next ?_
    apply State.setHead_kept
    exact hk

end Sys2Proof.Machine
end

