-- ==== Sys2Proof/Laws/KeptFeeds.lean ====
section
/-! SUPPORT. What the operations of `Machine/Feeds.lean` keep: the queue, the direction of the clock, sound
stores. -/

namespace Sys2Proof.Machine

theorem State.setFeed_kept {s₀ s : State} (h : Kept s₀ s) (f : Nat) (r : Feed) :
    Kept s₀ (State.setFeed s f r) := by
  unfold State.setFeed
  apply Kept.mk_
  exact h

theorem State.showGovernor_kept {s₀ s : State} (h : Kept s₀ s) :
    Kept s₀ (State.showGovernor s) := by
  unfold State.showGovernor
  extract_lets -merge -useContext +onlyGivenNames a1
  have h2 : Kept s₀ a1 := by
    unfold a1
    refine State.each_kept _ _ ?_ ?_
    · exact h
    · intro a3 x4 h5
      extract_lets -merge -useContext +onlyGivenNames a6
      clear_value a6
      apply State.set_kept
      exact h5
  clear_value a1
  refine State.each_kept _ _ ?_ ?_
  · exact h2
  · intro a7 x8 h9
    apply State.set_kept
    apply State.set_kept
    exact h9

theorem State.feedTo_kept {s₀ s : State} (h : Kept s₀ s) (f st : Nat) :
    Kept s₀ (State.feedTo s f st) := by
  unfold State.feedTo
  extract_lets -merge -useContext +onlyGivenNames a1
  have h2 : Kept s₀ a1 := by
    unfold a1
    apply State.set_kept
    exact h
  clear_value a1
  extract_lets -merge -useContext +onlyGivenNames a3
  clear_value a3
  extract_lets -merge -useContext +onlyGivenNames a4
  have h5 : Kept s₀ a4 := by
    unfold a4
    apply Kept.mk_
    exact h2
  clear_value a4
  extract_lets -merge -useContext +onlyGivenNames a6
  clear_value a6
  extract_lets -merge -useContext +onlyGivenNames a7
  have h8 : Kept s₀ a7 := by
    unfold a7
    apply State.setFeed_kept
    exact h5
  clear_value a7
  extract_lets -merge -useContext +onlyGivenNames a9
  have h10 : Kept s₀ a9 := by
    unfold a9
    refine Kept.ite_ ?_ ?_
    · exact h8
    · apply State.endLevel_kept
      exact h8
  clear_value a9
  apply State.showGovernor_kept
  exact h10

theorem State.feedConfig_kept {s₀ s : State} (h : Kept s₀ s) (f : Nat) :
    Kept s₀ (State.feedConfig s f) := by
  unfold State.feedConfig
  apply State.raise_kept
  exact h

theorem State.feedStart_kept {s₀ s : State} (h : Kept s₀ s) (f : Nat) :
    Kept s₀ (State.feedStart s f) := by
  unfold State.feedStart
  extract_lets -merge -useContext +onlyGivenNames a1
  clear_value a1
  refine Kept.ite_ ?_ ?_
  · exact h
  · extract_lets -merge -useContext +onlyGivenNames a2
    have h3 : Kept s₀ a2 := by
      unfold a2
      refine Kept.ite_ ?_ ?_
      · apply State.set_kept
        exact h
      · exact h
    clear_value a2
    refine Kept.ite_ ?_ ?_
    · apply State.feedConfig_kept
      exact h3
    · apply State.feedTo_kept
      exact h3

theorem State.feedStop_kept {s₀ s : State} (h : Kept s₀ s) (f cause : Nat) :
    Kept s₀ (State.feedStop s f cause) := by
  unfold State.feedStop
  apply State.set_kept
  apply State.feedTo_kept
  exact h

theorem State.writeFeedCtl_kept {s₀ s : State} (h : Kept s₀ s) (f : Nat) (v : Word) :
    Kept s₀ (State.writeFeedCtl s f v) := by
  unfold State.writeFeedCtl
  extract_lets -merge -useContext +onlyGivenNames a1
  have h2 : Kept s₀ a1 := by
    unfold a1
    apply State.set_kept
    apply State.set_kept
    exact h
  clear_value a1
  extract_lets -merge -useContext +onlyGivenNames a3
  clear_value a3
  extract_lets -merge -useContext +onlyGivenNames a4
  have h5 : Kept s₀ a4 := by
    unfold a4
    refine Kept.ite_ ?_ ?_
    · apply State.setFeed_kept
      exact h2
    · exact h2
  clear_value a4
  extract_lets -merge -useContext +onlyGivenNames a6
  have h7 : Kept s₀ a6 := by
    unfold a6
    refine Kept.ite_ ?_ ?_
    · apply State.set_kept
      apply State.set_kept
      exact h5
    · exact h5
  clear_value a6
  refine Kept.ite_ ?_ ?_
  · apply State.feedStop_kept
    exact h7
  · refine Kept.ite_ ?_ ?_
    · apply State.feedStart_kept
      exact h7
    · apply State.showGovernor_kept
      exact h7

theorem execFeedOn_kept {s₀ s : State} (h : Kept s₀ s) (f : Fin 32) :
    KeptR s₀ (execFeedOn f s) := by
  unfold execFeedOn
  refine KeptR.next ?_
  apply State.writeFeedCtl_kept
  exact h

theorem execFeedOff_kept {s₀ s : State} (h : Kept s₀ s) (f : Fin 32) :
    KeptR s₀ (execFeedOff f s) := by
  unfold execFeedOff
  refine KeptR.next ?_
  apply State.writeFeedCtl_kept
  exact h

theorem execDsync_kept {s₀ s : State} (h : Kept s₀ s) (f : Fin 32) :
    KeptR s₀ (execDsync f s) := by
  unfold execDsync
  refine KeptR.next ?_
  apply State.writeFeedCtl_kept
  exact h

theorem execClrmax_kept {s₀ s : State} (h : Kept s₀ s) (f : Fin 32) :
    KeptR s₀ (execClrmax f s) := by
  unfold execClrmax
  refine KeptR.next ?_
  apply State.writeFeedCtl_kept
  exact h

theorem execFeedAdmission_kept {s₀ s : State} (h : Kept s₀ s) (g : Fin 4) :
    KeptR s₀ (execFeedAdmission g s) := by
  unfold execFeedAdmission
  split
  · rename_i a1 e2
    refine KeptR.next ?_
    exact h
  · rename_i a3 a4 a5 e6
    refine KeptR.ite_ ?_ ?_
    · refine KeptR.next ?_
      exact h
    · refine KeptR.next ?_
      apply State.feedTo_kept
      exact h

theorem State.feedVolt_kept {s₀ s : State} (h : Kept s₀ s) (f vcode : Nat) :
    Kept s₀ (State.feedVolt s f vcode) := by
  unfold State.feedVolt
  apply State.set_kept
  apply State.setFeed_kept
  exact h

theorem execPrechargeDone_kept {s₀ s : State} (h : Kept s₀ s) (f : Fin 32) (vcode : BitVec 12) :
    KeptR s₀ (execPrechargeDone f vcode s) := by
  unfold execPrechargeDone
  extract_lets -merge -useContext +onlyGivenNames a1
  clear_value a1
  refine KeptR.ite_ ?_ ?_
  · refine KeptR.next ?_
    exact h
  · extract_lets -merge -useContext +onlyGivenNames a2
    have h3 : Kept s₀ a2 := by
      unfold a2
      apply State.feedVolt_kept
      exact h
    clear_value a2
    refine KeptR.ite_ ?_ ?_
    · extract_lets -merge -useContext +onlyGivenNames a4
      have h5 : Kept s₀ a4 := by
        unfold a4
        apply State.feedTo_kept
        exact h3
      clear_value a4
      refine KeptR.next ?_
      apply State.setFeed_kept
      exact h5
    · refine KeptR.next ?_
      exact h3

theorem State.startFails_kept {s₀ s : State} (h : Kept s₀ s) (f cause : Nat) (k : Kind) :
    Kept s₀ (State.startFails s f cause k) := by
  unfold State.startFails
  apply State.raise_kept
  apply State.inc_kept
  apply State.set_kept
  apply State.feedTo_kept
  exact h

theorem execPrechargeFail_kept {s₀ s : State} (h : Kept s₀ s) (f : Fin 32) :
    KeptR s₀ (execPrechargeFail f s) := by
  unfold execPrechargeFail
  extract_lets -merge -useContext +onlyGivenNames a1
  clear_value a1
  refine KeptR.ite_ ?_ ?_
  · refine KeptR.next ?_
    exact h
  · extract_lets -merge -useContext +onlyGivenNames a2
    have h3 : Kept s₀ a2 := by
      unfold a2
      apply State.waitUntil_kept
      exact h
    clear_value a2
    refine KeptR.next ?_
    apply State.startFails_kept
    exact h3

theorem execFeedUp_kept {s₀ s : State} (h : Kept s₀ s) (f : Fin 32) :
    KeptR s₀ (execFeedUp f s) := by
  unfold execFeedUp
  refine KeptR.ite_ ?_ ?_
  · refine KeptR.next ?_
    exact h
  · refine KeptR.next ?_
    apply State.raise_kept
    apply State.feedTo_kept
    exact h

theorem execGateFail_kept {s₀ s : State} (h : Kept s₀ s) (f : Fin 32) :
    KeptR s₀ (execGateFail f s) := by
  unfold execGateFail
  extract_lets -merge -useContext +onlyGivenNames a1
  clear_value a1
  refine KeptR.ite_ ?_ ?_
  · refine KeptR.next ?_
    exact h
  · extract_lets -merge -useContext +onlyGivenNames a2
    have h3 : Kept s₀ a2 := by
      unfold a2
      apply State.waitUntil_kept
      exact h
    clear_value a2
    refine KeptR.next ?_
    apply State.startFails_kept
    exact h3

theorem State.tripFeed_kept {s₀ s : State} (h : Kept s₀ s) (f cause : Nat) (k : Kind) (cnt : Field) :
    Kept s₀ (State.tripFeed s f cause k cnt) := by
  unfold State.tripFeed
  extract_lets -merge -useContext +onlyGivenNames a1
  have h2 : Kept s₀ a1 := by
    unfold a1
    apply State.raise_kept
    apply State.set_kept
    apply State.inc_kept
    exact h
  clear_value a1
  extract_lets -merge -useContext +onlyGivenNames a3
  clear_value a3
  refine Kept.ite_ ?_ ?_
  · extract_lets -merge -useContext +onlyGivenNames a4
    have h5 : Kept s₀ a4 := by
      unfold a4
      apply State.set_kept
      apply State.feedTo_kept
      exact h2
    clear_value a4
    apply State.setFeed_kept
    exact h5
  · apply State.raiseLevel_kept
    apply State.feedTo_kept
    exact h2

theorem execGateLost_kept {s₀ s : State} (h : Kept s₀ s) (f : Fin 32) :
    KeptR s₀ (execGateLost f s) := by
  unfold execGateLost
  refine KeptR.next ?_
  refine Kept.ite_ ?_ ?_
  · apply State.tripFeed_kept
    exact h
  · exact h

theorem execFeedShort_kept {s₀ s : State} (h : Kept s₀ s) (f : Fin 32) (icode : BitVec 12) :
    KeptR s₀ (execFeedShort f icode s) := by
  unfold execFeedShort
  extract_lets -merge -useContext +onlyGivenNames a1
  clear_value a1
  refine KeptR.next ?_
  refine Kept.ite_ ?_ ?_
  · apply State.tripFeed_kept
    exact h
  · exact h

theorem execCurrentSample_kept {s₀ s : State} (h : Kept s₀ s) (f : Fin 32) (icode vcode : BitVec 12) :
    KeptR s₀ (execCurrentSample f icode vcode s) := by
  unfold execCurrentSample
  extract_lets -merge -useContext +onlyGivenNames a1
  clear_value a1
  extract_lets -merge -useContext +onlyGivenNames a2
  have h3 : Kept s₀ a2 := by
    unfold a2
    apply State.feedVolt_kept
    exact h
  clear_value a2
  extract_lets -merge -useContext +onlyGivenNames a4
  clear_value a4
  extract_lets -merge -useContext +onlyGivenNames a5
  have h6 : Kept s₀ a5 := by
    unfold a5
    apply State.set_kept
    exact h3
  clear_value a5
  extract_lets -merge -useContext +onlyGivenNames a7
  clear_value a7
  extract_lets -merge -useContext +onlyGivenNames a8
  clear_value a8
  extract_lets -merge -useContext +onlyGivenNames a9
  clear_value a9
  extract_lets -merge -useContext +onlyGivenNames a10
  have h11 : Kept s₀ a10 := by
    unfold a10
    apply State.setFeed_kept
    exact h6
  clear_value a10
  refine KeptR.next ?_
  refine Kept.ite_ ?_ ?_
  · apply State.tripFeed_kept
    exact h11
  · exact h11

theorem execBackoffEnd_kept {s₀ s : State} (h : Kept s₀ s) (f : Fin 32) :
    KeptR s₀ (execBackoffEnd f s) := by
  unfold execBackoffEnd
  refine KeptR.ite_ ?_ ?_
  · refine KeptR.next ?_
    exact h
  · refine KeptR.next ?_
    apply State.feedTo_kept
    apply State.waitUntil_kept
    exact h

theorem execRetryReset_kept {s₀ s : State} (h : Kept s₀ s) (f : Fin 32) :
    KeptR s₀ (execRetryReset f s) := by
  unfold execRetryReset
  refine KeptR.ite_ ?_ ?_
  · refine KeptR.next ?_
    exact h
  · refine KeptR.next ?_
    apply State.set_kept
    apply State.waitUntil_kept
    exact h

theorem State.requestTariff_kept {s₀ s : State} (h : Kept s₀ s) (f t : Nat) :
    Kept s₀ (State.requestTariff s f t) := by
  unfold State.requestTariff
  apply State.setFeed_kept
  exact h

theorem execTariffRequest_kept {s₀ s : State} (h : Kept s₀ s) (f : Fin 32) (v : Word) :
    KeptR s₀ (execTariffRequest f v s) := by
  unfold execTariffRequest
  refine KeptR.next ?_
  apply State.requestTariff_kept
  exact h

theorem State.writeFeedDemand_kept {s₀ s : State} (h : Kept s₀ s) (f : Nat) (v : Word) :
    Kept s₀ (State.writeFeedDemand s f v) := by
  unfold State.writeFeedDemand
  extract_lets -merge -useContext +onlyGivenNames a1
  clear_value a1
  refine Kept.ite_ ?_ ?_
  · exact h
  · apply State.setFeed_kept
    apply State.set_kept
    exact h

theorem State.creditPeriod_kept {s₀ s : State} (h : Kept s₀ s) (f ticks : Nat) :
    Kept s₀ (State.creditPeriod s f ticks) := by
  unfold State.creditPeriod
  extract_lets -merge -useContext +onlyGivenNames a1
  clear_value a1
  extract_lets -merge -useContext +onlyGivenNames a2
  clear_value a2
  extract_lets -merge -useContext +onlyGivenNames a3
  clear_value a3
  extract_lets -merge -useContext +onlyGivenNames a4
  have h5 : Kept s₀ a4 := by
    unfold a4
    apply State.set_kept
    exact h
  clear_value a4
  extract_lets -merge -useContext +onlyGivenNames a6
  have h7 : Kept s₀ a6 := by
    unfold a6
    apply State.set_kept
    exact h5
  clear_value a6
  extract_lets -merge -useContext +onlyGivenNames a8
  have h9 : Kept s₀ a8 := by
    unfold a8
    refine Kept.ite_ ?_ ?_
    · exact h7
    · apply State.set_kept
      exact h7
  clear_value a8
  apply State.setFeed_kept
  exact h9

theorem State.closeInterval_kept {s₀ s : State} (h : Kept s₀ s) (f : Nat) (partial_ : Bool) (ms : Nat) :
    Kept s₀ (State.closeInterval s f partial_ ms) := by
  unfold State.closeInterval
  extract_lets -merge -useContext +onlyGivenNames a1
  clear_value a1
  extract_lets -merge -useContext +onlyGivenNames a2
  have h3 : Kept s₀ a2 := by
    unfold a2
    apply State.set_kept
    apply State.set_kept
    apply State.setB_kept
    exact h
  clear_value a2
  extract_lets -merge -useContext +onlyGivenNames a4
  clear_value a4
  extract_lets -merge -useContext +onlyGivenNames a5
  have h6 : Kept s₀ a5 := by
    unfold a5
    refine Kept.ite_ ?_ ?_
    · apply State.set_kept
      apply State.set_kept
      exact h3
    · exact h3
  clear_value a5
  apply State.setFeed_kept
  apply State.set_kept
  exact h6

theorem State.switchTariff_kept {s₀ s : State} (h : Kept s₀ s) (f : Nat) :
    Kept s₀ (State.switchTariff s f) := by
  unfold State.switchTariff
  split
  · rename_i a1 e2
    exact h
  · rename_i a3 a4 e5
    apply State.setFeed_kept
    apply State.set_kept
    exact h

theorem State.endPeriod_kept {s₀ s : State} (h : Kept s₀ s) (f : Nat) :
    Kept s₀ (State.endPeriod s f) := by
  unfold State.endPeriod
  extract_lets -merge -useContext +onlyGivenNames a1
  have h2 : Kept s₀ a1 := by
    unfold a1
    apply State.creditPeriod_kept
    exact h
  clear_value a1
  extract_lets -merge -useContext +onlyGivenNames a3
  clear_value a3
  extract_lets -merge -useContext +onlyGivenNames a4
  clear_value a4
  extract_lets -merge -useContext +onlyGivenNames a5
  have h6 : Kept s₀ a5 := by
    unfold a5
    refine Kept.ite_ ?_ ?_
    · apply State.closeInterval_kept
      exact h2
    · refine Kept.ite_ ?_ ?_
      · apply State.closeInterval_kept
        exact h2
      · apply State.set_kept
        exact h2
  clear_value a5
  extract_lets -merge -useContext +onlyGivenNames a7
  have h8 : Kept s₀ a7 := by
    unfold a7
    apply State.switchTariff_kept
    exact h6
  clear_value a7
  apply State.writeLive_kept
  exact h8

theorem execPeriodEnd_kept {s₀ s : State} (h : Kept s₀ s) :
    KeptR s₀ (execPeriodEnd s) := by
  unfold execPeriodEnd
  extract_lets -merge -useContext +onlyGivenNames a1
  have h2 : Kept s₀ a1 := by
    unfold a1
    apply State.waitUntil_kept
    exact h
  clear_value a1
  extract_lets -merge -useContext +onlyGivenNames a3
  clear_value a3
  extract_lets -merge -useContext +onlyGivenNames a4
  have h5 : Kept s₀ a4 := by
    unfold a4
    apply Kept.mk_
    exact h2
  clear_value a4
  refine KeptR.next ?_
  refine State.each_kept _ _ ?_ ?_
  · exact h5
  · intro a6 x7 h8
    apply State.endPeriod_kept
    exact h8

theorem State.storeRecord_kept {s₀ s : State} (h : Kept s₀ s) (r : Retention) :
    Kept s₀ (State.storeRecord s r) := by
  unfold State.storeRecord
  extract_lets -merge -useContext +onlyGivenNames a1
  clear_value a1
  extract_lets -merge -useContext +onlyGivenNames a2
  clear_value a2
  apply State.set_kept
  apply Kept.mk_
  exact h

theorem State.nvFails_kept {s₀ s : State} (h : Kept s₀ s) (port : Nat) :
    Kept s₀ (State.nvFails s port) := by
  unfold State.nvFails
  extract_lets -merge -useContext +onlyGivenNames a1
  have h2 : Kept s₀ a1 := by
    unfold a1
    apply State.setBit_kept
    exact h
  clear_value a1
  refine Kept.ite_ ?_ ?_
  · apply State.raise_kept
    exact h2
  · refine Kept.ite_ ?_ ?_
    · apply State.raise_kept
      apply State.set_kept
      exact h2
    · apply State.raise_kept
      exact h2

theorem State.settleFeed_kept {s₀ s : State} (h : Kept s₀ s) (f : Nat) :
    Kept s₀ (State.settleFeed s f) := by
  unfold State.settleFeed
  extract_lets -merge -useContext +onlyGivenNames a1
  have h2 : Kept s₀ a1 := by
    unfold a1
    apply State.creditPeriod_kept
    exact h
  clear_value a1
  extract_lets -merge -useContext +onlyGivenNames a3
  clear_value a3
  extract_lets -merge -useContext +onlyGivenNames a4
  have h5 : Kept s₀ a4 := by
    unfold a4
    refine Kept.ite_ ?_ ?_
    · apply State.closeInterval_kept
      exact h2
    · refine Kept.ite_ ?_ ?_
      · apply State.closeInterval_kept
        exact h2
      · exact h2
  clear_value a4
  extract_lets -merge -useContext +onlyGivenNames a6
  clear_value a6
  extract_lets -merge -useContext +onlyGivenNames a7
  have h8 : Kept s₀ a7 := by
    unfold a7
    apply State.switchTariff_kept
    exact h5
  clear_value a7
  extract_lets -merge -useContext +onlyGivenNames a9
  have h10 : Kept s₀ a9 := by
    unfold a9
    apply State.setB_kept
    apply State.setB_kept
    apply State.set_kept
    exact h8
  clear_value a9
  apply State.set_kept
  apply State.setB_kept
  exact h10

theorem execSupplyWarn_kept {s₀ s : State} (h : Kept s₀ s) (i : Fin 7) :
    KeptR s₀ (execSupplyWarn i s) := by
  unfold execSupplyWarn
  extract_lets -merge -useContext +onlyGivenNames a1
  clear_value a1
  refine KeptR.ite_ ?_ ?_
  · refine KeptR.next ?_
    exact h
  · extract_lets -merge -useContext +onlyGivenNames a2
    clear_value a2
    extract_lets -merge -useContext +onlyGivenNames a3
    have h4 : Kept s₀ a3 := by
      unfold a3
      apply State.raiseLevel_kept
      apply State.setBit_kept
      apply State.setBit_kept
      exact h
    clear_value a3
    extract_lets -merge -useContext +onlyGivenNames a5
    clear_value a5
    extract_lets -merge -useContext +onlyGivenNames a6
    have h7 : Kept s₀ a6 := by
      unfold a6
      apply Kept.mk_
      exact h4
    clear_value a6
    refine KeptR.ite_ ?_ ?_
    · refine KeptR.next ?_
      exact h7
    · extract_lets -merge -useContext +onlyGivenNames a8
      have h9 : Kept s₀ a8 := by
        unfold a8
        refine State.each_kept _ _ ?_ ?_
        · exact h7
        · intro a10 x11 h12
          apply State.settleFeed_kept
          exact h12
      clear_value a8
      extract_lets -merge -useContext +onlyGivenNames a13
      clear_value a13
      extract_lets -merge -useContext +onlyGivenNames a14
      clear_value a14
      extract_lets -merge -useContext +onlyGivenNames a15
      have h16 : Kept s₀ a15 := by
        unfold a15
        apply Kept.mk_
        exact h9
      clear_value a15
      refine KeptR.next ?_
      apply State.set_kept
      exact h16

theorem State.writeFails_kept {s₀ s : State} (h : Kept s₀ s) :
    Kept s₀ (State.writeFails s) := by
  unfold State.writeFails
  apply State.raise_kept
  apply State.set_kept
  apply Kept.mk_
  exact h

theorem execLastgaspDone_kept {s₀ s : State} (h : Kept s₀ s) :
    KeptR s₀ (execLastgaspDone s) := by
  unfold execLastgaspDone
  split
  · rename_i a1 e2
    refine KeptR.next ?_
    exact h
  · rename_i a3 a4 a5 e6
    refine KeptR.ite_ ?_ ?_
    · refine KeptR.next ?_
      apply State.writeFails_kept
      exact h
    · extract_lets -merge -useContext +onlyGivenNames a7
      have h8 : Kept s₀ a7 := by
        unfold a7
        apply State.storeRecord_kept
        exact h
      clear_value a7
      extract_lets -merge -useContext +onlyGivenNames a9
      clear_value a9
      extract_lets -merge -useContext +onlyGivenNames a10
      have h11 : Kept s₀ a10 := by
        unfold a10
        apply Kept.mk_
        exact h8
      clear_value a10
      refine KeptR.next ?_
      apply State.raise_kept
      apply State.set_kept
      apply State.set_kept
      exact h11

theorem execLastgaspFail_kept {s₀ s : State} (h : Kept s₀ s) (refused : Bool) :
    KeptR s₀ (execLastgaspFail refused s) := by
  unfold execLastgaspFail
  split
  · rename_i a1 e2
    refine KeptR.next ?_
    exact h
  · rename_i a3 a4 a5 e6
    extract_lets -merge -useContext +onlyGivenNames a7
    have h8 : Kept s₀ a7 := by
      unfold a7
      refine Kept.ite_ ?_ ?_
      · apply State.nvFails_kept
        exact h
      · apply State.waitUntil_kept
        exact h
    clear_value a7
    refine KeptR.next ?_
    apply State.writeFails_kept
    exact h8

theorem execSupplyInputRecovery_kept {s₀ s : State} (h : Kept s₀ s) (i : Fin 39) :
    KeptR s₀ (execSupplyInputRecovery i s) := by
  unfold execSupplyInputRecovery
  refine KeptR.next ?_
  refine Kept.ite_ ?_ ?_
  · apply State.endLevel_kept
    apply State.setBit_kept
    exact h
  · apply State.endLevel_kept
    apply State.setBit_kept
    exact h

theorem execSupplyOk_kept {s₀ s : State} (h : Kept s₀ s) :
    KeptR s₀ (execSupplyOk s) := by
  unfold execSupplyOk
  refine KeptR.ite_ ?_ ?_
  · extract_lets -merge -useContext +onlyGivenNames a1
    have h2 : Kept s₀ a1 := by
      unfold a1
      refine State.each_kept _ _ ?_ ?_
      · exact h
      · intro a3 x4 h5
        apply State.endLevel_kept
        apply State.setBit_kept
        exact h5
    clear_value a1
    refine KeptR.next ?_
    apply State.raise_kept
    apply Kept.mk_
    exact h2
  · refine KeptR.next ?_
    exact h

theorem execBankWarn_kept {s₀ s : State} (h : Kept s₀ s) (b : Fin 32) :
    KeptR s₀ (execBankWarn b s) := by
  unfold execBankWarn
  refine KeptR.next ?_
  refine Kept.ite_ ?_ ?_
  · exact h
  · apply State.raiseLevel_kept
    apply State.setBit_kept
    exact h

theorem execCheckpoint_kept {s₀ s : State} (h : Kept s₀ s) :
    KeptR s₀ (execCheckpoint s) := by
  unfold execCheckpoint
  refine KeptR.ite_ ?_ ?_
  · refine KeptR.next ?_
    exact h
  · extract_lets -merge -useContext +onlyGivenNames a1
    have h2 : Kept s₀ a1 := by
      unfold a1
      apply State.waitUntil_kept
      exact h
    clear_value a1
    extract_lets -merge -useContext +onlyGivenNames a3
    clear_value a3
    extract_lets -merge -useContext +onlyGivenNames a4
    have h5 : Kept s₀ a4 := by
      unfold a4
      apply Kept.mk_
      exact h2
    clear_value a4
    refine KeptR.next ?_
    apply State.storeRecord_kept
    exact h5

theorem State.writeSupCtl_kept {s₀ s : State} (h : Kept s₀ s) (v : Word) :
    Kept s₀ (State.writeSupCtl s v) := by
  unfold State.writeSupCtl
  extract_lets -merge -useContext +onlyGivenNames a1
  clear_value a1
  extract_lets -merge -useContext +onlyGivenNames a2
  clear_value a2
  refine Kept.ite_ ?_ ?_
  · apply State.raise_kept
    exact h
  · extract_lets -merge -useContext +onlyGivenNames a3
    have h4 : Kept s₀ a3 := by
      unfold a3
      apply State.set_kept
      apply State.set_kept
      apply State.set_kept
      exact h
    clear_value a3
    refine Kept.ite_ ?_ ?_
    · exact h4
    · apply State.endLevel_kept
      apply State.setBit_kept
      exact h4

theorem State.writeSupmon_kept {s₀ s : State} (h : Kept s₀ s) (v : Word) :
    Kept s₀ (State.writeSupmon s v) := by
  unfold State.writeSupmon
  refine Kept.ite_ ?_ ?_
  · apply State.raise_kept
    exact h
  · apply State.set_kept
    apply State.set_kept
    exact h

theorem State.feedsHold_kept {s₀ s : State} (h : Kept s₀ s) :
    Kept s₀ (State.feedsHold s) := by
  unfold State.feedsHold
  refine State.each_kept _ _ ?_ ?_
  · exact h
  · intro a1 x2 h3
    refine Kept.ite_ ?_ ?_
    · apply State.feedStop_kept
      exact h3
    · exact h3

end Sys2Proof.Machine
end

