-- ==== Sys2Proof/Laws/KeptMbus.lean ====
section
/-! SUPPORT. What the operations of `Machine/Mbus.lean` keep: the queue, the direction of the clock, sound
stores. -/

namespace Sys2Proof.Machine

theorem State.setMbus_kept {s₀ s : State} (h : Kept s₀ s) (c : Nat) (r : Mb) :
    Kept s₀ (State.setMbus s c r) := by
  unfold State.setMbus
  apply Kept.mk_
  exact h

theorem State.setMbObj_kept {s₀ s : State} (h : Kept s₀ s) (c o : Nat) (x : MbObj) :
    Kept s₀ (State.setMbObj s c o x) := by
  unfold State.setMbObj
  apply State.setMbus_kept
  exact h

theorem State.setMbBuf_kept {s₀ s : State} (h : Kept s₀ s) (c b : Nat) (x : MbBuf) :
    Kept s₀ (State.setMbBuf s c b x) := by
  unfold State.setMbBuf
  apply State.setMbus_kept
  exact h

theorem State.mbAck_kept {s₀ s : State} (h : Kept s₀ s) (c : Nat) :
    Kept s₀ (State.mbAck s c) := by
  unfold State.mbAck
  refine Kept.ite_ ?_ ?_
  · apply State.emit_kept
    exact h
  · exact h

theorem State.errorFrame_kept {s₀ s : State} (h : Kept s₀ s) (c : Nat) :
    Kept s₀ (State.errorFrame s c) := by
  unfold State.errorFrame
  refine Kept.ite_ ?_ ?_
  · apply State.emit_kept
    exact h
  · exact h

theorem State.mbConfig_kept {s₀ s : State} (h : Kept s₀ s) (c : Nat) :
    Kept s₀ (State.mbConfig s c) := by
  unfold State.mbConfig
  apply State.raise_kept
  exact h

theorem State.writeMbCtl_kept {s₀ s : State} (h : Kept s₀ s) (c : Nat) (v : Word) :
    Kept s₀ (State.writeMbCtl s c v) := by
  unfold State.writeMbCtl
  refine Kept.ite_ ?_ ?_
  · exact h
  · extract_lets -merge -useContext +onlyGivenNames a1
    clear_value a1
    extract_lets -merge -useContext +onlyGivenNames a2
    have h3 : Kept s₀ a2 := by
      unfold a2
      apply State.set_kept
      exact h
    clear_value a2
    extract_lets -merge -useContext +onlyGivenNames a4
    clear_value a4
    refine Kept.ite_ ?_ ?_
    · apply State.mbConfig_kept
      exact h3
    · apply State.setMbus_kept
      exact h3

theorem execMbModeWrite_kept {s₀ s : State} (h : Kept s₀ s) (c : Fin 16) (v : Word) :
    KeptR s₀ (execMbModeWrite c v s) := by
  unfold execMbModeWrite
  refine KeptR.next ?_
  apply State.writeMbCtl_kept
  exact h

theorem State.setErrState_kept {s₀ s : State} (h : Kept s₀ s) (c st : Nat) :
    Kept s₀ (State.setErrState s c st) := by
  unfold State.setErrState
  extract_lets -merge -useContext +onlyGivenNames a1
  have h2 : Kept s₀ a1 := by
    unfold a1
    apply State.set_kept
    exact h
  clear_value a1
  apply State.level_kept
  apply State.level_kept
  exact h2

theorem State.mbOffer_kept {s₀ s : State} (h : Kept s₀ s) (c : Nat) :
    Kept s₀ (State.mbOffer s c) := by
  unfold State.mbOffer
  refine Kept.ite_ ?_ ?_
  · exact h
  · split
    · rename_i a1 e2
      exact h
    · rename_i a3 a4 e5
      extract_lets -merge -useContext +onlyGivenNames a6
      clear_value a6
      extract_lets -merge -useContext +onlyGivenNames a7
      clear_value a7
      apply State.emit_kept
      apply State.setMbus_kept
      exact h

theorem State.resultAt_kept {s₀ s : State} (h : Kept s₀ s) (c b ch result gen ticks : Nat) :
    Kept s₀ (State.resultAt s c b ch result gen ticks) := by
  unfold State.resultAt
  split
  · rename_i a1 e2
    apply State.block_kept
    exact h
  · rename_i a3 x4 a5 e6
    refine Kept.cut (s := s₀) (KeptQ.of ?_ e6) fun h7 => ?_
    · apply State.lookup_kept
      exact h
    refine Kept.ite_ ?_ ?_
    · apply State.putChan_kept
      exact h7
    · exact h7

theorem State.endRequest_kept {s₀ s : State} (h : Kept s₀ s) (c b result : Nat) (chan : Option Nat) (gen ticks : Nat) :
    Kept s₀ (State.endRequest s c b result chan gen ticks) := by
  unfold State.endRequest
  extract_lets -merge -useContext +onlyGivenNames a1
  have h2 : Kept s₀ a1 := by
    unfold a1
    apply State.setBit_kept
    exact h
  clear_value a1
  extract_lets -merge -useContext +onlyGivenNames a3
  clear_value a3
  extract_lets -merge -useContext +onlyGivenNames a4
  have h5 : Kept s₀ a4 := by
    unfold a4
    apply State.setMbBuf_kept
    exact h2
  clear_value a4
  split
  · rename_i a6
    exact h5
  · rename_i a7 a8
    apply State.resultAt_kept
    exact h5

theorem State.endWaiting_kept {s₀ s : State} (h : Kept s₀ s) (c b : Nat) :
    Kept s₀ (State.endWaiting s c b) := by
  unfold State.endWaiting
  apply State.endRequest_kept
  exact h

theorem State.endOnBus_kept {s₀ s : State} (h : Kept s₀ s) (c b result : Nat) (x : MbSend) :
    Kept s₀ (State.endOnBus s c b result x) := by
  unfold State.endOnBus
  refine Kept.ite_ ?_ ?_
  · apply State.endRequest_kept
    exact h
  · apply State.endRequest_kept
    exact h

theorem State.requestTx_kept {s₀ s : State} (h : Kept s₀ s) (c b : Nat) :
    Kept s₀ (State.requestTx s c b) := by
  unfold State.requestTx
  refine Kept.ite_ ?_ ?_
  · apply State.endWaiting_kept
    exact h
  · extract_lets -merge -useContext +onlyGivenNames a1
    have h2 : Kept s₀ a1 := by
      unfold a1
      apply State.setBit_kept
      exact h
    clear_value a1
    apply State.setMbBuf_kept
    exact h2

theorem State.loadBuffer_kept {s₀ s : State} (h : Kept s₀ s) (c b ch : Nat) (ws : List Word) :
    Kept s₀ (State.loadBuffer s c b ch ws) := by
  unfold State.loadBuffer
  extract_lets -merge -useContext +onlyGivenNames a1
  clear_value a1
  extract_lets -merge -useContext +onlyGivenNames a2
  clear_value a2
  extract_lets -merge -useContext +onlyGivenNames a3
  clear_value a3
  refine Kept.ite_ ?_ ?_
  · apply State.raise_kept
    apply State.resultAt_kept
    exact h
  · apply State.mbOffer_kept
    apply State.requestTx_kept
    apply State.setMbBuf_kept
    exact h

theorem State.eachBuf_kept {s₀ s : State} (h : Kept s₀ s) (mask : Nat) (f : Nat → State → State)
    (hf : ∀ b x, Kept s₀ x → Kept s₀ (f b x)) : Kept s₀ (State.eachBuf s mask f) := by
  unfold State.eachBuf
  refine State.each_kept _ _ h fun b x hx => ?_
  split
  · exact hf b x hx
  · exact hx

theorem State.cancelTx_kept {s₀ s : State} (h : Kept s₀ s) (c b : Nat) :
    Kept s₀ (State.cancelTx s c b) := by
  unfold State.cancelTx
  refine Kept.ite_ ?_ ?_
  · exact h
  · refine Kept.ite_ ?_ ?_
    · apply State.setMbBuf_kept
      exact h
    · apply State.endWaiting_kept
      exact h

theorem State.writeTxreq_kept {s₀ s : State} (h : Kept s₀ s) (c : Nat) (v : Word) :
    Kept s₀ (State.writeTxreq s c v) := by
  unfold State.writeTxreq
  apply State.mbOffer_kept
  apply State.eachBuf_kept
  · exact h
  · intro a1 x2 h3
    apply State.requestTx_kept
    exact h3

theorem execTxreqWrite_kept {s₀ s : State} (h : Kept s₀ s) (c : Fin 16) (v : Word) :
    KeptR s₀ (execTxreqWrite c v s) := by
  unfold execTxreqWrite
  refine KeptR.next ?_
  apply State.writeTxreq_kept
  exact h

theorem execTxcanWrite_kept {s₀ s : State} (h : Kept s₀ s) (c : Fin 16) (v : Word) :
    KeptR s₀ (execTxcanWrite c v s) := by
  unfold execTxcanWrite
  refine KeptR.next ?_
  apply State.eachBuf_kept
  · exact h
  · intro a1 x2 h3
    apply State.cancelTx_kept
    exact h3

theorem State.setTunQ_kept {s₀ s : State} (h : Kept s₀ s) (c : Nat) (q : List (List Word)) :
    Kept s₀ (State.setTunQ s c q) := by
  unfold State.setTunQ
  apply State.set_kept
  apply State.setMbus_kept
  exact h

theorem State.attemptFails_kept {s₀ s : State} (h : Kept s₀ s) (c : Nat) (x : MbSend) (result : Nat) :
    Kept s₀ (State.attemptFails s c x result) := by
  unfold State.attemptFails
  extract_lets -merge -useContext +onlyGivenNames a1
  clear_value a1
  split
  · rename_i a2 e3
    refine Kept.ite_ ?_ ?_
    · apply State.setTunQ_kept
      exact h
    · exact h
  · rename_i a4 a5 e6
    extract_lets -merge -useContext +onlyGivenNames a7
    clear_value a7
    refine Kept.ite_ ?_ ?_
    · apply State.endOnBus_kept
      exact h
    · refine Kept.ite_ ?_ ?_
      · apply State.endOnBus_kept
        exact h
      · refine Kept.ite_ ?_ ?_
        · apply State.endOnBus_kept
          exact h
        · refine Kept.ite_ ?_ ?_
          · apply State.endOnBus_kept
            exact h
          · exact h

theorem State.judgeErrors_kept {s₀ s : State} (h : Kept s₀ s) (c tec rec_ : Nat) :
    Kept s₀ (State.judgeErrors s c tec rec_) := by
  unfold State.judgeErrors
  extract_lets -merge -useContext +onlyGivenNames a1
  have h2 : Kept s₀ a1 := by
    unfold a1
    apply State.set_kept
    apply State.set_kept
    exact h
  clear_value a1
  refine Kept.ite_ ?_ ?_
  · apply State.setMbus_kept
    apply State.setErrState_kept
    exact h2
  · refine Kept.ite_ ?_ ?_
    · refine Kept.ite_ ?_ ?_
      · apply State.setErrState_kept
        exact h2
      · exact h2
    · exact h2

theorem State.countError_kept {s₀ s : State} (h : Kept s₀ s) (c tec rec_ : Nat) :
    Kept s₀ (State.countError s c tec rec_) := by
  unfold State.countError
  refine Kept.ite_ ?_ ?_
  · apply State.setMbus_kept
    exact h
  · apply State.judgeErrors_kept
    apply State.errorFrame_kept
    exact h

theorem State.ownError_kept {s₀ s : State} (h : Kept s₀ s) (c result tec : Nat) :
    Kept s₀ (State.ownError s c result tec) := by
  unfold State.ownError
  split
  · rename_i a1 e2
    exact h
  · rename_i a3 a4 e5
    apply State.countError_kept
    apply State.attemptFails_kept
    apply State.setMbus_kept
    exact h

theorem State.mbError_kept {s₀ s : State} (h : Kept s₀ s) (c : Nat) (err : BusError) :
    Kept s₀ (State.mbError s c err) := by
  unfold State.mbError
  extract_lets -merge -useContext +onlyGivenNames a1
  clear_value a1
  extract_lets -merge -useContext +onlyGivenNames a2
  clear_value a2
  extract_lets -merge -useContext +onlyGivenNames a3
  clear_value a3
  split
  · rename_i a4 a5
    refine Kept.ite_ ?_ ?_
    · exact h
    · extract_lets -merge -useContext +onlyGivenNames a6
      have h7 : Kept s₀ a6 := by
        unfold a6
        refine Kept.ite_ ?_ ?_
        · apply State.set_kept
          exact h
        · exact h
      clear_value a6
      apply State.ownError_kept
      apply State.raise_kept
      apply State.set_kept
      exact h7
  · rename_i a8
    refine Kept.ite_ ?_ ?_
    · apply State.ownError_kept
      apply State.raise_kept
      exact h
    · exact h
  · rename_i a9
    refine Kept.ite_ ?_ ?_
    · apply State.ownError_kept
      apply State.raise_kept
      exact h
    · exact h
  · rename_i a10
    refine Kept.ite_ ?_ ?_
    · apply State.ownError_kept
      apply State.raise_kept
      exact h
    · exact h
  · rename_i a11
    apply State.countError_kept
    apply State.setMbus_kept
    apply State.raise_kept
    exact h
  · rename_i a12 a13
    apply State.countError_kept
    apply State.raise_kept
    exact h

theorem State.frameSent_kept {s₀ s : State} (h : Kept s₀ s) (c : Nat) (x : MbSend) :
    Kept s₀ (State.frameSent s c x) := by
  unfold State.frameSent
  extract_lets -merge -useContext +onlyGivenNames a1
  clear_value a1
  extract_lets -merge -useContext +onlyGivenNames a2
  have h3 : Kept s₀ a2 := by
    unfold a2
    apply State.setMbus_kept
    exact h
  clear_value a2
  extract_lets -merge -useContext +onlyGivenNames a4
  have h5 : Kept s₀ a4 := by
    unfold a4
    apply State.set_kept
    exact h3
  clear_value a4
  extract_lets -merge -useContext +onlyGivenNames a6
  have h7 : Kept s₀ a6 := by
    unfold a6
    refine Kept.ite_ ?_ ?_
    · apply State.setErrState_kept
      exact h5
    · exact h5
  clear_value a6
  split
  · rename_i a8 e9
    apply State.setTunQ_kept
    exact h7
  · rename_i a10 a11 e12
    refine Kept.ite_ ?_ ?_
    · apply State.raise_kept
      apply State.endOnBus_kept
      exact h7
    · apply State.endOnBus_kept
      exact h7

theorem execTransmissionEnd_kept {s₀ s : State} (h : Kept s₀ s) (c : Fin 16) (r : TxEnd) :
    KeptR s₀ (execTransmissionEnd c r s) := by
  unfold execTransmissionEnd
  extract_lets -merge -useContext +onlyGivenNames a1
  clear_value a1
  split
  · rename_i a2 e3
    refine KeptR.next ?_
    exact h
  · rename_i a4 a5 e6
    extract_lets -merge -useContext +onlyGivenNames a7
    clear_value a7
    extract_lets -merge -useContext +onlyGivenNames a8
    have h9 : Kept s₀ a8 := by
      unfold a8
      split
      · rename_i a10
        apply State.frameSent_kept
        exact h
      · rename_i a11
        apply State.attemptFails_kept
        apply State.setMbus_kept
        exact h
      · rename_i a12
        apply State.mbError_kept
        exact h
      · rename_i a13 a14
        apply State.mbError_kept
        exact h
    clear_value a8
    refine KeptR.next ?_
    apply State.mbOffer_kept
    exact h9

theorem State.mbHold_kept {s₀ s : State} (h : Kept s₀ s) (c : Nat) :
    Kept s₀ (State.mbHold s c) := by
  unfold State.mbHold
  refine State.each_kept _ _ ?_ ?_
  · exact h
  · intro a1 x2 h3
    refine Kept.ite_ ?_ ?_
    · apply State.setMbBuf_kept
      exact h3
    · apply State.cancelTx_kept
      exact h3

theorem execMbModeApply_kept {s₀ s : State} (h : Kept s₀ s) (c : Fin 16) :
    KeptR s₀ (execMbModeApply c s) := by
  unfold execMbModeApply
  extract_lets -merge -useContext +onlyGivenNames a1
  clear_value a1
  refine KeptR.ite_ ?_ ?_
  · refine KeptR.next ?_
    exact h
  · extract_lets -merge -useContext +onlyGivenNames a2
    clear_value a2
    extract_lets -merge -useContext +onlyGivenNames a3
    have h4 : Kept s₀ a3 := by
      unfold a3
      apply State.setMbus_kept
      exact h
    clear_value a3
    split
    · rename_i a5 e6
      refine KeptR.next ?_
      apply State.mbOffer_kept
      exact h4
    · rename_i a7 a8 e9
      extract_lets -merge -useContext +onlyGivenNames a10
      clear_value a10
      extract_lets -merge -useContext +onlyGivenNames a11
      have h12 : Kept s₀ a11 := by
        unfold a11
        apply State.setMbus_kept
        apply State.set_kept
        exact h4
      clear_value a11
      extract_lets -merge -useContext +onlyGivenNames a13
      have h14 : Kept s₀ a13 := by
        unfold a13
        refine Kept.ite_ ?_ ?_
        · apply State.setErrState_kept
          apply State.set_kept
          apply State.set_kept
          exact h12
        · exact h12
      clear_value a13
      refine KeptR.next ?_
      apply State.mbOffer_kept
      exact h14

theorem State.showObject_kept {s₀ s : State} (h : Kept s₀ s) (c o ch : Nat) (e : Entry) :
    Kept s₀ (State.showObject s c o ch e) := by
  unfold State.showObject
  extract_lets -merge -useContext +onlyGivenNames a1
  clear_value a1
  extract_lets -merge -useContext +onlyGivenNames a2
  clear_value a2
  apply State.putChan_kept
  exact h

theorem State.endLock_kept {s₀ s : State} (h : Kept s₀ s) (c o : Nat) :
    Kept s₀ (State.endLock s c o) := by
  unfold State.endLock
  extract_lets -merge -useContext +onlyGivenNames a1
  clear_value a1
  extract_lets -merge -useContext +onlyGivenNames a2
  have h3 : Kept s₀ a2 := by
    unfold a2
    apply State.setMbObj_kept
    exact h
  clear_value a2
  refine Kept.ite_ ?_ ?_
  · extract_lets -merge -useContext +onlyGivenNames a4
    clear_value a4
    split
    · rename_i a5 e6
      exact h3
    · rename_i a7 x8 a9 e10
      refine Kept.cut (s := s₀) (KeptQ.of ?_ e10) fun h11 => ?_
      · refine KeptQ.ite_ ?_ ?_
        · exact KeptQ.none _
        · apply State.lookup_kept
          exact h3
      refine Kept.ite_ ?_ ?_
      · apply State.showObject_kept
        exact h11
      · exact h11
  · exact h3

theorem State.writeFmask_kept {s₀ s : State} (h : Kept s₀ s) (c : Nat) (v : Word) :
    Kept s₀ (State.writeFmask s c v) := by
  unfold State.writeFmask
  extract_lets -merge -useContext +onlyGivenNames a1
  clear_value a1
  extract_lets -merge -useContext +onlyGivenNames a2
  have h3 : Kept s₀ a2 := by
    unfold a2
    apply State.set_kept
    apply State.set_kept
    apply State.set_kept
    apply State.set_kept
    exact h
  clear_value a2
  extract_lets -merge -useContext +onlyGivenNames a4
  clear_value a4
  extract_lets -merge -useContext +onlyGivenNames a5
  have h6 : Kept s₀ a5 := by
    unfold a5
    apply State.endLock_kept
    exact h3
  clear_value a5
  extract_lets -merge -useContext +onlyGivenNames a7
  clear_value a7
  extract_lets -merge -useContext +onlyGivenNames a8
  have h9 : Kept s₀ a8 := by
    unfold a8
    apply State.setMbObj_kept
    exact h6
  clear_value a8
  apply State.set_kept
  exact h9

theorem execFmaskWrite_kept {s₀ s : State} (h : Kept s₀ s) (c : Fin 16) (v : Word) :
    KeptR s₀ (execFmaskWrite c v s) := by
  unfold execFmaskWrite
  refine KeptR.next ?_
  apply State.writeFmask_kept
  exact h

theorem State.frameToObject_kept {s₀ s : State} (h : Kept s₀ s) (c o : Nat) (ws : List Word) :
    Kept s₀ (State.frameToObject s c o ws) := by
  unfold State.frameToObject
  extract_lets -merge -useContext +onlyGivenNames a1
  clear_value a1
  extract_lets -merge -useContext +onlyGivenNames a2
  clear_value a2
  split
  · rename_i a3 e4
    apply State.block_kept
    exact h
  · rename_i a5 x6 a7 e8
    refine Kept.cut (s := s₀) (KeptQ.of ?_ e8) fun h9 => ?_
    · apply State.lookup_kept
      exact h
    refine Kept.ite_ ?_ ?_
    · extract_lets -merge -useContext +onlyGivenNames a10
      clear_value a10
      extract_lets -merge -useContext +onlyGivenNames a11
      clear_value a11
      extract_lets -merge -useContext +onlyGivenNames a12
      have h13 : Kept s₀ a12 := by
        unfold a12
        apply State.putChan_kept
        exact h9
      clear_value a12
      apply State.inc_kept
      apply State.setMbObj_kept
      exact h13
    · apply State.raise_kept
      exact h9

theorem State.storeFrame_kept {s₀ s : State} (h : Kept s₀ s) (c o : Nat) (f : BusFrame) (ago : Nat) :
    Kept s₀ (State.storeFrame s c o f ago) := by
  unfold State.storeFrame
  extract_lets -merge -useContext +onlyGivenNames a1
  clear_value a1
  refine Kept.ite_ ?_ ?_
  · apply State.raise_kept
    apply State.inc_kept
    apply State.setMbObj_kept
    exact h
  · extract_lets -merge -useContext +onlyGivenNames a2
    clear_value a2
    extract_lets -merge -useContext +onlyGivenNames a3
    clear_value a3
    extract_lets -merge -useContext +onlyGivenNames a4
    have h5 : Kept s₀ a4 := by
      unfold a4
      refine Kept.ite_ ?_ ?_
      · apply State.setMbus_kept
        exact h
      · exact h
    clear_value a4
    apply State.frameToObject_kept
    exact h5

theorem State.mbReceive_kept {s₀ s : State} (h : Kept s₀ s) (c : Nat) (f : BusFrame) (ago : Nat) :
    Kept s₀ (State.mbReceive s c f ago) := by
  unfold State.mbReceive
  split
  · rename_i a1 e2
    apply State.inc_kept
    exact h
  · rename_i a3 a4 e5
    apply State.storeFrame_kept
    exact h

theorem State.recDown_kept {s₀ s : State} (h : Kept s₀ s) (c : Nat) :
    Kept s₀ (State.recDown s c) := by
  unfold State.recDown
  extract_lets -merge -useContext +onlyGivenNames a1
  clear_value a1
  refine Kept.ite_ ?_ ?_
  · exact h
  · refine Kept.ite_ ?_ ?_
    · apply State.set_kept
      exact h
    · extract_lets -merge -useContext +onlyGivenNames a2
      have h3 : Kept s₀ a2 := by
        unfold a2
        apply State.draw_kept
        apply State.set_kept
        exact h
      clear_value a2
      refine Kept.ite_ ?_ ?_
      · apply State.setErrState_kept
        exact h3
      · exact h3

theorem execMbFrameReceived_kept {s₀ s : State} (h : Kept s₀ s) (c : Fin 16) (x : RxFrame) :
    KeptR s₀ (execMbFrameReceived c x s) := by
  unfold execMbFrameReceived
  extract_lets -merge -useContext +onlyGivenNames a1
  clear_value a1
  extract_lets -merge -useContext +onlyGivenNames a2
  clear_value a2
  refine KeptR.ite_ ?_ ?_
  · exact KeptR.fault _ _
  · refine KeptR.ite_ ?_ ?_
    · refine KeptR.next ?_
      exact h
    · extract_lets -merge -useContext +onlyGivenNames a3
      clear_value a3
      extract_lets -merge -useContext +onlyGivenNames a4
      have h5 : Kept s₀ a4 := by
        unfold a4
        apply State.setMbus_kept
        exact h
      clear_value a4
      refine KeptR.next ?_
      apply State.mbOffer_kept
      apply State.mbReceive_kept
      apply State.mbAck_kept
      apply State.recDown_kept
      exact h5

theorem State.objectRead_kept {s₀ s : State} (h : Kept s₀ s) (ch : Nat) (e : Entry) (w n : Nat) :
    Kept s₀ (State.objectRead s ch e w n) := by
  unfold State.objectRead
  refine Kept.ite_ ?_ ?_
  · exact h
  · extract_lets -merge -useContext +onlyGivenNames a1
    clear_value a1
    extract_lets -merge -useContext +onlyGivenNames a2
    clear_value a2
    extract_lets -merge -useContext +onlyGivenNames a3
    clear_value a3
    refine Kept.ite_ ?_ ?_
    · exact h
    · refine Kept.ite_ ?_ ?_
      · apply State.showObject_kept
        apply State.setMbObj_kept
        exact h
      · refine Kept.ite_ ?_ ?_
        · exact h
        · apply State.setMbObj_kept
          exact h

theorem execMbLockTimeout_kept {s₀ s : State} (h : Kept s₀ s) (c : Fin 16) (o : Fin 512) :
    KeptR s₀ (execMbLockTimeout c o s) := by
  unfold execMbLockTimeout
  extract_lets -merge -useContext +onlyGivenNames a1
  clear_value a1
  extract_lets -merge -useContext +onlyGivenNames a2
  clear_value a2
  split
  · rename_i a3 e4
    refine KeptR.next ?_
    exact h
  · rename_i a5 a6 e7
    refine KeptR.ite_ ?_ ?_
    · refine KeptR.next ?_
      exact h
    · extract_lets -merge -useContext +onlyGivenNames a8
      have h9 : Kept s₀ a8 := by
        unfold a8
        apply State.waitUntil_kept
        exact h
      clear_value a8
      refine KeptR.next ?_
      apply State.raise_kept
      apply State.endLock_kept
      exact h9

theorem execMbBusErr_kept {s₀ s : State} (h : Kept s₀ s) (c : Fin 16) (err : BusError) :
    KeptR s₀ (execMbBusErr c err s) := by
  unfold execMbBusErr
  refine KeptR.next ?_
  refine Kept.ite_ ?_ ?_
  · apply State.mbOffer_kept
    apply State.mbError_kept
    exact h
  · exact h

theorem execMbRecovered_kept {s₀ s : State} (h : Kept s₀ s) (c : Fin 16) :
    KeptR s₀ (execMbRecovered c s) := by
  unfold execMbRecovered
  extract_lets -merge -useContext +onlyGivenNames a1
  clear_value a1
  refine KeptR.ite_ ?_ ?_
  · extract_lets -merge -useContext +onlyGivenNames a2
    have h3 : Kept s₀ a2 := by
      unfold a2
      apply State.waitUntil_kept
      exact h
    clear_value a2
    extract_lets -merge -useContext +onlyGivenNames a4
    clear_value a4
    extract_lets -merge -useContext +onlyGivenNames a5
    have h6 : Kept s₀ a5 := by
      unfold a5
      apply State.setMbus_kept
      exact h3
    clear_value a5
    extract_lets -merge -useContext +onlyGivenNames a7
    have h8 : Kept s₀ a7 := by
      unfold a7
      apply State.set_kept
      apply State.set_kept
      exact h6
    clear_value a7
    refine KeptR.next ?_
    apply State.mbOffer_kept
    apply State.raise_kept
    apply State.setErrState_kept
    exact h8
  · refine KeptR.next ?_
    exact h

theorem execMbWake_kept {s₀ s : State} (h : Kept s₀ s) (c : Fin 16) (src : WakeSource) :
    KeptR s₀ (execMbWake c src s) := by
  unfold execMbWake
  extract_lets -merge -useContext +onlyGivenNames a1
  clear_value a1
  refine KeptR.ite_ ?_ ?_
  · refine KeptR.next ?_
    exact h
  · extract_lets -merge -useContext +onlyGivenNames a2
    clear_value a2
    extract_lets -merge -useContext +onlyGivenNames a3
    clear_value a3
    refine KeptR.ite_ ?_ ?_
    · refine KeptR.next ?_
      exact h
    · extract_lets -merge -useContext +onlyGivenNames a4
      have h5 : Kept s₀ a4 := by
        unfold a4
        apply State.raise_kept
        apply State.set_kept
        exact h
      clear_value a4
      extract_lets -merge -useContext +onlyGivenNames a6
      have h7 : Kept s₀ a6 := by
        unfold a6
        split
        · rename_i a8 a9 a10
          apply State.mbReceive_kept
          apply State.mbAck_kept
          exact h5
        · rename_i a11 e12
          exact h5
      clear_value a6
      refine KeptR.next ?_
      apply State.mbOffer_kept
      exact h7

theorem State.mbFromTunnel_kept {s₀ s : State} (h : Kept s₀ s) (c : Nat) (ws : List Word) :
    Kept s₀ (State.mbFromTunnel s c ws) := by
  unfold State.mbFromTunnel
  refine Kept.ite_ ?_ ?_
  · exact h
  · refine Kept.ite_ ?_ ?_
    · apply State.raise_kept
      exact h
    · apply State.mbOffer_kept
      apply State.setTunQ_kept
      exact h

end Sys2Proof.Machine
end

