-- ==== Sys2Proof/Laws/KeptVotes.lean ====
section
/-! SUPPORT. What the operations of `Machine/Votes.lean` keep: the queue, the direction of the clock, sound
stores. -/

namespace Sys2Proof.Machine

theorem State.writeVgcfg_kept {s₀ s : State} (h : Kept s₀ s) (v : Word) :
    Kept s₀ (State.writeVgcfg s v) := by
  unfold State.writeVgcfg
  extract_lets -merge -useContext +onlyGivenNames a1
  have h2 : Kept s₀ a1 := by
    unfold a1
    apply State.set_kept
    apply State.set_kept
    apply State.set_kept
    apply State.set_kept
    exact h
  clear_value a1
  extract_lets -merge -useContext +onlyGivenNames a3
  have h4 : Kept s₀ a3 := by
    unfold a3
    apply State.set_kept
    exact h2
  clear_value a3
  extract_lets -merge -useContext +onlyGivenNames a5
  clear_value a5
  apply Kept.mk_
  exact h4

theorem execVoteGroupCommit_kept {s₀ s : State} (h : Kept s₀ s) (v : Word) :
    KeptR s₀ (execVoteGroupCommit v s) := by
  unfold execVoteGroupCommit
  refine KeptR.next ?_
  apply State.writeVgcfg_kept
  exact h

theorem State.voteArrive_kept {s₀ s : State} (h : Kept s₀ s) (node : Nat) (ws : List Word) :
    Kept s₀ (State.voteArrive s node ws) := by
  unfold State.voteArrive
  extract_lets -merge -useContext +onlyGivenNames a1
  clear_value a1
  extract_lets -merge -useContext +onlyGivenNames a2
  clear_value a2
  extract_lets -merge -useContext +onlyGivenNames a3
  clear_value a3
  split
  · rename_i a4 e5
    exact h
  · rename_i a6 a7 e8
    extract_lets -merge -useContext +onlyGivenNames a9
    clear_value a9
    extract_lets -merge -useContext +onlyGivenNames a10
    clear_value a10
    extract_lets -merge -useContext +onlyGivenNames a11
    clear_value a11
    extract_lets -merge -useContext +onlyGivenNames a12
    clear_value a12
    extract_lets -merge -useContext +onlyGivenNames a13
    clear_value a13
    extract_lets -merge -useContext +onlyGivenNames a14
    clear_value a14
    extract_lets -merge -useContext +onlyGivenNames a15
    clear_value a15
    extract_lets -merge -useContext +onlyGivenNames a16
    clear_value a16
    refine Kept.ite_ ?_ ?_
    · refine Kept.ite_ ?_ ?_
      · exact h
      · apply State.raise_kept
        apply Kept.mk_
        exact h
    · apply Kept.mk_
      exact h

theorem State.voteStat_kept {s₀ s : State} (h : Kept s₀ s) (outcome present vseq dissent : Nat) :
    Kept s₀ (State.voteStat s outcome present vseq dissent) := by
  unfold State.voteStat
  apply State.set_kept
  apply State.set_kept
  apply State.set_kept
  apply State.set_kept
  exact h

theorem State.voteEvaluate_kept {s₀ s : State} (h : Kept s₀ s) (g ch : Nat) (e : Entry) (iv : Nat) :
    Kept s₀ (State.voteEvaluate s g ch e iv) := by
  unfold State.voteEvaluate
  extract_lets -merge -useContext +onlyGivenNames a1
  clear_value a1
  extract_lets -merge -useContext +onlyGivenNames a2
  clear_value a2
  extract_lets -merge -useContext +onlyGivenNames a3
  clear_value a3
  extract_lets -merge -useContext +onlyGivenNames a4
  have h5 : Kept s₀ a4 := by
    unfold a4
    apply Kept.mk_
    exact h
  clear_value a4
  extract_lets -merge -useContext +onlyGivenNames a6
  clear_value a6
  extract_lets -merge -useContext +onlyGivenNames a7
  clear_value a7
  extract_lets -merge -useContext +onlyGivenNames a8
  clear_value a8
  extract_lets -merge -useContext +onlyGivenNames a9
  extract_lets -merge -useContext +onlyGivenNames a10
  extract_lets -merge -useContext +onlyGivenNames a11
  extract_lets -merge -useContext +onlyGivenNames a12
  split
  · rename_i a13 a14 a15 a16
    extract_lets -merge -useContext +onlyGivenNames a17
    clear_value a17
    extract_lets -merge -useContext +onlyGivenNames a18
    clear_value a18
    extract_lets -merge -useContext +onlyGivenNames a19
    clear_value a19
    refine Kept.ite_ ?_ ?_
    · apply State.voteStat_kept
      unfold a10
      apply State.putChan_kept
      exact h5
    · refine Kept.ite_ ?_ ?_
      · extract_lets -merge -useContext +onlyGivenNames a20
        clear_value a20
        apply State.raise_kept
        apply State.voteStat_kept
        unfold a10
        apply State.putChan_kept
        exact h5
      · apply State.raise_kept
        unfold a12
        apply State.inc_kept
        apply State.voteStat_kept
        unfold a11
        refine Kept.ite_ ?_ ?_
        · apply State.putChan_kept
          exact h5
        · exact h5
  · rename_i a21 a22 a23
    refine Kept.ite_ ?_ ?_
    · apply State.raise_kept
      apply State.voteStat_kept
      unfold a10
      apply State.putChan_kept
      exact h5
    · extract_lets -merge -useContext +onlyGivenNames a24
      clear_value a24
      extract_lets -merge -useContext +onlyGivenNames a25
      have h26 : Kept s₀ a25 := by
        unfold a25
        unfold a10
        apply State.putChan_kept
        exact h5
      clear_value a25
      apply State.raise_kept
      unfold a12
      apply State.inc_kept
      apply State.voteStat_kept
      exact h26
  · rename_i a27 e28 e29
    apply State.raise_kept
    unfold a12
    apply State.inc_kept
    apply State.voteStat_kept
    unfold a11
    refine Kept.ite_ ?_ ?_
    · apply State.putChan_kept
      exact h5
    · exact h5

theorem State.voteCopies_kept {s₀ s : State} (h : Kept s₀ s) (e : Entry) (iv : Nat) (ws : List Word) :
    Kept s₀ (State.voteCopies s e iv ws) := by
  unfold State.voteCopies
  extract_lets -merge -useContext +onlyGivenNames a1
  clear_value a1
  extract_lets -merge -useContext +onlyGivenNames a2
  clear_value a2
  extract_lets -merge -useContext +onlyGivenNames a3
  clear_value a3
  extract_lets -merge -useContext +onlyGivenNames a4
  clear_value a4
  extract_lets -merge -useContext +onlyGivenNames a5
  have h6 : Kept s₀ a5 := by
    unfold a5
    apply Kept.mk_
    exact h
  clear_value a5
  refine Kept.ite_ ?_ ?_
  · refine Kept.foldl _ _ ?_ ?_
    · exact h6
    · intro x7 a8 h9
      apply State.voteArrive_kept
      exact h9
  · apply Kept.mk_
    exact h6

theorem State.vote_kept {s₀ s : State} (h : Kept s₀ s) (ch : Nat) (e : Entry) (iv : Nat) :
    Kept s₀ (State.vote s ch e iv) := by
  unfold State.vote
  refine Kept.ite_ ?_ ?_
  · apply State.voteEvaluate_kept
    exact h
  · split
    · rename_i a1 x2 a3 e4
      refine Kept.cut (s := s₀) (KeptP.of ?_ e4) fun h5 => ?_
      · apply State.readChan_kept
        exact h
      apply State.voteCopies_kept
      exact h5
    · rename_i a6 x7 a8 e9 e10
      refine Kept.cut (s := s₀) (KeptP.of ?_ e10) fun h11 => ?_
      · apply State.readChan_kept
        exact h
      exact h11

end Sys2Proof.Machine
end

