-- ==== Sys2Proof/Laws/KeptFiring.lean ====
section
/-! SUPPORT. What the operations of `Machine/Firing.lean` keep: the queue, the direction of the clock, sound
stores. -/

namespace Sys2Proof.Machine

theorem State.writeSeqCfg_kept {s₀ s : State} (h : Kept s₀ s) (v : Word) :
    Kept s₀ (State.writeSeqCfg s v) := by
  unfold State.writeSeqCfg
  refine Kept.ite_ ?_ ?_
  · apply State.raise_kept
    exact h
  · apply State.set_kept
    apply State.set_kept
    exact h

theorem State.clearRun_kept {s₀ s : State} (h : Kept s₀ s) :
    Kept s₀ (State.clearRun s) := by
  unfold State.clearRun
  refine Kept.foldl _ _ ?_ ?_
  · apply State.set_kept
    exact h
  · intro x1 a2 h3
    apply State.withdraw_kept
    exact h3

theorem State.writeSeqCtl_kept {s₀ s : State} (h : Kept s₀ s) (v : Word) :
    Kept s₀ (State.writeSeqCtl s v) := by
  unfold State.writeSeqCtl
  extract_lets -merge -useContext +onlyGivenNames a1
  have h2 : Kept s₀ a1 := by
    unfold a1
    apply State.set_kept
    exact h
  clear_value a1
  refine Kept.ite_ ?_ ?_
  · apply State.set_kept
    exact h2
  · apply State.clearRun_kept
    exact h2

theorem State.writeSeqHold_kept {s₀ s : State} (h : Kept s₀ s) (v : Word) :
    Kept s₀ (State.writeSeqHold s v) := by
  unfold State.writeSeqHold
  refine State.each_kept _ _ ?_ ?_
  · exact h
  · intro a1 x2 h3
    refine Kept.ite_ ?_ ?_
    · apply State.endLevel_kept
      apply State.setBit_kept
      exact h3
    · exact h3

theorem State.putAct_kept {s₀ s : State} (h : Kept s₀ s) (a : Act) :
    Kept s₀ (State.putAct s a) := by
  unfold State.putAct
  refine Kept.mkSeq ?_ ?_
  · exact h
  · rfl

theorem State.beginMove_kept {s₀ s : State} (h : Kept s₀ s) (p : Purpose) (ch : Nat) (e : Entry) :
    KeptP s₀ (State.beginMove s p ch e) := by
  unfold State.beginMove
  refine KeptP.ite_ ?_ ?_
  · refine KeptP.mk ?_
    exact h
  · refine KeptP.ite_ ?_ ?_
    · refine KeptP.mk ?_
      exact h
    · refine KeptP.ite_ ?_ ?_
      · refine KeptP.mk ?_
        apply State.openOp_kept
        exact h
      · refine KeptP.ite_ ?_ ?_
        · refine KeptP.ite_ ?_ ?_
          · refine KeptP.mk ?_
            apply State.raise_kept
            exact h
          · extract_lets -merge -useContext +onlyGivenNames a1
            have h2 : Kept s₀ a1 := by
              unfold a1
              apply State.openOp_kept
              exact h
            clear_value a1
            refine KeptP.mk ?_
            apply State.pump_kept
            exact h2
        · refine KeptP.ite_ ?_ ?_
          · refine KeptP.mk ?_
            apply State.openOp_kept
            exact h
          · refine KeptP.mk ?_
            apply State.openOp_kept
            exact h

theorem State.moveBeat_kept {s₀ s : State} (h : Kept s₀ s) (o : Op) :
    Kept s₀ (State.moveBeat s o) := by
  unfold State.moveBeat
  extract_lets -merge -useContext +onlyGivenNames a1
  clear_value a1
  refine Kept.ite_ ?_ ?_
  · apply State.chainMoved_kept
    exact h
  · refine Kept.ite_ ?_ ?_
    · apply State.loadBuffer_kept
      exact h
    · refine Kept.ite_ ?_ ?_
      · extract_lets -merge -useContext +onlyGivenNames a2
        clear_value a2
        refine Kept.ite_ ?_ ?_
        · apply State.raise_kept
          apply State.inc_kept
          exact h
        · extract_lets -merge -useContext +onlyGivenNames a3
          clear_value a3
          apply Kept.mk_
          exact h
      · exact h

theorem State.retireOp_kept {s₀ s : State} (h : Kept s₀ s) (o : Op) :
    Kept s₀ (State.retireOp s o) := by
  unfold State.retireOp
  apply State.reapOps_kept
  apply State.putOp_kept
  exact h

theorem execMoveComplete_kept {s₀ s : State} (h : Kept s₀ s) :
    KeptR s₀ (execMoveComplete s) := by
  unfold execMoveComplete
  split
  · rename_i a1 e2
    refine KeptR.next ?_
    exact h
  · rename_i a3 a4 e5
    extract_lets -merge -useContext +onlyGivenNames a6
    have h7 : Kept s₀ a6 := by
      unfold a6
      apply State.retireOp_kept
      apply State.moveBeat_kept
      exact h
    clear_value a6
    split
    · rename_i a8 a9 e10
      refine KeptR.next ?_
      apply State.actEffect_kept
      exact h7
    · rename_i a11 e12
      refine KeptR.next ?_
      exact h7

theorem State.undone_kept {s₀ s : State} (h : Kept s₀ s) (i : Nat) :
    Kept s₀ (State.undone s i) := by
  unfold State.undone
  refine Kept.ite_ ?_ ?_
  · apply State.entryState_kept
    exact h
  · exact h

theorem State.badAction_kept {s₀ s : State} (h : Kept s₀ s) (a : Act) :
    Kept s₀ (State.badAction s a) := by
  unfold State.badAction
  apply State.raise_kept
  apply State.undone_kept
  apply State.actEffect_kept
  exact h

theorem State.tariffOrVote_kept {s₀ s : State} (h : Kept s₀ s) (a : Act) :
    Kept s₀ (State.tariffOrVote s a) := by
  unfold State.tariffOrVote
  split
  · rename_i a1 e2
    apply State.actEffect_kept
    apply State.requestTariff_kept
    exact h
  · rename_i a3 a4 a5 e6
    apply State.actEffect_kept
    apply State.vote_kept
    exact h

theorem State.landAct_kept {s₀ s : State} (h : Kept s₀ s) (a : Act) :
    Kept s₀ (State.landAct s a) := by
  unfold State.landAct
  refine Kept.ite_ ?_ ?_
  · apply State.putAct_kept
    exact h
  · apply State.tariffOrVote_kept
    exact h

theorem State.timeDiscrete_kept {s₀ s : State} (h : Kept s₀ s) (id : Nat) (w : Word) :
    Kept s₀ (State.timeDiscrete s id w) := by
  unfold State.timeDiscrete
  split
  · rename_i a1 e2
    exact h
  · rename_i a3 a4 e5
    split
    · rename_i a6 e7
      exact h
    · rename_i a8 a9 a10 e11
      refine Kept.mkSeq ?_ ?_
      · exact h
      · rfl

theorem State.performAct_kept {s₀ s : State} (h : Kept s₀ s) (a : Act) :
    Kept s₀ (State.performAct s a) := by
  unfold State.performAct
  extract_lets -merge -useContext +onlyGivenNames a1
  clear_value a1
  extract_lets -merge -useContext +onlyGivenNames a2
  clear_value a2
  refine Kept.ite_ ?_ ?_
  · extract_lets -merge -useContext +onlyGivenNames a3
    clear_value a3
    refine Kept.ite_ ?_ ?_
    · apply State.landAct_kept
      exact h
    · apply State.badAction_kept
      exact h
  · refine Kept.ite_ ?_ ?_
    · apply State.badAction_kept
      exact h
    · split
      · rename_i a4 e5
        apply State.putAct_kept
        exact h
      · rename_i a6 x7 a8 e9
        refine Kept.cut (s := s₀) (KeptQ.of ?_ e9) fun h10 => ?_
        · apply State.lookup_kept
          exact h
        extract_lets -merge -useContext +onlyGivenNames a11
        clear_value a11
        extract_lets -merge -useContext +onlyGivenNames a12
        have h13 : Kept s₀ a12 := by
          unfold a12
          apply State.putAct_kept
          exact h10
        clear_value a12
        refine Kept.ite_ ?_ ?_
        · apply State.badAction_kept
          exact h13
        · split
          · rename_i a14 e15
            refine Kept.ite_ ?_ ?_
            · apply State.badAction_kept
              exact h13
            · extract_lets -merge -useContext +onlyGivenNames a16
              refine Kept.ite_ ?_ ?_
              · refine KeptP.fst ?_
                unfold a16
                apply State.chainLatch_kept
                exact h13
              · apply State.endAct_kept
                refine KeptP.fst ?_
                unfold a16
                apply State.chainLatch_kept
                exact h13
          · rename_i a17 e18
            refine Kept.ite_ ?_ ?_
            · apply State.badAction_kept
              exact h13
            · extract_lets -merge -useContext +onlyGivenNames a19
              split
              · rename_i a20 e21
                refine KeptP.fst ?_
                unfold a19
                apply State.beginMove_kept
                exact h13
              · rename_i a22 e23
                apply State.actEffect_kept
                refine KeptP.fst ?_
                unfold a19
                apply State.beginMove_kept
                exact h13
              · rename_i a24 e25
                apply State.endAct_kept
                refine KeptP.fst ?_
                unfold a19
                apply State.beginMove_kept
                exact h13
          · rename_i a26 e27
            refine Kept.ite_ ?_ ?_
            · apply State.badAction_kept
              exact h13
            · split
              · rename_i a28 x29 e30
                refine Kept.cut (s := s₀) (KeptP.of ?_ e30) fun h31 => ?_
                · apply State.readChan_kept
                  exact h13
                apply State.endAct_kept
                exact h31
              · rename_i a32 x33 a34 e35
                refine Kept.cut (s := s₀) (KeptP.of ?_ e35) fun h36 => ?_
                · apply State.readChan_kept
                  exact h13
                apply State.timeDiscrete_kept
                exact h36
              · rename_i a37 x38 a39 e40
                refine Kept.cut (s := s₀) (KeptP.of ?_ e40) fun h41 => ?_
                · apply State.readChan_kept
                  exact h13
                exact h41
          · rename_i a42 e43 e44 e45
            refine Kept.ite_ ?_ ?_
            · apply State.landAct_kept
              exact h13
            · apply State.badAction_kept
              exact h13

theorem State.miss_kept {s₀ s : State} (h : Kept s₀ s) (i : Nat) (e : Eph) :
    Kept s₀ (State.miss s i e) := by
  unfold State.miss
  extract_lets -merge -useContext +onlyGivenNames a1
  have h2 : Kept s₀ a1 := by
    unfold a1
    apply State.inc_kept
    apply State.set_kept
    apply State.set_kept
    exact h
  clear_value a1
  extract_lets -merge -useContext +onlyGivenNames a3
  have h4 : Kept s₀ a3 := by
    unfold a3
    apply State.raise_kept
    exact h2
  clear_value a3
  refine Kept.ite_ ?_ ?_
  · apply State.raiseLevel_kept
    apply State.setBit_kept
    exact h4
  · exact h4

theorem State.dropLatch_kept {s₀ s : State} (h : Kept s₀ s) (id : Nat) :
    Kept s₀ (State.dropLatch s id) := by
  unfold State.dropLatch
  apply Kept.mk_
  exact h

theorem State.dropTimed_kept {s₀ s : State} (h : Kept s₀ s) (id : Nat) :
    Kept s₀ (State.dropTimed s id) := by
  unfold State.dropTimed
  extract_lets -merge -useContext +onlyGivenNames a1
  have h2 : Kept s₀ a1 := by
    unfold a1
    apply State.dropOps_kept
    exact h
  clear_value a1
  refine Kept.mkSeq ?_ ?_
  · exact h2
  · rfl

theorem State.missAct_kept {s₀ s : State} (h : Kept s₀ s) (a : Act) :
    Kept s₀ (State.missAct s a) := by
  unfold State.missAct
  extract_lets -merge -useContext +onlyGivenNames a1
  have h2 : Kept s₀ a1 := by
    unfold a1
    apply State.miss_kept
    exact h
  clear_value a1
  refine Kept.ite_ ?_ ?_
  · extract_lets -merge -useContext +onlyGivenNames a3
    clear_value a3
    extract_lets -merge -useContext +onlyGivenNames a4
    have h5 : Kept s₀ a4 := by
      unfold a4
      apply State.putAct_kept
      exact h2
    clear_value a4
    refine Kept.ite_ ?_ ?_
    · exact h5
    · apply State.actEffect_kept
      exact h5
  · apply State.undone_kept
    apply State.actEffect_kept
    apply State.dropTimed_kept
    apply State.dropLatch_kept
    exact h2

theorem State.missFiring_kept {s₀ s : State} (h : Kept s₀ s) (f : Firing) :
    Kept s₀ (State.missFiring s f) := by
  unfold State.missFiring
  extract_lets e x
  have hx : Kept s₀ x := State.miss_kept h _ _
  refine Kept.ite_ (State.setWheel_kept hx _ ?_) (State.missEntry_kept (State.withdraw_kept hx _) _ _)
  rw [List.length_map]
  exact Nat.le_max_right _ _

theorem execDeadlineMiss_kept {s₀ s : State} (h : Kept s₀ s) :
    KeptR s₀ (execDeadlineMiss s) := by
  unfold execDeadlineMiss
  split
  · rename_i a1 e2
    refine KeptR.next ?_
    exact h
  · rename_i a3 a4 a5 e6
    refine KeptR.next ?_
    apply State.missAct_kept
    apply State.advance_kept
    exact h
  · rename_i a7 a8 a9 e10
    refine KeptR.next ?_
    apply State.missFiring_kept
    apply State.advance_kept
    exact h

theorem execHoldRelease_kept {s₀ s : State} (h : Kept s₀ s) (v : Word) :
    KeptR s₀ (execHoldRelease v s) := by
  unfold execHoldRelease
  refine KeptR.next ?_
  apply State.writeSeqHold_kept
  exact h

theorem execRunClear_kept {s₀ s : State} (h : Kept s₀ s) (v : Word) :
    KeptR s₀ (execRunClear v s) := by
  unfold execRunClear
  refine KeptR.next ?_
  apply State.writeSeqCtl_kept
  exact h

theorem State.dispatch_kept {s₀ s : State} (h : Kept s₀ s) (i instant : Nat) (c : Cause137) :
    Kept s₀ (State.dispatch s i instant c) := by
  unfold State.dispatch
  extract_lets missed x e fwd a late y z w b room v u
  have hx : Kept s₀ x := State.withdraw_kept h i
  refine Kept.ite_ (State.missEntry_kept (State.inc_kept hx _) _ _) ?_
  refine Kept.ite_ (State.missEntry_kept (State.miss_kept hx _ _) _ _) ?_
  have hy : Kept s₀ y := by
    unfold y
    split
    · exact Kept.ite_ (State.raise_kept (State.inc_kept hx _) _ _) hx
    · exact hx
  have hz : Kept s₀ z := State.moveEntryOn_kept (State.setEntry_kept hy _ _) _ _
  have hw : Kept s₀ w := Kept.ite_ (State.miss_kept hz _ _) hz
  have hu : Kept s₀ u := Kept.mkSeq hw rfl
  exact Kept.ite_ (State.performAct_kept hu _) hu

theorem State.dispatchRead_kept {s₀ s : State} (h : Kept s₀ s) (f : Firing) (ue : Bool) :
    Kept s₀ (State.dispatchRead s f ue) := by
  unfold State.dispatchRead
  extract_lets -merge -useContext +onlyGivenNames a1
  have h2 : Kept s₀ a1 := by
    unfold a1
    apply State.touchEntry_kept
    exact h
  clear_value a1
  refine Kept.ite_ ?_ ?_
  · exact h2
  · apply State.dispatch_kept
    exact h2

theorem State.dispatchDueOf_kept {s₀ s : State} (h : Kept s₀ s) (p : Nat → Bool) (n : Nat) :
    Kept s₀ (State.dispatchDueOf s p n) := by
  induction n generalizing s with
  | zero => exact h
  | succ n ih =>
    unfold State.dispatchDueOf
    split
    · exact h
    · exact ih (State.dispatchRead_kept h _ _)

theorem execDispatch_kept {s₀ s : State} (h : Kept s₀ s) (ue : Bool) :
    KeptR s₀ (execDispatch ue s) := by
  unfold execDispatch
  split
  · rename_i a1 a2 e3
    refine KeptR.next ?_
    apply State.performAct_kept
    exact h
  · rename_i a4 e5
    split
    · rename_i a6 a7 e8
      refine KeptR.next ?_
      apply State.tariffOrVote_kept
      apply State.advance_kept
      exact h
    · rename_i a9 e10
      split
      · rename_i a11 e12
        refine KeptR.next ?_
        exact h
      · rename_i a13 a14 e15
        extract_lets -merge -useContext +onlyGivenNames a16
        have h17 : Kept s₀ a16 := by
          unfold a16
          apply State.advance_kept
          exact h
        clear_value a16
        refine KeptR.next ?_
        apply State.dispatchRead_kept
        exact h17

theorem State.enqueue_kept {s₀ s : State} (h : Kept s₀ s) (i instant : Nat) :
    Kept s₀ (State.enqueue s i instant) := by
  unfold State.enqueue
  split
  · refine Kept.ite_ ?_ ?_
    · exact h
    · apply State.raise_kept
      refine Kept.mkSeq ?_ ?_
      · exact h
      · rfl
  · rename_i hn
    extract_lets q
    have hq : Kept s₀ q := by
      refine State.setWheel_kept (State.entryState_kept h i _) _ (Nat.le_trans ?_ (Nat.le_max_left _ _))
      rw [List.length_append]
      exact Nat.lt_of_not_le hn
    refine Kept.ite_ hq ?_
    split
    · exact h
    · rename_i x c e
      refine State.setWheel_kept (State.lookup_kept hq _ _ e) _ ?_
      rw [List.length_map]
      exact Nat.le_max_right _ _

theorem State.visit_kept {s₀ s : State} (h : Kept s₀ s) (i : Nat) :
    Kept s₀ (State.visit s i) := by
  unfold State.visit
  extract_lets -merge -useContext +onlyGivenNames a1
  clear_value a1
  extract_lets -merge -useContext +onlyGivenNames a2
  clear_value a2
  refine Kept.ite_ ?_ ?_
  · exact h
  · refine Kept.ite_ ?_ ?_
    · refine Kept.ite_ ?_ ?_
      · apply State.dispatch_kept
        exact h
      · refine Kept.ite_ ?_ ?_
        · apply State.enqueue_kept
          exact h
        · exact h
    · split
      · rename_i a3 e4
        exact h
      · rename_i a5 a6 e7
        refine Kept.ite_ ?_ ?_
        · extract_lets -merge -useContext +onlyGivenNames a8
          clear_value a8
          apply State.dispatch_kept
          exact h
        · split
          · rename_i a9 a10 e11
            apply State.enqueue_kept
            exact h
          · rename_i a12 e13
            exact h

theorem State.dispatchPassed_kept {s₀ s : State} (h : Kept s₀ s) (d n : Nat) :
    Kept s₀ (State.dispatchPassed s d n) := by
  induction n generalizing s with
  | zero => exact h
  | succ n ih =>
    unfold State.dispatchPassed
    split
    · exact h
    · exact ih (State.dispatch_kept h _ _ _)

theorem State.sweepSpan_kept {s₀ s : State} (h : Kept s₀ s) (a b : Nat) :
    Kept s₀ (State.sweepSpan s a b) := by
  unfold State.sweepSpan
  refine Kept.foldl _ _ ?_ ?_
  · exact h
  · intro x1 a2 h3
    apply State.visit_kept
    apply State.touchEntry_kept
    exact h3

theorem State.endPass_kept {s₀ s : State} (h : Kept s₀ s) (limit : Nat) :
    Kept s₀ (State.endPass s limit) := by
  unfold State.endPass
  apply State.set_kept
  refine Kept.mkSeq ?_ ?_
  · exact h
  · rfl

theorem execSweepVisit_kept {s₀ s : State} (h : Kept s₀ s) (e : Fin 262144) (ue : Bool) :
    KeptR s₀ (execSweepVisit e ue s) := by
  unfold execSweepVisit
  extract_lets -merge -useContext +onlyGivenNames a1
  clear_value a1
  refine KeptR.ite_ ?_ ?_
  · refine KeptR.next ?_
    exact h
  · extract_lets -merge -useContext +onlyGivenNames a2
    have h3 : Kept s₀ a2 := by
      unfold a2
      refine Kept.ite_ ?_ ?_
      · exact h
      · apply State.endPass_kept
        apply State.sweepSpan_kept
        exact h
    clear_value a2
    extract_lets -merge -useContext +onlyGivenNames a4
    have h5 : Kept s₀ a4 := by
      unfold a4
      apply State.sweepSpan_kept
      exact h3
    clear_value a4
    extract_lets -merge -useContext +onlyGivenNames a6
    have h7 : Kept s₀ a6 := by
      unfold a6
      apply State.visit_kept
      apply State.touchEntry_kept
      exact h5
    clear_value a6
    refine KeptR.next ?_
    refine Kept.ite_ ?_ ?_
    · apply State.endPass_kept
      exact h7
    · refine Kept.mkSeq ?_ ?_
      · exact h7
      · rfl

theorem execProgramStart_kept {s₀ s : State} (h : Kept s₀ s) (k : Fin 8) :
    KeptR s₀ (execProgramStart k s) := by
  unfold execProgramStart
  refine KeptR.ite_ ?_ ?_
  · refine KeptR.next ?_
    exact h
  · split
    · rename_i a1 e2
      refine KeptR.next ?_
      exact h
    · rename_i a3 a4 e5
      extract_lets -merge -useContext +onlyGivenNames a6
      have h7 : Kept s₀ a6 := by
        unfold a6
        apply State.actEffect_kept
        exact h
      clear_value a6
      extract_lets -merge -useContext +onlyGivenNames a8
      clear_value a8
      extract_lets -merge -useContext +onlyGivenNames a9
      clear_value a9
      extract_lets -merge -useContext +onlyGivenNames a10
      have h11 : Kept s₀ a10 := by
        unfold a10
        apply State.setEngine_kept
        exact h7
      clear_value a10
      refine KeptR.next ?_
      apply State.setBit_kept
      apply State.set_kept
      apply State.set_kept
      exact h11

theorem execLaneRunmax_kept {s₀ s : State} (h : Kept s₀ s) (k : Fin 8) :
    KeptR s₀ (execLaneRunmax k s) := by
  unfold execLaneRunmax
  extract_lets -merge -useContext +onlyGivenNames a1
  clear_value a1
  refine KeptR.ite_ ?_ ?_
  · refine KeptR.next ?_
    exact h
  · refine KeptR.next ?_
    apply State.stopLane_kept
    apply State.waitUntil_kept
    exact h

theorem execTimedCommand_kept {s₀ s : State} (h : Kept s₀ s) :
    KeptR s₀ (execTimedCommand s) := by
  unfold execTimedCommand
  split
  · rename_i a1 e2
    refine KeptR.next ?_
    exact h
  · rename_i a3 a4 e5
    extract_lets -merge -useContext +onlyGivenNames a6
    have h7 : Kept s₀ a6 := by
      unfold a6
      apply State.advance_kept
      exact h
    clear_value a6
    extract_lets -merge -useContext +onlyGivenNames a8
    extract_lets -merge -useContext +onlyGivenNames a9
    have h10 : Kept s₀ a9 := by
      unfold a9
      refine Kept.mkSeq ?_ ?_
      · exact h7
      · rfl
    clear_value a9
    refine KeptR.next ?_
    apply State.actEffect_kept
    apply State.drivePins_kept
    exact h10

end Sys2Proof.Machine
end

