-- ==== Sys2Proof/Laws/KeptMacs.lean ====
section
/-! SUPPORT. What the operations of `Machine/Macs.lean` keep: the queue, the direction of the clock, sound
stores. -/

namespace Sys2Proof.Machine

theorem State.setMac_kept {s₀ s : State} (h : Kept s₀ s) (m : Nat) (x : Mac) :
    Kept s₀ (State.setMac s m x) := by
  unfold State.setMac
  apply Kept.mk_
  exact h

theorem State.macDown_kept {s₀ s : State} (h : Kept s₀ s) (m : Nat) :
    Kept s₀ (State.macDown s m) := by
  unfold State.macDown
  refine Kept.ite_ ?_ ?_
  · exact h
  · extract_lets -merge -useContext +onlyGivenNames a1
    have h2 : Kept s₀ a1 := by
      unfold a1
      apply State.raiseLevel_kept
      apply State.set_kept
      apply State.set_kept
      apply State.set_kept
      exact h
    clear_value a1
    apply State.setMac_kept
    exact h2

theorem State.macJudge_kept {s₀ s : State} (h : Kept s₀ s) (m : Nat) :
    Kept s₀ (State.macJudge s m) := by
  unfold State.macJudge
  refine Kept.ite_ ?_ ?_
  · exact h
  · apply State.macDown_kept
    exact h

end Sys2Proof.Machine
end

