-- ==== Sys2Proof/Laws/KeptCrypt.lean ====
section
/-! SUPPORT. What the operations of `Machine/Crypt.lean` keep: the queue, the direction of the clock, sound
stores. -/

namespace Sys2Proof.Machine

theorem State.setRport_kept {s₀ s : State} (h : Kept s₀ s) (p : Nat) (x : RPort) :
    Kept s₀ (State.setRport s p x) := by
  unfold State.setRport
  apply Kept.mk_
  exact h

theorem State.onWire_kept {s₀ s : State} (h : Kept s₀ s) (p k : Nat) (c : Cell) :
    KeptP s₀ (State.onWire s p k c) := by
  unfold State.onWire
  split
  · rename_i a1 e2
    refine KeptP.mk ?_
    exact h
  · rename_i a3 a4 a5 e6
    extract_lets -merge -useContext +onlyGivenNames a7
    clear_value a7
    extract_lets -merge -useContext +onlyGivenNames a8
    clear_value a8
    refine KeptP.mk ?_
    apply State.draw_kept
    exact h

end Sys2Proof.Machine
end

