-- ==== Sys2Proof/Laws/KeptCycOps.lean ====
section
/-! SUPPORT. What the operations of `Machine/CycOps.lean` keep: the queue, the direction of the clock, sound
stores. -/

namespace Sys2Proof.Machine

theorem State.noteSeen_kept {s₀ s : State} (h : Kept s₀ s) (k : Nat) (c : Cell) :
    Kept s₀ (State.noteSeen s k c) := by
  unfold State.noteSeen
  extract_lets -merge -useContext +onlyGivenNames a1
  clear_value a1
  extract_lets -merge -useContext +onlyGivenNames a2
  clear_value a2
  split
  · rename_i a3
    exact h
  · rename_i a4 a5
    refine Kept.ite_ ?_ ?_
    · exact h
    · apply Kept.mk_
      exact h

theorem State.sendRing_kept {s₀ s : State} (h : Kept s₀ s) (cp : Nat) (c : Cell) :
    Kept s₀ (State.sendRing s cp c) := by
  unfold State.sendRing
  extract_lets -merge -useContext +onlyGivenNames a1
  apply State.emit_kept
  refine KeptP.fst ?_
  unfold a1
  apply State.onWire_kept
  exact h

theorem State.emitLink_kept {s₀ s : State} (h : Kept s₀ s) (p : Nat) (c : Cell) :
    Kept s₀ (State.emitLink s p c) := by
  unfold State.emitLink
  extract_lets -merge -useContext +onlyGivenNames a1
  apply State.emit_kept
  refine KeptP.fst ?_
  unfold a1
  apply State.onWire_kept
  exact h

end Sys2Proof.Machine
end

