-- ==== Sys2Proof/Laws/KeptXbarOps.lean ====
section
/-! SUPPORT. What the operations of `Machine/XbarOps.lean` keep: the queue, the direction of the clock, sound
stores. -/

namespace Sys2Proof.Machine

theorem State.wrapDrop_kept {s₀ s : State} (h : Kept s₀ s) (p : Nat) :
    Kept s₀ (State.wrapDrop s p) := by
  unfold State.wrapDrop
  apply State.raise_kept
  apply State.inc_kept
  exact h

theorem State.setInq_kept {s₀ s : State} (h : Kept s₀ s) (i : Nat) (qs : List QCell) :
    Kept s₀ (State.setInq s i qs) := by
  unfold State.setInq
  apply Kept.mk_
  exact h

theorem State.setXp_kept {s₀ s : State} (h : Kept s₀ s) (i o : Nat) (qs : List QCell) :
    Kept s₀ (State.setXp s i o qs) := by
  unfold State.setXp
  apply Kept.mk_
  exact h

theorem State.judgeOver_kept {s₀ s : State} (h : Kept s₀ s) (n : Nat) :
    Kept s₀ (State.judgeOver s n) := by
  unfold State.judgeOver
  refine Kept.ite_ ?_ ?_
  · apply State.endLevel_kept
    apply State.setB_kept
    exact h
  · exact h

theorem State.leaves_kept {s₀ s : State} (h : Kept s₀ s) (q : QCell) :
    Kept s₀ (State.leaves s q) := by
  unfold State.leaves
  split
  · rename_i a1 e2
    exact h
  · rename_i a3 a4 e5
    apply State.judgeOver_kept
    apply State.set_kept
    exact h

theorem State.writeQuota_kept {s₀ s : State} (h : Kept s₀ s) (n : Nat) (v : Word) :
    Kept s₀ (State.writeQuota s n v) := by
  unfold State.writeQuota
  refine Kept.ite_ ?_ ?_
  · exact h
  · extract_lets -merge -useContext +onlyGivenNames a1
    clear_value a1
    extract_lets -merge -useContext +onlyGivenNames a2
    clear_value a2
    extract_lets -merge -useContext +onlyGivenNames a3
    clear_value a3
    extract_lets -merge -useContext +onlyGivenNames a4
    have h5 : Kept s₀ a4 := by
      unfold a4
      apply Kept.mk_
      exact h
    clear_value a4
    extract_lets -merge -useContext +onlyGivenNames a6
    have h7 : Kept s₀ a6 := by
      unfold a6
      apply State.set_kept
      apply State.set_kept
      apply State.set_kept
      exact h5
    clear_value a6
    refine Kept.ite_ ?_ ?_
    · apply State.raiseLevel_kept
      apply State.setB_kept
      exact h7
    · apply State.endLevel_kept
      apply State.setB_kept
      exact h7

theorem execQuotaWrite_kept {s₀ s : State} (h : Kept s₀ s) (n : Fin 16) (v : Word) :
    KeptR s₀ (execQuotaWrite n v s) := by
  unfold execQuotaWrite
  refine KeptR.next ?_
  apply State.writeQuota_kept
  exact h

theorem State.startHold_kept {s₀ s : State} (h : Kept s₀ s) (p : Nat) :
    Kept s₀ (State.startHold s p) := by
  unfold State.startHold
  refine Kept.ite_ ?_ ?_
  · apply Kept.mk_
    exact h
  · exact h

theorem State.endHold_kept {s₀ s : State} (h : Kept s₀ s) (p : Nat) :
    Kept s₀ (State.endHold s p) := by
  unfold State.endHold
  apply Kept.mk_
  exact h

theorem State.moveCells_kept {s₀ s : State} (h : Kept s₀ s) (i o : Nat) (qs kept : List QCell) :
    Kept s₀ (State.moveCells s i o qs kept) := by
  induction qs generalizing s kept with
  | nil => exact State.setXp_kept h i o kept
  | cons q rest ih =>
    unfold State.moveCells
    split
    · rename_i a1 a2 e3
      apply ih
      apply State.wrapDrop_kept
      apply State.leaves_kept
      exact h
    · rename_i a4 a5 a6 e7
      refine Kept.ite_ ?_ ?_
      · apply ih
        exact h
      · extract_lets -merge -useContext +onlyGivenNames a8
        have h9 : Kept s₀ a8 := by
          unfold a8
          apply State.setXp_kept
          exact h
        clear_value a8
        apply ih
        apply State.inc_kept
        exact h9

theorem State.rerouteIn_kept {s₀ s : State} (h : Kept s₀ s) (i : Nat) (qs kept : List QCell) :
    Kept s₀ (State.rerouteIn s i qs kept) := by
  induction qs generalizing s kept with
  | nil => exact State.setInq_kept h i kept
  | cons q rest ih =>
    unfold State.rerouteIn
    refine Kept.ite_ ?_ ?_
    · apply ih
      exact h
    · split
      · rename_i a1 a2 e3
        apply ih
        apply State.wrapDrop_kept
        apply State.leaves_kept
        exact h
      · rename_i a4 a5 a6 e7
        apply ih
        exact h

theorem State.rehome_kept {s₀ s : State} (h : Kept s₀ s) :
    Kept s₀ (State.rehome s) := by
  unfold State.rehome
  refine State.each_kept _ _ ?_ ?_
  · exact h
  · intro a1 x2 h3
    extract_lets -merge -useContext +onlyGivenNames a4
    have h5 : Kept s₀ a4 := by
      unfold a4
      apply State.rerouteIn_kept
      exact h3
    clear_value a4
    refine State.each_kept _ _ ?_ ?_
    · exact h5
    · intro a6 x7 h8
      refine Kept.ite_ ?_ ?_
      · exact h8
      · apply State.moveCells_kept
        exact h8

theorem State.discardXp_kept {s₀ s : State} (h : Kept s₀ s) (p : Nat) (f : QCell → Bool) (cnt : Field) :
    Kept s₀ (State.discardXp s p f cnt) := by
  unfold State.discardXp
  refine State.each_kept _ _ ?_ ?_
  · exact h
  · intro a1 x2 h3
    refine State.each_kept _ _ ?_ ?_
    · exact h3
    · intro a4 x5 h6
      extract_lets -merge -useContext +onlyGivenNames a7
      clear_value a7
      extract_lets -merge -useContext +onlyGivenNames a8
      clear_value a8
      refine Kept.ite_ ?_ ?_
      · exact h6
      · refine Kept.foldl _ _ ?_ ?_
        · apply State.setXp_kept
          exact h6
        · intro x9 a10 h11
          apply State.inc_kept
          apply State.leaves_kept
          exact h11

theorem State.portReturns_kept {s₀ s : State} (h : Kept s₀ s) (p : Nat) :
    Kept s₀ (State.portReturns s p) := by
  unfold State.portReturns
  refine Kept.ite_ ?_ ?_
  · apply State.rehome_kept
    exact h
  · apply State.rehome_kept
    apply State.endHold_kept
    apply State.discardXp_kept
    exact h

theorem State.holdEnds_kept {s₀ s : State} (h : Kept s₀ s) (p : Nat) :
    Kept s₀ (State.holdEnds s p) := by
  unfold State.holdEnds
  extract_lets -merge -useContext +onlyGivenNames a1
  extract_lets -merge -useContext +onlyGivenNames a2
  clear_value a2
  extract_lets -merge -useContext +onlyGivenNames a3
  have h4 : Kept s₀ a3 := by
    unfold a3
    apply State.endHold_kept
    apply State.discardXp_kept
    exact h
  clear_value a3
  refine Kept.foldl _ _ ?_ ?_
  · exact h4
  · intro x5 a6 h7
    refine Kept.ite_ ?_ ?_
    · exact h7
    · apply State.raise_kept
      exact h7

theorem State.queueCell_kept {s₀ s : State} (h : Kept s₀ s) (i o : Nat) (c : Cell) (own : Option Nat) (copy : Bool) :
    Kept s₀ (State.queueCell s i o c own copy) := by
  unfold State.queueCell
  extract_lets -merge -useContext +onlyGivenNames a1
  have h2 : Kept s₀ a1 := by
    unfold a1
    apply State.setInq_kept
    exact h
  clear_value a1
  refine Kept.ite_ ?_ ?_
  · apply State.startHold_kept
    exact h2
  · exact h2

theorem State.matching_kept {s₀ s : State} (h : Kept s₀ s) (ins outs : List Nat) :
    KeptP s₀ (State.matching s ins outs) := by
  unfold State.matching
  extract_lets -merge -useContext +onlyGivenNames a1
  extract_lets -merge -useContext +onlyGivenNames a2
  clear_value a2
  extract_lets -merge -useContext +onlyGivenNames a3
  clear_value a3
  extract_lets -merge -useContext +onlyGivenNames a4
  clear_value a4
  extract_lets -merge -useContext +onlyGivenNames a5
  clear_value a5
  extract_lets -merge -useContext +onlyGivenNames a6
  clear_value a6
  refine KeptP.mk ?_
  refine Kept.foldl _ _ ?_ ?_
  · exact h
  · intro x7 a8 h9
    apply Kept.mk_
    exact h9

theorem State.moveIn_kept {s₀ s : State} (h : Kept s₀ s) (i o : Nat) :
    Kept s₀ (State.moveIn s i o) := by
  unfold State.moveIn
  extract_lets -merge -useContext +onlyGivenNames a1
  clear_value a1
  split
  · rename_i a2 e3
    exact h
  · rename_i a4 a5 e6
    split
    · rename_i a7 e8
      exact h
    · rename_i a9 a10 a11 e12
      apply State.setXp_kept
      apply State.setInq_kept
      exact h

theorem State.readOut_kept {s₀ s : State} (h : Kept s₀ s) (o : Nat) :
    KeptQ s₀ (State.readOut s o) := by
  unfold State.readOut
  split
  · rename_i a1 e2
    exact KeptQ.none _
  · rename_i a3 a4 e5
    extract_lets -merge -useContext +onlyGivenNames a6
    clear_value a6
    extract_lets -merge -useContext +onlyGivenNames a7
    clear_value a7
    split
    · rename_i a8 e9
      exact KeptQ.none _
    · rename_i a10 a11 e12
      extract_lets -merge -useContext +onlyGivenNames a13
      clear_value a13
      split
      · rename_i a14 e15
        exact KeptQ.none _
      · rename_i a16 a17 a18 e19
        extract_lets -merge -useContext +onlyGivenNames a20
        clear_value a20
        extract_lets -merge -useContext +onlyGivenNames a21
        have h22 : Kept s₀ a21 := by
          unfold a21
          apply State.setXp_kept
          exact h
        clear_value a21
        extract_lets -merge -useContext +onlyGivenNames a23
        clear_value a23
        extract_lets -merge -useContext +onlyGivenNames a24
        have h25 : Kept s₀ a24 := by
          unfold a24
          apply Kept.mk_
          exact h22
        clear_value a24
        refine KeptQ.some ?_
        apply State.leaves_kept
        exact h25

theorem State.requestBank_kept {s₀ s : State} (h : Kept s₀ s) (b : Nat) :
    Kept s₀ (State.requestBank s b) := by
  unfold State.requestBank
  refine Kept.ite_ ?_ ?_
  · apply State.set_kept
    apply State.set_kept
    exact h
  · apply State.raise_kept
    exact h

theorem State.writeSpare_kept {s₀ s : State} (h : Kept s₀ s) (v : Word) :
    Kept s₀ (State.writeSpare s v) := by
  unfold State.writeSpare
  extract_lets -merge -useContext +onlyGivenNames a1
  have h2 : Kept s₀ a1 := by
    unfold a1
    apply State.set_kept
    apply State.set_kept
    apply State.set_kept
    exact h
  clear_value a1
  refine Kept.ite_ ?_ ?_
  · apply State.requestBank_kept
    exact h2
  · exact h2

theorem execBankSpareGo_kept {s₀ s : State} (h : Kept s₀ s) (v : Word) :
    KeptR s₀ (execBankSpareGo v s) := by
  unfold execBankSpareGo
  refine KeptR.next ?_
  apply State.writeSpare_kept
  exact h

theorem State.drainBank_kept {s₀ s : State} (h : Kept s₀ s) :
    Kept s₀ (State.drainBank s) := by
  unfold State.drainBank
  refine Kept.ite_ ?_ ?_
  · extract_lets -merge -useContext +onlyGivenNames a1
    clear_value a1
    apply State.set_kept
    refine State.each_kept _ _ ?_ ?_
    · exact h
    · intro a2 x3 h4
      refine State.each_kept _ _ ?_ ?_
      · exact h4
      · intro a5 x6 h7
        apply State.setXp_kept
        exact h7
  · exact h

theorem execXbarSpareIn_kept {s₀ s : State} (h : Kept s₀ s) :
    KeptR s₀ (execXbarSpareIn s) := by
  unfold execXbarSpareIn
  extract_lets -merge -useContext +onlyGivenNames a1
  clear_value a1
  extract_lets -merge -useContext +onlyGivenNames a2
  clear_value a2
  refine KeptR.next ?_
  refine Kept.ite_ ?_ ?_
  · apply State.raise_kept
    apply State.set_kept
    exact h
  · exact h

theorem State.bankError_kept {s₀ s : State} (h : Kept s₀ s) (b : Nat) :
    Kept s₀ (State.bankError s b) := by
  unfold State.bankError
  extract_lets -merge -useContext +onlyGivenNames a1
  extract_lets -merge -useContext +onlyGivenNames a2
  extract_lets -merge -useContext +onlyGivenNames a3
  have h4 : Kept s₀ a3 := by
    unfold a3
    apply Kept.mk_
    exact h
  extract_lets -merge -useContext +onlyGivenNames a5
  have h6 : Kept s₀ a5 := by
    unfold a5
    apply State.inc_kept
    exact h4
  refine Kept.ite_ ?_ ?_
  · extract_lets -merge -useContext +onlyGivenNames a7
    clear_value a7
    extract_lets -merge -useContext +onlyGivenNames a8
    have h9 : Kept s₀ a8 := by
      unfold a8
      apply State.raise_kept
      apply Kept.mk_
      exact h6
    clear_value a8
    refine Kept.ite_ ?_ ?_
    · apply State.requestBank_kept
      exact h9
    · exact h9
  · exact h6

end Sys2Proof.Machine
end

