-- ==== Sys2Proof/Laws/KeptRing.lean ====
section
/-! SUPPORT. What the operations of `Machine/Ring.lean` keep: the queue, the direction of the clock, sound
stores. -/

namespace Sys2Proof.Machine

theorem State.setRlane_kept {s₀ s : State} (h : Kept s₀ s) (p l : Nat) (x : RLane) :
    Kept s₀ (State.setRlane s p l x) := by
  unfold State.setRlane
  extract_lets -merge -useContext +onlyGivenNames a1
  clear_value a1
  apply State.setRport_kept
  exact h

theorem State.refillPool_kept {s₀ s : State} (h : Kept s₀ s) :
    Kept s₀ (State.refillPool s) := by
  unfold State.refillPool
  refine Kept.ite_ ?_ ?_
  · apply State.draw_kept
    apply State.set_kept
    exact h
  · exact h

theorem State.takeNonce_kept {s₀ s : State} (h : Kept s₀ s) (p : Nat) :
    Kept s₀ (State.takeNonce s p) := by
  unfold State.takeNonce
  refine Kept.ite_ ?_ ?_
  · apply Kept.mk_
    exact h
  · extract_lets -merge -useContext +onlyGivenNames a1
    have h2 : Kept s₀ a1 := by
      unfold a1
      apply State.set_kept
      exact h
    clear_value a1
    extract_lets -merge -useContext +onlyGivenNames a3
    clear_value a3
    extract_lets -merge -useContext +onlyGivenNames a4
    clear_value a4
    extract_lets -merge -useContext +onlyGivenNames a5
    have h6 : Kept s₀ a5 := by
      unfold a5
      apply State.draw_kept
      apply State.setRport_kept
      exact h2
    clear_value a5
    apply Kept.mk_
    exact h6

theorem State.drawNonce_kept {s₀ s : State} (h : Kept s₀ s) (p : Nat) :
    Kept s₀ (State.drawNonce s p) := by
  unfold State.drawNonce
  refine Kept.ite_ ?_ ?_
  · exact h
  · extract_lets -merge -useContext +onlyGivenNames a1
    clear_value a1
    extract_lets -merge -useContext +onlyGivenNames a2
    have h3 : Kept s₀ a2 := by
      unfold a2
      apply State.setRport_kept
      apply State.set_kept
      exact h
    clear_value a2
    apply State.takeNonce_kept
    apply State.refillPool_kept
    exact h3

theorem State.serveNonces_kept {s₀ s : State} (h : Kept s₀ s) :
    Kept s₀ (State.serveNonces s) := by
  unfold State.serveNonces
  refine Kept.ite_ ?_ ?_
  · exact h
  · refine Kept.foldl _ _ ?_ ?_
    · apply State.refillPool_kept
      exact h
    · intro x1 a2 h3
      apply State.takeNonce_kept
      exact h3

theorem State.mapLane_kept {s₀ s : State} (h : Kept s₀ s) (p q l : Nat) :
    Kept s₀ (State.mapLane s p q l) := by
  unfold State.mapLane
  extract_lets -merge -useContext +onlyGivenNames a1
  clear_value a1
  apply State.set_kept
  exact h

theorem State.sendLink_kept {s₀ s : State} (h : Kept s₀ s) (p : Nat) (ws : List Word) :
    Kept s₀ (State.sendLink s p ws) := by
  unfold State.sendLink
  refine Kept.ite_ ?_ ?_
  · exact h
  · refine Kept.ite_ ?_ ?_
    · apply State.emitLink_kept
      apply Kept.mk_
      exact h
    · apply State.sendFor_kept
      exact h

theorem State.subsChanged_kept {s₀ s : State} (h : Kept s₀ s) (p old new_ : Nat) :
    Kept s₀ (State.subsChanged s p old new_) := by
  unfold State.subsChanged
  refine Kept.ite_ ?_ ?_
  · exact h
  · refine Kept.ite_ ?_ ?_
    · extract_lets -merge -useContext +onlyGivenNames a1
      have h2 : Kept s₀ a1 := by
        unfold a1
        refine Kept.ite_ ?_ ?_
        · apply State.drawNonce_kept
          exact h
        · exact h
      clear_value a1
      apply State.startHold_kept
      exact h2
    · refine Kept.ite_ ?_ ?_
      · apply State.portReturns_kept
        exact h
      · apply State.rehome_kept
        exact h

theorem State.judgeSubs_kept {s₀ s : State} (h : Kept s₀ s) (p : Nat) :
    Kept s₀ (State.judgeSubs s p) := by
  unfold State.judgeSubs
  extract_lets -merge -useContext +onlyGivenNames a1
  clear_value a1
  extract_lets -merge -useContext +onlyGivenNames a2
  extract_lets -merge -useContext +onlyGivenNames a3
  clear_value a3
  extract_lets -merge -useContext +onlyGivenNames a4
  clear_value a4
  extract_lets -merge -useContext +onlyGivenNames a5
  have h6 : Kept s₀ a5 := by
    unfold a5
    apply State.set_kept
    exact h
  clear_value a5
  extract_lets -merge -useContext +onlyGivenNames a7
  have h8 : Kept s₀ a7 := by
    unfold a7
    refine State.each_kept _ _ ?_ ?_
    · exact h6
    · intro a9 x10 h11
      refine Kept.ite_ ?_ ?_
      · apply State.raiseLevel_kept
        exact h11
      · refine Kept.ite_ ?_ ?_
        · apply State.endLevel_kept
          exact h11
        · exact h11
  clear_value a7
  extract_lets -merge -useContext +onlyGivenNames a12
  have h13 : Kept s₀ a12 := by
    unfold a12
    refine Kept.ite_ ?_ ?_
    · exact h8
    · refine State.each_kept _ _ ?_ ?_
      · exact h8
      · intro a14 x15 h16
        apply State.endLevel_kept
        exact h16
  clear_value a12
  extract_lets -merge -useContext +onlyGivenNames a17
  clear_value a17
  extract_lets -merge -useContext +onlyGivenNames a18
  have h19 : Kept s₀ a18 := by
    unfold a18
    refine Kept.ite_ ?_ ?_
    · exact h13
    · apply State.setRport_kept
      exact h13
  clear_value a18
  apply State.subsChanged_kept
  exact h19

theorem State.requestLane_kept {s₀ s : State} (h : Kept s₀ s) (p q : Nat) :
    Kept s₀ (State.requestLane s p q) := by
  unfold State.requestLane
  apply State.setRport_kept
  apply State.set_kept
  apply State.set_kept
  exact h

theorem State.laneGo_kept {s₀ s : State} (h : Kept s₀ s) (p q : Nat) :
    Kept s₀ (State.laneGo s p q) := by
  unfold State.laneGo
  refine Kept.ite_ ?_ ?_
  · apply State.requestLane_kept
    exact h
  · exact h

theorem State.laneCancel_kept {s₀ s : State} (h : Kept s₀ s) (p : Nat) :
    Kept s₀ (State.laneCancel s p) := by
  unfold State.laneCancel
  extract_lets -merge -useContext +onlyGivenNames a1
  clear_value a1
  refine Kept.ite_ ?_ ?_
  · apply State.set_kept
    exact h
  · exact h

theorem State.laneFail_kept {s₀ s : State} (h : Kept s₀ s) (p : Nat) :
    Kept s₀ (State.laneFail s p) := by
  unfold State.laneFail
  apply State.raise_kept
  apply State.set_kept
  exact h

theorem State.laneBack_kept {s₀ s : State} (h : Kept s₀ s) (p : Nat) :
    Kept s₀ (State.laneBack s p) := by
  unfold State.laneBack
  refine Kept.ite_ ?_ ?_
  · exact h
  · refine Kept.ite_ ?_ ?_
    · apply State.setRport_kept
      exact h
    · apply State.laneFail_kept
      exact h

theorem State.writeRingSwap_kept {s₀ s : State} (h : Kept s₀ s) (p : Nat) (v : Word) :
    Kept s₀ (State.writeRingSwap s p v) := by
  unfold State.writeRingSwap
  extract_lets -merge -useContext +onlyGivenNames a1
  have h2 : Kept s₀ a1 := by
    unfold a1
    apply State.set_kept
    exact h
  clear_value a1
  extract_lets -merge -useContext +onlyGivenNames a3
  have h4 : Kept s₀ a3 := by
    unfold a3
    refine Kept.ite_ ?_ ?_
    · apply State.laneGo_kept
      exact h2
    · exact h2
  clear_value a3
  extract_lets -merge -useContext +onlyGivenNames a5
  have h6 : Kept s₀ a5 := by
    unfold a5
    refine Kept.ite_ ?_ ?_
    · apply State.laneCancel_kept
      exact h4
    · exact h4
  clear_value a5
  refine Kept.ite_ ?_ ?_
  · apply State.laneBack_kept
    exact h6
  · exact h6

theorem State.mapSpare_kept {s₀ s : State} (h : Kept s₀ s) (p : Nat) :
    Kept s₀ (State.mapSpare s p) := by
  unfold State.mapSpare
  extract_lets -merge -useContext +onlyGivenNames a1
  clear_value a1
  extract_lets -merge -useContext +onlyGivenNames a2
  have h3 : Kept s₀ a2 := by
    unfold a2
    apply State.set_kept
    apply State.set_kept
    apply State.mapLane_kept
    exact h
  clear_value a2
  apply State.judgeSubs_kept
  apply State.raise_kept
  exact h3

theorem State.mapOwn_kept {s₀ s : State} (h : Kept s₀ s) (p : Nat) :
    Kept s₀ (State.mapOwn s p) := by
  unfold State.mapOwn
  extract_lets -merge -useContext +onlyGivenNames a1
  clear_value a1
  extract_lets -merge -useContext +onlyGivenNames a2
  have h3 : Kept s₀ a2 := by
    unfold a2
    apply State.set_kept
    apply State.mapLane_kept
    exact h
  clear_value a2
  apply State.judgeSubs_kept
  apply State.setRport_kept
  exact h3

theorem State.degrade_kept {s₀ s : State} (h : Kept s₀ s) (p l : Nat) :
    Kept s₀ (State.degrade s p l) := by
  unfold State.degrade
  extract_lets -merge -useContext +onlyGivenNames a1
  have h2 : Kept s₀ a1 := by
    unfold a1
    apply State.raiseLevel_kept
    apply State.set_kept
    exact h
  clear_value a1
  split
  · rename_i a3 e4
    exact h2
  · rename_i a5 a6 e7
    refine Kept.ite_ ?_ ?_
    · refine Kept.ite_ ?_ ?_
      · apply State.requestLane_kept
        exact h2
      · exact h2
    · refine Kept.ite_ ?_ ?_
      · exact h2
      · apply State.raise_kept
        exact h2

theorem State.laneDown_kept {s₀ s : State} (h : Kept s₀ s) (p l : Nat) :
    Kept s₀ (State.laneDown s p l) := by
  unfold State.laneDown
  extract_lets -merge -useContext +onlyGivenNames a1
  clear_value a1
  extract_lets -merge -useContext +onlyGivenNames a2
  clear_value a2
  extract_lets -merge -useContext +onlyGivenNames a3
  have h4 : Kept s₀ a3 := by
    unfold a3
    apply State.setRlane_kept
    exact h
  clear_value a3
  refine Kept.ite_ ?_ ?_
  · exact h4
  · extract_lets -merge -useContext +onlyGivenNames a5
    have h6 : Kept s₀ a5 := by
      unfold a5
      apply State.endLevel_kept
      apply State.set_kept
      exact h4
    clear_value a5
    extract_lets -merge -useContext +onlyGivenNames a7
    have h8 : Kept s₀ a7 := by
      unfold a7
      apply State.raiseLevel_kept
      exact h6
    clear_value a7
    extract_lets -merge -useContext +onlyGivenNames a9
    clear_value a9
    extract_lets -merge -useContext +onlyGivenNames a10
    have h11 : Kept s₀ a10 := by
      unfold a10
      apply State.setRport_kept
      exact h8
    clear_value a10
    extract_lets -merge -useContext +onlyGivenNames a12
    clear_value a12
    refine Kept.ite_ ?_ ?_
    · apply State.mapSpare_kept
      exact h11
    · refine Kept.ite_ ?_ ?_
      · apply State.mapOwn_kept
        exact h11
      · apply State.judgeSubs_kept
        refine Kept.ite_ ?_ ?_
        · apply State.set_kept
          exact h11
        · exact h11

theorem execLaneDown_kept {s₀ s : State} (h : Kept s₀ s) (p : Fin 4) (l : Fin 9) :
    KeptR s₀ (execLaneDown p l s) := by
  unfold execLaneDown
  refine KeptR.next ?_
  apply State.laneDown_kept
  exact h

theorem execTrainFail_kept {s₀ s : State} (h : Kept s₀ s) (p : Fin 4) (l : Fin 9) :
    KeptR s₀ (execTrainFail p l s) := by
  unfold execTrainFail
  extract_lets -merge -useContext +onlyGivenNames a1
  clear_value a1
  extract_lets -merge -useContext +onlyGivenNames a2
  clear_value a2
  refine KeptR.ite_ ?_ ?_
  · refine KeptR.next ?_
    apply State.raiseLevel_kept
    apply State.setRport_kept
    exact h
  · refine KeptR.next ?_
    exact h

theorem State.laneLocks_kept {s₀ s : State} (h : Kept s₀ s) (p l : Nat) :
    Kept s₀ (State.laneLocks s p l) := by
  unfold State.laneLocks
  extract_lets -merge -useContext +onlyGivenNames a1
  clear_value a1
  extract_lets -merge -useContext +onlyGivenNames a2
  have h3 : Kept s₀ a2 := by
    unfold a2
    apply State.setRport_kept
    apply State.set_kept
    exact h
  clear_value a2
  apply State.endLevel_kept
  apply State.endLevel_kept
  exact h3

theorem State.laneWord_kept {s₀ s : State} (h : Kept s₀ s) (p l : Nat) (lw : BitVec 20) :
    Kept s₀ (State.laneWord s p l lw) := by
  unfold State.laneWord
  extract_lets -merge -useContext +onlyGivenNames a1
  clear_value a1
  extract_lets -merge -useContext +onlyGivenNames a2
  clear_value a2
  extract_lets -merge -useContext +onlyGivenNames a3
  clear_value a3
  extract_lets -merge -useContext +onlyGivenNames a4
  clear_value a4
  extract_lets -merge -useContext +onlyGivenNames a5
  clear_value a5
  extract_lets -merge -useContext +onlyGivenNames a6
  clear_value a6
  extract_lets -merge -useContext +onlyGivenNames a7
  have h8 : Kept s₀ a7 := by
    unfold a7
    refine Kept.ite_ ?_ ?_
    · apply State.laneLocks_kept
      exact h
    · exact h
  clear_value a7
  refine Kept.ite_ ?_ ?_
  · apply State.setRlane_kept
    exact h8
  · extract_lets -merge -useContext +onlyGivenNames a9
    clear_value a9
    extract_lets -merge -useContext +onlyGivenNames a10
    have h11 : Kept s₀ a10 := by
      unfold a10
      apply State.setRlane_kept
      exact h8
    clear_value a10
    refine Kept.ite_ ?_ ?_
    · apply State.setRport_kept
      exact h11
    · exact h11

theorem State.sendLaneWord_kept {s₀ s : State} (h : Kept s₀ s) (p l : Nat) :
    Kept s₀ (State.sendLaneWord s p l) := by
  unfold State.sendLaneWord
  extract_lets -merge -useContext +onlyGivenNames a1
  clear_value a1
  apply State.setRlane_kept
  apply State.emit_kept
  exact h

theorem State.judgeMargin_kept {s₀ s : State} (h : Kept s₀ s) (p l : Nat) :
    Kept s₀ (State.judgeMargin s p l) := by
  unfold State.judgeMargin
  extract_lets -merge -useContext +onlyGivenNames a1
  clear_value a1
  refine Kept.ite_ ?_ ?_
  · apply State.degrade_kept
    exact h
  · exact h

theorem State.uncorrectable_kept {s₀ s : State} (h : Kept s₀ s) (p l : Nat) :
    Kept s₀ (State.uncorrectable s p l) := by
  unfold State.uncorrectable
  extract_lets -merge -useContext +onlyGivenNames a1
  have h2 : Kept s₀ a1 := by
    unfold a1
    apply State.inc_kept
    exact h
  extract_lets -merge -useContext +onlyGivenNames a3
  extract_lets -merge -useContext +onlyGivenNames a4
  clear_value a4
  extract_lets -merge -useContext +onlyGivenNames a5
  refine Kept.ite_ ?_ ?_
  · apply State.laneDown_kept
    exact h2
  · apply State.setRlane_kept
    exact h2

theorem execCodewordReceived_kept {s₀ s : State} (h : Kept s₀ s) (p : Fin 4) (l : Fin 9) (w : Codeword) (eye : BitVec 8) :
    KeptR s₀ (execCodewordReceived p l w eye s) := by
  unfold execCodewordReceived
  extract_lets -merge -useContext +onlyGivenNames a1
  clear_value a1
  extract_lets -merge -useContext +onlyGivenNames a2
  clear_value a2
  refine KeptR.ite_ ?_ ?_
  · refine KeptR.next ?_
    exact h
  · extract_lets -merge -useContext +onlyGivenNames a3
    have h4 : Kept s₀ a3 := by
      unfold a3
      apply State.set_kept
      exact h
    clear_value a3
    extract_lets -merge -useContext +onlyGivenNames a5
    have h6 : Kept s₀ a5 := by
      unfold a5
      split
      · rename_i a7
        apply State.uncorrectable_kept
        exact h4
      · rename_i a8 a9 a10
        extract_lets -merge -useContext +onlyGivenNames a11
        have h12 : Kept s₀ a11 := by
          unfold a11
          apply State.addSat_kept
          exact h4
        clear_value a11
        extract_lets -merge -useContext +onlyGivenNames a13
        clear_value a13
        apply State.laneWord_kept
        apply State.setRlane_kept
        exact h12
    clear_value a5
    refine KeptR.next ?_
    apply State.sendLaneWord_kept
    apply State.judgeSubs_kept
    apply State.judgeMargin_kept
    exact h6

theorem execLaneSwapGo_kept {s₀ s : State} (h : Kept s₀ s) (p : Fin 4) (q : Fin 8) :
    KeptR s₀ (execLaneSwapGo p q s) := by
  unfold execLaneSwapGo
  refine KeptR.next ?_
  apply State.laneGo_kept
  apply State.set_kept
  exact h

theorem execCopyLocked_kept {s₀ s : State} (h : Kept s₀ s) (p : Fin 4) :
    KeptR s₀ (execCopyLocked p s) := by
  unfold execCopyLocked
  extract_lets -merge -useContext +onlyGivenNames a1
  clear_value a1
  refine KeptR.next ?_
  refine Kept.ite_ ?_ ?_
  · apply State.set_kept
    exact h
  · exact h

theorem execLaneSwapFail_kept {s₀ s : State} (h : Kept s₀ s) (p : Fin 4) :
    KeptR s₀ (execLaneSwapFail p s) := by
  unfold execLaneSwapFail
  extract_lets -merge -useContext +onlyGivenNames a1
  clear_value a1
  refine KeptR.next ?_
  refine Kept.ite_ ?_ ?_
  · apply State.set_kept
    apply State.laneFail_kept
    exact h
  · exact h

theorem execLaneSwapBack_kept {s₀ s : State} (h : Kept s₀ s) (p : Fin 4) :
    KeptR s₀ (execLaneSwapBack p s) := by
  unfold execLaneSwapBack
  refine KeptR.next ?_
  apply State.laneBack_kept
  exact h

theorem execLaneSwapCancel_kept {s₀ s : State} (h : Kept s₀ s) (p : Fin 4) :
    KeptR s₀ (execLaneSwapCancel p s) := by
  unfold execLaneSwapCancel
  refine KeptR.next ?_
  apply State.laneCancel_kept
  exact h

theorem State.writeRingCtl_kept {s₀ s : State} (h : Kept s₀ s) (p : Nat) (v : Word) :
    Kept s₀ (State.writeRingCtl s p v) := by
  unfold State.writeRingCtl
  extract_lets -merge -useContext +onlyGivenNames a1
  clear_value a1
  extract_lets -merge -useContext +onlyGivenNames a2
  clear_value a2
  extract_lets -merge -useContext +onlyGivenNames a3
  have h4 : Kept s₀ a3 := by
    unfold a3
    apply State.set_kept
    apply State.set_kept
    apply State.set_kept
    exact h
  clear_value a3
  extract_lets -merge -useContext +onlyGivenNames a5
  have h6 : Kept s₀ a5 := by
    unfold a5
    apply State.set_kept
    exact h4
  clear_value a5
  extract_lets -merge -useContext +onlyGivenNames a7
  clear_value a7
  extract_lets -merge -useContext +onlyGivenNames a8
  have h9 : Kept s₀ a8 := by
    unfold a8
    refine Kept.ite_ ?_ ?_
    · apply State.drawNonce_kept
      exact h6
    · refine Kept.ite_ ?_ ?_
      · apply State.endLevel_kept
        apply State.setRport_kept
        apply State.set_kept
        exact h6
      · exact h6
  clear_value a8
  extract_lets -merge -useContext +onlyGivenNames a10
  clear_value a10
  extract_lets -merge -useContext +onlyGivenNames a11
  have h12 : Kept s₀ a11 := by
    unfold a11
    refine Kept.ite_ ?_ ?_
    · apply State.setRport_kept
      exact h9
    · refine Kept.ite_ ?_ ?_
      · refine State.each_kept _ _ ?_ ?_
        · exact h9
        · intro a13 x14 h15
          apply State.endLevel_kept
          apply State.laneDown_kept
          exact h15
      · exact h9
  clear_value a11
  apply State.judgeSubs_kept
  exact h12

theorem State.retrainLanes_kept {s₀ s : State} (h : Kept s₀ s) :
    Kept s₀ (State.retrainLanes s) := by
  unfold State.retrainLanes
  refine State.each_kept _ _ ?_ ?_
  · exact h
  · intro a1 x2 h3
    extract_lets -merge -useContext +onlyGivenNames a4
    have h5 : Kept s₀ a4 := by
      unfold a4
      refine State.each_kept _ _ ?_ ?_
      · exact h3
      · intro a6 x7 h8
        apply State.laneDown_kept
        exact h8
    clear_value a4
    refine Kept.ite_ ?_ ?_
    · apply State.setRport_kept
      exact h5
    · exact h5

theorem execKeyExchangeReceived_kept {s₀ s : State} (h : Kept s₀ s) (p : Fin 4) (ws : List Word) :
    KeptR s₀ (execKeyExchangeReceived p ws s) := by
  unfold execKeyExchangeReceived
  refine KeptR.ite_ ?_ ?_
  · exact KeptR.fault _ _
  · refine KeptR.ite_ ?_ ?_
    · refine KeptR.next ?_
      exact h
    · extract_lets -merge -useContext +onlyGivenNames a1
      clear_value a1
      extract_lets -merge -useContext +onlyGivenNames a2
      clear_value a2
      refine KeptR.ite_ ?_ ?_
      · refine KeptR.next ?_
        exact h
      · refine KeptR.next ?_
        apply State.setRport_kept
        exact h

theorem execSealFail_kept {s₀ s : State} (h : Kept s₀ s) (p : Fin 4) :
    KeptR s₀ (execSealFail p s) := by
  unfold execSealFail
  extract_lets -merge -useContext +onlyGivenNames a1
  clear_value a1
  split
  · rename_i a2 e3
    refine KeptR.next ?_
    exact h
  · rename_i a4 a5 e6
    refine KeptR.next ?_
    refine Kept.ite_ ?_ ?_
    · apply State.raiseLevel_kept
      apply State.setRport_kept
      exact h
    · exact h

theorem State.ringCycle_kept {s₀ s : State} (h : Kept s₀ s) (p : Nat) (expected : Bool) :
    Kept s₀ (State.ringCycle s p expected) := by
  unfold State.ringCycle
  extract_lets -merge -useContext +onlyGivenNames a1
  clear_value a1
  extract_lets -merge -useContext +onlyGivenNames a2
  clear_value a2
  extract_lets -merge -useContext +onlyGivenNames a3
  clear_value a3
  extract_lets -merge -useContext +onlyGivenNames a4
  have h5 : Kept s₀ a4 := by
    unfold a4
    apply State.setRport_kept
    exact h
  clear_value a4
  extract_lets -merge -useContext +onlyGivenNames a6
  clear_value a6
  extract_lets -merge -useContext +onlyGivenNames a7
  have h8 : Kept s₀ a7 := by
    unfold a7
    apply State.setB_kept
    exact h5
  clear_value a7
  refine Kept.ite_ ?_ ?_
  · extract_lets -merge -useContext +onlyGivenNames a9
    have h10 : Kept s₀ a9 := by
      unfold a9
      apply State.raiseLevel_kept
      apply State.setB_kept
      exact h8
    clear_value a9
    apply State.endHold_kept
    apply State.rehome_kept
    apply State.setRport_kept
    exact h10
  · exact h8

theorem State.keyCycle_kept {s₀ s : State} (h : Kept s₀ s) (p : Nat) :
    Kept s₀ (State.keyCycle s p) := by
  unfold State.keyCycle
  split
  · rename_i a1 a2 e3
    refine Kept.ite_ ?_ ?_
    · apply State.sendLink_kept
      exact h
    · exact h
  · rename_i a4 e5
    exact h

theorem State.ringBoundary_kept {s₀ s : State} (h : Kept s₀ s) (p : Nat) :
    Kept s₀ (State.ringBoundary s p) := by
  unfold State.ringBoundary
  extract_lets -merge -useContext +onlyGivenNames a1
  clear_value a1
  extract_lets -merge -useContext +onlyGivenNames a2
  have h3 : Kept s₀ a2 := by
    unfold a2
    refine Kept.ite_ ?_ ?_
    · apply State.mapSpare_kept
      exact h
    · refine Kept.ite_ ?_ ?_
      · refine Kept.ite_ ?_ ?_
        · apply State.mapOwn_kept
          exact h
        · apply State.laneFail_kept
          apply State.setRport_kept
          exact h
      · exact h
  clear_value a2
  extract_lets -merge -useContext +onlyGivenNames a4
  have h5 : Kept s₀ a4 := by
    unfold a4
    refine Kept.ite_ ?_ ?_
    · apply State.raise_kept
      apply State.endLevel_kept
      apply State.setB_kept
      apply State.setB_kept
      exact h3
    · exact h3
  clear_value a4
  extract_lets -merge -useContext +onlyGivenNames a6
  clear_value a6
  extract_lets -merge -useContext +onlyGivenNames a7
  clear_value a7
  extract_lets -merge -useContext +onlyGivenNames a8
  have h9 : Kept s₀ a8 := by
    unfold a8
    refine Kept.ite_ ?_ ?_
    · apply State.raise_kept
      apply State.endLevel_kept
      apply State.set_kept
      apply State.setRport_kept
      exact h5
    · refine Kept.ite_ ?_ ?_
      · refine Kept.ite_ ?_ ?_
        · apply State.setRport_kept
          exact h5
        · apply State.setRport_kept
          exact h5
      · exact h5
  clear_value a8
  extract_lets -merge -useContext +onlyGivenNames a10
  clear_value a10
  apply State.setRport_kept
  exact h9

end Sys2Proof.Machine
end

