-- ==== Sys2Proof/Laws/KeptModes.lean ====
section
/-! SUPPORT. What the operations of `Machine/Modes.lean` keep: the queue, the direction of the clock, sound
stores. -/

namespace Sys2Proof.Machine

theorem State.takeMode_kept {s₀ s : State} (h : Kept s₀ s) (m old : Nat) :
    Kept s₀ (State.takeMode s m old) := by
  unfold State.takeMode
  apply State.raise_kept
  apply State.set_kept
  apply State.kpWrite_kept
  exact h

theorem State.baysHold_kept {s₀ s : State} (h : Kept s₀ s) :
    Kept s₀ (State.baysHold s) := by
  unfold State.baysHold
  refine State.each_kept _ _ ?_ ?_
  · exact h
  · intro a1 x2 h3
    apply State.bayHold_kept
    exact h3

theorem State.chainsHold_kept {s₀ s : State} (h : Kept s₀ s) :
    Kept s₀ (State.chainsHold s) := by
  unfold State.chainsHold
  refine State.each_kept _ _ ?_ ?_
  · exact h
  · intro a1 x2 h3
    apply State.dropLatches_kept
    exact h3

theorem State.modeSets_kept {s₀ s : State} (h : Kept s₀ s) (m old : Nat) :
    Kept s₀ (State.modeSets s m old) := by
  unfold State.modeSets
  refine Kept.ite_ ?_ ?_
  · apply State.set_kept
    exact h
  · refine Kept.ite_ ?_ ?_
    · apply State.retrainLanes_kept
      apply State.clearRun_kept
      exact h
    · refine Kept.ite_ ?_ ?_
      · extract_lets -merge -useContext +onlyGivenNames a1
        have h2 : Kept s₀ a1 := by
          unfold a1
          apply State.chainsHold_kept
          apply State.baysHold_kept
          apply State.clearRun_kept
          exact h
        clear_value a1
        extract_lets -merge -useContext +onlyGivenNames a3
        have h4 : Kept s₀ a3 := by
          unfold a3
          refine Kept.ite_ ?_ ?_
          · apply State.retrainLanes_kept
            exact h2
          · exact h2
        clear_value a3
        refine State.each_kept _ _ ?_ ?_
        · exact h4
        · intro a5 x6 h7
          apply State.drawNonce_kept
          exact h7
      · refine Kept.ite_ ?_ ?_
        · extract_lets -merge -useContext +onlyGivenNames a8
          have h9 : Kept s₀ a8 := by
            unfold a8
            apply State.chainsHold_kept
            apply State.baysHold_kept
            apply State.clearRun_kept
            exact h
          clear_value a8
          apply State.feedsHold_kept
          refine State.each_kept _ _ ?_ ?_
          · exact h9
          · intro a10 x11 h12
            apply State.mbHold_kept
            exact h12
        · exact h

theorem State.enterMode_kept {s₀ s : State} (h : Kept s₀ s) (m : Nat) :
    Kept s₀ (State.enterMode s m) := by
  unfold State.enterMode
  extract_lets -merge -useContext +onlyGivenNames a1
  have h2 : Kept s₀ a1 := by
    unfold a1
    refine State.each_kept _ _ ?_ ?_
    · exact h
    · intro a3 x4 h5
      apply State.settleBay_kept
      exact h5
  clear_value a1
  extract_lets -merge -useContext +onlyGivenNames a6
  clear_value a6
  extract_lets -merge -useContext +onlyGivenNames a7
  clear_value a7
  extract_lets -merge -useContext +onlyGivenNames a8
  have h9 : Kept s₀ a8 := by
    unfold a8
    apply State.modeSets_kept
    apply State.takeMode_kept
    exact h2
  clear_value a8
  extract_lets -merge -useContext +onlyGivenNames a10
  have h11 : Kept s₀ a10 := by
    unfold a10
    refine Kept.foldl _ _ ?_ ?_
    · exact h9
    · intro x12 a13 h14
      apply State.settlePads_kept
      exact h14
  clear_value a10
  refine State.each_kept _ _ ?_ ?_
  · refine State.each_kept _ _ ?_ ?_
    · exact h11
    · intro a15 x16 h17
      apply State.mbOffer_kept
      exact h17
  · intro a18 x19 h20
    apply State.macJudge_kept
    exact h20

theorem State.holdRequested_kept {s₀ s : State} (h : Kept s₀ s) (keystone : Bool) :
    Kept s₀ (State.holdRequested s keystone) := by
  unfold State.holdRequested
  refine Kept.ite_ ?_ ?_
  · extract_lets -merge -useContext +onlyGivenNames a1
    clear_value a1
    extract_lets -merge -useContext +onlyGivenNames a2
    have h3 : Kept s₀ a2 := by
      unfold a2
      apply Kept.mk_
      exact h
    clear_value a2
    apply State.enterMode_kept
    exact h3
  · exact h

theorem State.redState_kept {s₀ s : State} (h : Kept s₀ s) (st : Nat) :
    Kept s₀ (State.redState s st) := by
  unfold State.redState
  extract_lets -merge -useContext +onlyGivenNames a1
  have h2 : Kept s₀ a1 := by
    unfold a1
    apply State.endLevel_kept
    apply State.set_kept
    exact h
  clear_value a1
  extract_lets -merge -useContext +onlyGivenNames a3
  clear_value a3
  extract_lets -merge -useContext +onlyGivenNames a4
  have h5 : Kept s₀ a4 := by
    unfold a4
    apply Kept.mk_
    exact h2
  clear_value a4
  apply Kept.mk_
  exact h5

theorem State.tryLeaveJoin_kept {s₀ s : State} (h : Kept s₀ s) :
    Kept s₀ (State.tryLeaveJoin s) := by
  unfold State.tryLeaveJoin
  refine Kept.ite_ ?_ ?_
  · refine Kept.ite_ ?_ ?_
    · apply State.redState_kept
      apply State.enterMode_kept
      exact h
    · apply State.redState_kept
      apply State.enterMode_kept
      exact h
  · exact h

theorem State.hubReset_kept {s₀ s : State} (h : Kept s₀ s) (cause : Nat) (toRecovery : Bool) :
    Kept s₀ (State.hubReset s cause toRecovery) :=
  h.same rfl rfl fun w =>
    ⟨w.mem, Tab.rising_put _ _ _ (Tab.rising_put _ _ _ (Tab.rising_put _ _ _ (Tab.rising_put _ _ _
      (Tab.rising_put _ _ _ List.Pairwise.nil)))), Nat.zero_le _, Nat.zero_le _, List.nodup_nil, Nat.zero_le _,
      Nat.zero_le _⟩

end Sys2Proof.Machine
end

