-- ==== Sys2Proof/Laws/KeptPhase.lean ====
section
/-! SUPPORT. What the operations of `Machine/Phase.lean` keep: the queue, the direction of the clock, sound
stores. -/

namespace Sys2Proof.Machine

theorem State.losePhase_kept {s₀ s : State} (h : Kept s₀ s) (d st : Nat) :
    Kept s₀ (State.losePhase s d st) := by
  unfold State.losePhase
  extract_lets -merge -useContext +onlyGivenNames a1
  clear_value a1
  extract_lets -merge -useContext +onlyGivenNames a2
  have h3 : Kept s₀ a2 := by
    unfold a2
    refine Kept.ite_ ?_ ?_
    · apply State.endPhaseWaits_kept
      apply State.withdrawDomain_kept
      apply State.setDom_kept
      exact h
    · exact h
  clear_value a2
  apply State.level_kept
  apply State.endLevel_kept
  apply State.set_kept
  exact h3

theorem State.nodeAgain_kept {s₀ s : State} (h : Kept s₀ s) (d : Nat) :
    Kept s₀ (State.nodeAgain s d) := by
  unfold State.nodeAgain
  apply State.setDom_kept
  apply State.set_kept
  exact h

theorem State.setRole_kept {s₀ s : State} (h : Kept s₀ s) (d role : Nat) :
    Kept s₀ (State.setRole s d role) := by
  unfold State.setRole
  refine Kept.ite_ ?_ ?_
  · exact h
  · extract_lets -merge -useContext +onlyGivenNames a1
    have h2 : Kept s₀ a1 := by
      unfold a1
      apply State.losePhase_kept
      exact h
    clear_value a1
    extract_lets -merge -useContext +onlyGivenNames a3
    have h4 : Kept s₀ a3 := by
      unfold a3
      apply State.endLevel_kept
      apply State.set_kept
      exact h2
    clear_value a3
    extract_lets -merge -useContext +onlyGivenNames a5
    clear_value a5
    apply State.nodeAgain_kept
    apply State.setDom_kept
    exact h4

theorem State.resumeDomain_kept {s₀ s : State} (h : Kept s₀ s) (d : Nat) :
    Kept s₀ (State.resumeDomain s d) := by
  unfold State.resumeDomain
  apply State.seqResume_kept
  apply State.endLevel_kept
  apply State.set_kept
  exact h

theorem State.ackSlip_kept {s₀ s : State} (h : Kept s₀ s) (d : Nat) :
    Kept s₀ (State.ackSlip s d) := by
  unfold State.ackSlip
  refine Kept.ite_ ?_ ?_
  · apply State.resumeDomain_kept
    apply State.setDom_kept
    exact h
  · exact h

theorem State.writePhCtl_kept {s₀ s : State} (h : Kept s₀ s) (d : Nat) (v : Word) :
    Kept s₀ (State.writePhCtl s d v) := by
  unfold State.writePhCtl
  extract_lets -merge -useContext +onlyGivenNames a1
  have h2 : Kept s₀ a1 := by
    unfold a1
    apply State.setRole_kept
    apply State.set_kept
    exact h
  clear_value a1
  refine Kept.ite_ ?_ ?_
  · apply State.ackSlip_kept
    exact h2
  · exact h2

theorem State.writePhSrc_kept {s₀ s : State} (h : Kept s₀ s) (d : Nat) (v : Word) :
    Kept s₀ (State.writePhSrc s d v) := by
  unfold State.writePhSrc
  apply State.nodeAgain_kept
  apply State.set_kept
  apply State.set_kept
  exact h

theorem State.phConfig_kept {s₀ s : State} (h : Kept s₀ s) (d off : Nat) :
    Kept s₀ (State.phConfig s d off) := by
  unfold State.phConfig
  apply State.raise_kept
  exact h

theorem execRoleWrite_kept {s₀ s : State} (h : Kept s₀ s) (d : Fin 4) (v : Word) :
    KeptR s₀ (execRoleWrite d v s) := by
  unfold execRoleWrite
  refine KeptR.next ?_
  apply State.writePhCtl_kept
  exact h

theorem execPhSrcWrite_kept {s₀ s : State} (h : Kept s₀ s) (d : Fin 4) (v : Word) :
    KeptR s₀ (execPhSrcWrite d v s) := by
  unfold execPhSrcWrite
  refine KeptR.next ?_
  apply State.writePhSrc_kept
  exact h

theorem execSlipAck_kept {s₀ s : State} (h : Kept s₀ s) (d : Fin 4) :
    KeptR s₀ (execSlipAck d s) := by
  unfold execSlipAck
  refine KeptR.next ?_
  apply State.writePhCtl_kept
  exact h

theorem State.setCounter_kept {s₀ s : State} (h : Kept s₀ s) (d c t : Nat) :
    Kept s₀ (State.setCounter s d c t) := by
  unfold State.setCounter
  apply State.setDom_kept
  exact h

theorem State.countEdge_kept {s₀ s : State} (h : Kept s₀ s) (d : Nat) (fwd : Bool) :
    Kept s₀ (State.countEdge s d fwd) := by
  unfold State.countEdge
  extract_lets -merge -useContext +onlyGivenNames a1
  clear_value a1
  extract_lets -merge -useContext +onlyGivenNames a2
  clear_value a2
  apply State.setCounter_kept
  exact h

theorem State.encError_kept {s₀ s : State} (h : Kept s₀ s) (d : Nat) :
    Kept s₀ (State.encError s d) := by
  unfold State.encError
  apply State.setDom_kept
  apply State.raise_kept
  apply State.inc_kept
  exact h

theorem execEncoderEdge_kept {s₀ s : State} (h : Kept s₀ s) (d : Fin 4) (a b : Bool) :
    KeptR s₀ (execEncoderEdge d a b s) := by
  unfold execEncoderEdge
  extract_lets -merge -useContext +onlyGivenNames a1
  clear_value a1
  extract_lets -merge -useContext +onlyGivenNames a2
  clear_value a2
  extract_lets -merge -useContext +onlyGivenNames a3
  clear_value a3
  extract_lets -merge -useContext +onlyGivenNames a4
  have h5 : Kept s₀ a4 := by
    unfold a4
    apply State.setDom_kept
    exact h
  clear_value a4
  refine KeptR.ite_ ?_ ?_
  · refine KeptR.next ?_
    exact h5
  · refine KeptR.ite_ ?_ ?_
    · refine KeptR.ite_ ?_ ?_
      · refine KeptR.next ?_
        apply State.encError_kept
        exact h5
      · refine KeptR.ite_ ?_ ?_
        · refine KeptR.next ?_
          apply State.countEdge_kept
          exact h5
        · refine KeptR.ite_ ?_ ?_
          · refine KeptR.next ?_
            apply State.countEdge_kept
            exact h5
          · refine KeptR.next ?_
            exact h5
    · refine KeptR.ite_ ?_ ?_
      · refine KeptR.next ?_
        apply State.countEdge_kept
        exact h5
      · refine KeptR.next ?_
        exact h5

theorem State.homed_kept {s₀ s : State} (h : Kept s₀ s) (d : Nat) :
    Kept s₀ (State.homed s d) := by
  unfold State.homed
  extract_lets -merge -useContext +onlyGivenNames a1
  clear_value a1
  apply State.raise_kept
  apply State.setDom_kept
  exact h

theorem execIndexEdge_kept {s₀ s : State} (h : Kept s₀ s) (d : Fin 4) :
    KeptR s₀ (execIndexEdge d s) := by
  unfold execIndexEdge
  extract_lets -merge -useContext +onlyGivenNames a1
  clear_value a1
  extract_lets -merge -useContext +onlyGivenNames a2
  clear_value a2
  extract_lets -merge -useContext +onlyGivenNames a3
  clear_value a3
  refine KeptR.ite_ ?_ ?_
  · refine KeptR.next ?_
    exact h
  · extract_lets -merge -useContext +onlyGivenNames a4
    clear_value a4
    extract_lets -merge -useContext +onlyGivenNames a5
    clear_value a5
    extract_lets -merge -useContext +onlyGivenNames a6
    clear_value a6
    extract_lets -merge -useContext +onlyGivenNames a7
    have h8 : Kept s₀ a7 := by
      unfold a7
      apply State.setDom_kept
      exact h
    clear_value a7
    refine KeptR.ite_ ?_ ?_
    · refine KeptR.next ?_
      exact h8
    · extract_lets -merge -useContext +onlyGivenNames a9
      clear_value a9
      extract_lets -merge -useContext +onlyGivenNames a10
      clear_value a10
      extract_lets -merge -useContext +onlyGivenNames a11
      have h12 : Kept s₀ a11 := by
        unfold a11
        apply State.setDom_kept
        exact h8
      clear_value a11
      extract_lets -merge -useContext +onlyGivenNames a13
      have h14 : Kept s₀ a13 := by
        unfold a13
        refine Kept.ite_ ?_ ?_
        · exact h12
        · apply State.setCounter_kept
          exact h12
      clear_value a13
      refine KeptR.next ?_
      refine Kept.ite_ ?_ ?_
      · exact h14
      · apply State.homed_kept
        exact h14

theorem State.measure_kept {s₀ s : State} (h : Kept s₀ s) (d m tm : Nat) :
    Kept s₀ (State.measure s d m tm) := by
  unfold State.measure
  extract_lets -merge -useContext +onlyGivenNames a1
  clear_value a1
  refine Kept.ite_ ?_ ?_
  · apply State.setDom_kept
    exact h
  · extract_lets -merge -useContext +onlyGivenNames a2
    clear_value a2
    extract_lets -merge -useContext +onlyGivenNames a3
    clear_value a3
    extract_lets -merge -useContext +onlyGivenNames a4
    clear_value a4
    extract_lets -merge -useContext +onlyGivenNames a5
    clear_value a5
    extract_lets -merge -useContext +onlyGivenNames a6
    clear_value a6
    extract_lets -merge -useContext +onlyGivenNames a7
    clear_value a7
    extract_lets -merge -useContext +onlyGivenNames a8
    clear_value a8
    refine Kept.ite_ ?_ ?_
    · apply State.setDom_kept
      exact h
    · apply State.raise_kept
      apply State.setDom_kept
      exact h

theorem execSsiReadStart_kept {s₀ s : State} (h : Kept s₀ s) (d : Fin 4) :
    KeptR s₀ (execSsiReadStart d s) := by
  unfold execSsiReadStart
  extract_lets -merge -useContext +onlyGivenNames a1
  clear_value a1
  extract_lets -merge -useContext +onlyGivenNames a2
  clear_value a2
  refine KeptR.ite_ ?_ ?_
  · refine KeptR.next ?_
    exact h
  · extract_lets -merge -useContext +onlyGivenNames a3
    clear_value a3
    extract_lets -merge -useContext +onlyGivenNames a4
    clear_value a4
    extract_lets -merge -useContext +onlyGivenNames a5
    have h6 : Kept s₀ a5 := by
      unfold a5
      apply State.setDom_kept
      exact h
    clear_value a5
    refine KeptR.ite_ ?_ ?_
    · refine KeptR.next ?_
      apply State.encError_kept
      exact h6
    · refine KeptR.next ?_
      apply State.setDom_kept
      exact h6

theorem execSsiReadEnd_kept {s₀ s : State} (h : Kept s₀ s) (d : Fin 4) (raw : Word) :
    KeptR s₀ (execSsiReadEnd d raw s) := by
  unfold execSsiReadEnd
  extract_lets -merge -useContext +onlyGivenNames a1
  clear_value a1
  split
  · rename_i a2 e3
    refine KeptR.next ?_
    exact h
  · rename_i a4 a5 a6 e7
    extract_lets -merge -useContext +onlyGivenNames a8
    clear_value a8
    extract_lets -merge -useContext +onlyGivenNames a9
    clear_value a9
    extract_lets -merge -useContext +onlyGivenNames a10
    clear_value a10
    extract_lets -merge -useContext +onlyGivenNames a11
    have h12 : Kept s₀ a11 := by
      unfold a11
      apply State.waitUntil_kept
      exact h
    clear_value a11
    extract_lets -merge -useContext +onlyGivenNames a13
    clear_value a13
    extract_lets -merge -useContext +onlyGivenNames a14
    clear_value a14
    extract_lets -merge -useContext +onlyGivenNames a15
    have h16 : Kept s₀ a15 := by
      unfold a15
      apply State.setDom_kept
      exact h12
    clear_value a15
    extract_lets -merge -useContext +onlyGivenNames a17
    clear_value a17
    refine KeptR.ite_ ?_ ?_
    · refine KeptR.next ?_
      apply State.encError_kept
      exact h16
    · extract_lets -merge -useContext +onlyGivenNames a18
      clear_value a18
      extract_lets -merge -useContext +onlyGivenNames a19
      clear_value a19
      extract_lets -merge -useContext +onlyGivenNames a20
      have h21 : Kept s₀ a20 := by
        unfold a20
        apply State.setDom_kept
        exact h16
      clear_value a20
      extract_lets -merge -useContext +onlyGivenNames a22
      clear_value a22
      extract_lets -merge -useContext +onlyGivenNames a23
      clear_value a23
      extract_lets -merge -useContext +onlyGivenNames a24
      clear_value a24
      extract_lets -merge -useContext +onlyGivenNames a25
      clear_value a25
      extract_lets -merge -useContext +onlyGivenNames a26
      have h27 : Kept s₀ a26 := by
        unfold a26
        refine Kept.ite_ ?_ ?_
        · apply State.homed_kept
          exact h21
        · exact h21
      clear_value a26
      refine KeptR.next ?_
      apply State.measure_kept
      exact h27

theorem execMainsEdge_kept {s₀ s : State} (h : Kept s₀ s) (d : Fin 4) :
    KeptR s₀ (execMainsEdge d s) := by
  unfold execMainsEdge
  extract_lets -merge -useContext +onlyGivenNames a1
  clear_value a1
  extract_lets -merge -useContext +onlyGivenNames a2
  clear_value a2
  refine KeptR.ite_ ?_ ?_
  · refine KeptR.next ?_
    exact h
  · extract_lets -merge -useContext +onlyGivenNames a3
    clear_value a3
    extract_lets -merge -useContext +onlyGivenNames a4
    clear_value a4
    extract_lets -merge -useContext +onlyGivenNames a5
    clear_value a5
    refine KeptR.ite_ ?_ ?_
    · refine KeptR.next ?_
      apply State.setDom_kept
      exact h
    · extract_lets -merge -useContext +onlyGivenNames a6
      clear_value a6
      extract_lets -merge -useContext +onlyGivenNames a7
      have h8 : Kept s₀ a7 := by
        unfold a7
        apply State.setDom_kept
        exact h
      clear_value a7
      refine KeptR.next ?_
      apply State.measure_kept
      exact h8

theorem State.writeSetph_kept {s₀ s : State} (h : Kept s₀ s) (d : Nat) (v : Word) :
    Kept s₀ (State.writeSetph s d v) := by
  unfold State.writeSetph
  refine Kept.ite_ ?_ ?_
  · exact h
  · extract_lets -merge -useContext +onlyGivenNames a1
    clear_value a1
    extract_lets -merge -useContext +onlyGivenNames a2
    extract_lets -merge -useContext +onlyGivenNames a3
    have h4 : Kept s₀ a3 := by
      unfold a3
      split
      · rename_i a5 e6
        apply State.setCounter_kept
        exact h
      · rename_i a7 e8
        apply State.setCounter_kept
        exact h
      · rename_i a9 e10
        apply State.setDom_kept
        exact h
      · rename_i a11 e12 e13 e14
        apply State.setDom_kept
        exact h
    clear_value a3
    extract_lets -merge -useContext +onlyGivenNames a15
    clear_value a15
    extract_lets -merge -useContext +onlyGivenNames a16
    have h17 : Kept s₀ a16 := by
      unfold a16
      apply State.setDom_kept
      exact h4
    clear_value a16
    apply State.homed_kept
    exact h17

theorem execSetphWrite_kept {s₀ s : State} (h : Kept s₀ s) (d : Fin 4) (v : Word) :
    KeptR s₀ (execSetphWrite d v s) := by
  unfold execSetphWrite
  refine KeptR.next ?_
  apply State.writeSetph_kept
  exact h

theorem State.writePhaseChannel_kept {s₀ s : State} (h : Kept s₀ s) (d : Nat) (m : Model) (corr : Int) :
    Kept s₀ (State.writePhaseChannel s d m corr) := by
  unfold State.writePhaseChannel
  apply State.writeLive_kept
  exact h

theorem State.startDirection_kept {s₀ s : State} (h : Kept s₀ s) (d : Nat) (m : Model) :
    Kept s₀ (State.startDirection s d m) := by
  unfold State.startDirection
  apply State.setDom_kept
  apply State.setB_kept
  exact h

theorem State.slip_kept {s₀ s : State} (h : Kept s₀ s) (d from_ to_ : Nat) (m : Model) :
    Kept s₀ (State.slip s d from_ to_ m) := by
  unfold State.slip
  extract_lets -merge -useContext +onlyGivenNames a1
  clear_value a1
  extract_lets -merge -useContext +onlyGivenNames a2
  have h3 : Kept s₀ a2 := by
    unfold a2
    apply State.raiseLevel_kept
    exact h
  clear_value a2
  extract_lets -merge -useContext +onlyGivenNames a4
  have h5 : Kept s₀ a4 := by
    unfold a4
    apply State.set_kept
    exact h3
  clear_value a4
  extract_lets -merge -useContext +onlyGivenNames a6
  have h7 : Kept s₀ a6 := by
    unfold a6
    refine Kept.ite_ ?_ ?_
    · exact h5
    · apply State.set_kept
      exact h5
  clear_value a6
  extract_lets -merge -useContext +onlyGivenNames a8
  have h9 : Kept s₀ a8 := by
    unfold a8
    apply State.endLevel_kept
    apply State.set_kept
    exact h7
  clear_value a8
  extract_lets -merge -useContext +onlyGivenNames a10
  clear_value a10
  extract_lets -merge -useContext +onlyGivenNames a11
  have h12 : Kept s₀ a11 := by
    unfold a11
    apply State.setDom_kept
    exact h9
  clear_value a11
  extract_lets -merge -useContext +onlyGivenNames a13
  have h14 : Kept s₀ a13 := by
    unfold a13
    apply State.seqSlip_kept
    apply State.endPhaseWaits_kept
    apply State.startDirection_kept
    exact h12
  clear_value a13
  refine Kept.ite_ ?_ ?_
  · apply State.resumeDomain_kept
    exact h14
  · exact h14

theorem State.noteEffective_kept {s₀ s : State} (h : Kept s₀ s) (d : Nat) (m : Model) :
    Kept s₀ (State.noteEffective s d m) := by
  unfold State.noteEffective
  extract_lets -merge -useContext +onlyGivenNames a1
  clear_value a1
  apply State.setDom_kept
  exact h

theorem State.applyModel_kept {s₀ s : State} (h : Kept s₀ s) (d : Nat) (m : Model) :
    Kept s₀ (State.applyModel s d m) := by
  unfold State.applyModel
  extract_lets -merge -useContext +onlyGivenNames a1
  have h2 : Kept s₀ a1 := by
    unfold a1
    apply State.updateX_kept
    exact h
  clear_value a1
  extract_lets -merge -useContext +onlyGivenNames a3
  clear_value a3
  extract_lets -merge -useContext +onlyGivenNames a4
  clear_value a4
  extract_lets -merge -useContext +onlyGivenNames a5
  clear_value a5
  extract_lets -merge -useContext +onlyGivenNames a6
  refine Kept.ite_ ?_ ?_
  · extract_lets -merge -useContext +onlyGivenNames a7
    have h8 : Kept s₀ a7 := by
      unfold a7
      refine Kept.ite_ ?_ ?_
      · apply State.losePhase_kept
        exact h2
      · exact h2
    clear_value a7
    apply State.writePhaseChannel_kept
    apply State.endLevel_kept
    unfold a6
    apply State.set_kept
    apply State.showModel_kept
    apply State.noteEffective_kept
    exact h8
  · extract_lets -merge -useContext +onlyGivenNames a9
    have h10 : Kept s₀ a9 := by
      unfold a9
      apply State.level_kept
      unfold a6
      apply State.set_kept
      apply State.showModel_kept
      apply State.noteEffective_kept
      exact h2
    clear_value a9
    extract_lets -merge -useContext +onlyGivenNames a11
    clear_value a11
    extract_lets -merge -useContext +onlyGivenNames a12
    clear_value a12
    extract_lets -merge -useContext +onlyGivenNames a13
    have h14 : Kept s₀ a13 := by
      unfold a13
      apply State.setInt_kept
      exact h10
    clear_value a13
    extract_lets -merge -useContext +onlyGivenNames a15
    have h16 : Kept s₀ a15 := by
      unfold a15
      refine Kept.ite_ ?_ ?_
      · apply State.raise_kept
        exact h14
      · refine Kept.ite_ ?_ ?_
        · apply State.raise_kept
          exact h14
        · exact h14
    clear_value a15
    extract_lets -merge -useContext +onlyGivenNames a17
    have h18 : Kept s₀ a17 := by
      unfold a17
      refine Kept.ite_ ?_ ?_
      · apply State.seqTrack_kept
        apply State.startDirection_kept
        apply State.set_kept
        exact h14
      · refine Kept.ite_ ?_ ?_
        · apply State.slip_kept
          exact h14
        · apply State.updateX_kept
          exact h16
    clear_value a17
    apply State.writePhaseChannel_kept
    apply State.recompute_kept
    exact h18

theorem execModelEffective_kept {s₀ s : State} (h : Kept s₀ s) (d : Fin 4) :
    KeptR s₀ (execModelEffective d s) := by
  unfold execModelEffective
  split
  · rename_i a1 e2
    refine KeptR.next ?_
    exact h
  · rename_i a3 a4 a5 e6
    extract_lets -merge -useContext +onlyGivenNames a7
    have h8 : Kept s₀ a7 := by
      unfold a7
      apply State.waitTicks_kept
      exact h
    clear_value a7
    refine KeptR.next ?_
    apply State.applyModel_kept
    apply State.setDom_kept
    exact h8

theorem execPhStale_kept {s₀ s : State} (h : Kept s₀ s) (d : Fin 4) :
    KeptR s₀ (execPhStale d s) := by
  unfold execPhStale
  refine KeptR.ite_ ?_ ?_
  · refine KeptR.next ?_
    exact h
  · refine KeptR.next ?_
    apply State.losePhase_kept
    apply State.waitUntil_kept
    exact h

theorem execPhFailover_kept {s₀ s : State} (h : Kept s₀ s) (d : Fin 4) :
    KeptR s₀ (execPhFailover d s) := by
  unfold execPhFailover
  extract_lets -merge -useContext +onlyGivenNames a1
  clear_value a1
  extract_lets -merge -useContext +onlyGivenNames a2
  clear_value a2
  extract_lets -merge -useContext +onlyGivenNames a3
  clear_value a3
  refine KeptR.ite_ ?_ ?_
  · refine KeptR.next ?_
    exact h
  · extract_lets -merge -useContext +onlyGivenNames a4
    clear_value a4
    extract_lets -merge -useContext +onlyGivenNames a5
    clear_value a5
    extract_lets -merge -useContext +onlyGivenNames a6
    have h7 : Kept s₀ a6 := by
      unfold a6
      apply State.setDom_kept
      apply State.setB_kept
      exact h
    clear_value a6
    refine KeptR.next ?_
    apply State.raise_kept
    exact h7

theorem execDirectionChange_kept {s₀ s : State} (h : Kept s₀ s) (d : Fin 4) :
    KeptR s₀ (execDirectionChange d s) := by
  unfold execDirectionChange
  extract_lets -merge -useContext +onlyGivenNames a1
  clear_value a1
  extract_lets -merge -useContext +onlyGivenNames a2
  have h3 : Kept s₀ a2 := by
    unfold a2
    apply State.updateX_kept
    exact h
  clear_value a2
  split
  · rename_i a4 e5
    refine KeptR.next ?_
    exact h3
  · rename_i a6 a7 e8
    extract_lets -merge -useContext +onlyGivenNames a9
    have h10 : Kept s₀ a9 := by
      unfold a9
      apply State.dispatchDueOf_kept
      apply State.updateX_kept
      apply State.advance_kept
      exact h3
    clear_value a9
    extract_lets -merge -useContext +onlyGivenNames a11
    clear_value a11
    extract_lets -merge -useContext +onlyGivenNames a12
    have h13 : Kept s₀ a12 := by
      unfold a12
      apply State.withdrawDomain_kept
      exact h10
    clear_value a12
    extract_lets -merge -useContext +onlyGivenNames a14
    have h15 : Kept s₀ a14 := by
      unfold a14
      apply State.set_kept
      apply State.setB_kept
      exact h13
    clear_value a14
    extract_lets -merge -useContext +onlyGivenNames a16
    clear_value a16
    extract_lets -merge -useContext +onlyGivenNames a17
    have h18 : Kept s₀ a17 := by
      unfold a17
      apply State.setDom_kept
      exact h15
    clear_value a17
    refine KeptR.next ?_
    apply State.dispatchPassed_kept
    apply State.rearm_kept
    exact h18

theorem execSiderealWrap_kept {s₀ s : State} (h : Kept s₀ s) (d : Fin 4) (reverse : Bool) :
    KeptR s₀ (execSiderealWrap d reverse s) := by
  unfold execSiderealWrap
  extract_lets -merge -useContext +onlyGivenNames a1
  clear_value a1
  extract_lets -merge -useContext +onlyGivenNames a2
  clear_value a2
  split
  · rename_i a3 e4
    refine KeptR.next ?_
    exact h
  · rename_i a5 a6 e7
    split
    · rename_i a8 e9
      refine KeptR.next ?_
      exact h
    · rename_i a10 a11 e12
      extract_lets -merge -useContext +onlyGivenNames a13
      clear_value a13
      extract_lets -merge -useContext +onlyGivenNames a14
      have h15 : Kept s₀ a14 := by
        unfold a14
        apply State.waitTicks_kept
        exact h
      clear_value a14
      refine KeptR.next ?_
      apply State.raise_kept
      apply State.setDom_kept
      exact h15

theorem execRunfromMove_kept {s₀ s : State} (h : Kept s₀ s) (d : Fin 4) :
    KeptR s₀ (execRunfromMove d s) := by
  unfold execRunfromMove
  refine KeptR.next ?_
  refine Kept.ite_ ?_ ?_
  · apply State.moveRunfrom_kept
    exact h
  · exact h

theorem State.takeSample_kept {s₀ s : State} (h : Kept s₀ s) (d : Nat) (m : Model) :
    KeptP s₀ (State.takeSample s d m) := by
  unfold State.takeSample
  extract_lets -merge -useContext +onlyGivenNames a1
  clear_value a1
  refine KeptP.ite_ ?_ ?_
  · refine KeptP.mk ?_
    apply State.raise_kept
    apply State.inc_kept
    exact h
  · refine KeptP.ite_ ?_ ?_
    · refine KeptP.mk ?_
      apply State.applyModel_kept
      apply State.raise_kept
      apply State.inc_kept
      exact h
    · refine KeptP.mk ?_
      apply State.setDom_kept
      exact h

theorem State.rejectSample_kept {s₀ s : State} (h : Kept s₀ s) (k : Kind) (d node : Nat) :
    Kept s₀ (State.rejectSample s k d node) := by
  unfold State.rejectSample
  apply State.raise_kept
  apply State.inc_kept
  exact h

theorem State.receiveSample_kept {s₀ s : State} (h : Kept s₀ s) (ws : List Word) :
    Kept s₀ (State.receiveSample s ws) := by
  unfold State.receiveSample
  extract_lets -merge -useContext +onlyGivenNames a1
  clear_value a1
  extract_lets -merge -useContext +onlyGivenNames a2
  clear_value a2
  refine Kept.ite_ ?_ ?_
  · exact h
  · refine Kept.ite_ ?_ ?_
    · apply State.rejectSample_kept
      exact h
    · refine Kept.ite_ ?_ ?_
      · apply State.rejectSample_kept
        exact h
      · refine Kept.ite_ ?_ ?_
        · exact h
        · extract_lets -merge -useContext +onlyGivenNames a3
          clear_value a3
          split
          · rename_i a4
            apply State.rejectSample_kept
            exact h
          · rename_i a5 a6
            extract_lets -merge -useContext +onlyGivenNames a7
            refine Kept.ite_ ?_ ?_
            · apply State.setDom_kept
              refine KeptP.fst ?_
              unfold a7
              apply State.takeSample_kept
              exact h
            · refine KeptP.fst ?_
              unfold a7
              apply State.takeSample_kept
              exact h

theorem execSampleReceived_kept {s₀ s : State} (h : Kept s₀ s) (ws : List Word) :
    KeptR s₀ (execSampleReceived ws s) := by
  unfold execSampleReceived
  refine KeptR.ite_ ?_ ?_
  · refine KeptR.next ?_
    apply State.receiveSample_kept
    exact h
  · exact KeptR.fault _ _

theorem State.phaseCycle_kept {s₀ s : State} (h : Kept s₀ s) (d : Nat) :
    Kept s₀ (State.phaseCycle s d) := by
  unfold State.phaseCycle
  refine Kept.ite_ ?_ ?_
  · exact h
  · extract_lets -merge -useContext +onlyGivenNames a1
    clear_value a1
    extract_lets -merge -useContext +onlyGivenNames a2
    clear_value a2
    extract_lets -merge -useContext +onlyGivenNames a3
    clear_value a3
    extract_lets -merge -useContext +onlyGivenNames a4
    have h5 : Kept s₀ a4 := by
      unfold a4
      refine Kept.ite_ ?_ ?_
      · refine Kept.ite_ ?_ ?_
        · apply State.raise_kept
          exact h
        · apply State.setDom_kept
          apply State.measure_kept
          exact h
      · exact h
    clear_value a4
    extract_lets -merge -useContext +onlyGivenNames a6
    clear_value a6
    extract_lets -merge -useContext +onlyGivenNames a7
    clear_value a7
    extract_lets -merge -useContext +onlyGivenNames a8
    clear_value a8
    extract_lets -merge -useContext +onlyGivenNames a9
    have h10 : Kept s₀ a9 := by
      unfold a9
      apply State.setDom_kept
      exact h5
    clear_value a9
    refine KeptP.fst ?_
    apply State.takeSample_kept
    exact h10

theorem State.shiftPhases_kept {s₀ s : State} (h : Kept s₀ s) (off : Int) (g : Nat) :
    Kept s₀ (State.shiftPhases s off g) := by
  unfold State.shiftPhases
  extract_lets -merge -useContext +onlyGivenNames a1
  refine State.each_kept _ _ ?_ ?_
  · exact h
  · intro a2 x3 h4
    refine Kept.ite_ ?_ ?_
    · exact h4
    · extract_lets -merge -useContext +onlyGivenNames a5
      clear_value a5
      extract_lets -merge -useContext +onlyGivenNames a6
      have h7 : Kept s₀ a6 := by
        unfold a6
        apply State.setDom_kept
        exact h4
      clear_value a6
      split
      · rename_i a8 a9 e10
        apply State.showModel_kept
        exact h7
      · rename_i a11 e12
        exact h7

end Sys2Proof.Machine
end

