-- ==== Sys2Proof/Laws/KeptCycle.lean ====
section
/-! SUPPORT. What the operations of `Machine/Cycle.lean` keep: the queue, the direction of the clock, sound
stores. -/

namespace Sys2Proof.Machine

theorem State.setPosition_kept {s₀ s : State} (h : Kept s₀ s) (mseq cyc offset : Nat) :
    Kept s₀ (State.setPosition s mseq cyc offset) := by
  unfold State.setPosition
  extract_lets -merge -useContext +onlyGivenNames a1
  have h2 : Kept s₀ a1 := by
    unfold a1
    apply State.set_kept
    apply State.set_kept
    exact h
  clear_value a1
  extract_lets -merge -useContext +onlyGivenNames a3
  clear_value a3
  extract_lets -merge -useContext +onlyGivenNames a4
  have h5 : Kept s₀ a4 := by
    unfold a4
    apply State.movePosition_kept
    apply Kept.mk_
    exact h2
  clear_value a4
  extract_lets -merge -useContext +onlyGivenNames a6
  clear_value a6
  apply Kept.mk_
  exact h5

theorem State.retime_kept {s₀ s : State} (h : Kept s₀ s) (off : Int) (g : Nat) :
    Kept s₀ (State.retime s off g) := by
  unfold State.retime
  extract_lets -merge -useContext +onlyGivenNames a1
  have h2 : Kept s₀ a1 := by
    unfold a1
    apply State.set_kept
    apply State.set_kept
    exact h
  clear_value a1
  extract_lets -merge -useContext +onlyGivenNames a3
  have h4 : Kept s₀ a3 := by
    unfold a3
    apply State.shiftPhases_kept
    apply State.shiftSeq_kept
    exact h2
  clear_value a3
  apply Kept.mk_
  exact h4

theorem State.adopt_kept {s₀ s : State} (h : Kept s₀ s) (g ticks : Nat) :
    Kept s₀ (State.adopt s g ticks) := by
  unfold State.adopt
  extract_lets -merge -useContext +onlyGivenNames a1
  clear_value a1
  extract_lets -merge -useContext +onlyGivenNames a2
  clear_value a2
  extract_lets -merge -useContext +onlyGivenNames a3
  have h4 : Kept s₀ a3 := by
    unfold a3
    apply Kept.mk_
    exact h
  clear_value a3
  apply State.retime_kept
  exact h4

theorem State.reEpoch_kept {s₀ s : State} (h : Kept s₀ s) (off : Int) :
    Kept s₀ (State.reEpoch s off) := by
  unfold State.reEpoch
  extract_lets -merge -useContext +onlyGivenNames a1
  clear_value a1
  extract_lets -merge -useContext +onlyGivenNames a2
  have h3 : Kept s₀ a2 := by
    unfold a2
    apply Kept.mk_
    exact h
  clear_value a2
  extract_lets -merge -useContext +onlyGivenNames a4
  have h5 : Kept s₀ a4 := by
    unfold a4
    apply State.retime_kept
    exact h3
  clear_value a4
  apply State.raise_kept
  exact h5

theorem State.activate_kept {s₀ s : State} (h : Kept s₀ s) :
    Kept s₀ (State.activate s) := by
  unfold State.activate
  extract_lets -merge -useContext +onlyGivenNames a1
  clear_value a1
  extract_lets -merge -useContext +onlyGivenNames a2
  have h3 : Kept s₀ a2 := by
    unfold a2
    apply Kept.mk_
    exact h
  clear_value a2
  split
  · rename_i a4 a5 e6
    apply State.raise_kept
    exact h3
  · rename_i a7 e8
    extract_lets -merge -useContext +onlyGivenNames a9
    clear_value a9
    extract_lets -merge -useContext +onlyGivenNames a10
    have h11 : Kept s₀ a10 := by
      unfold a10
      apply Kept.mk_
      exact h3
    clear_value a10
    apply State.raise_kept
    apply State.set_kept
    exact h11

theorem State.writeActivation_kept {s₀ s : State} (h : Kept s₀ s) (v : Word) :
    Kept s₀ (State.writeActivation s v) := by
  unfold State.writeActivation
  extract_lets -merge -useContext +onlyGivenNames a1
  clear_value a1
  extract_lets -merge -useContext +onlyGivenNames a2
  have h3 : Kept s₀ a2 := by
    unfold a2
    apply Kept.mk_
    exact h
  clear_value a2
  refine Kept.ite_ ?_ ?_
  · apply State.activate_kept
    exact h3
  · exact h3

theorem execActivationWrite_kept {s₀ s : State} (h : Kept s₀ s) (v : Word) :
    KeptR s₀ (execActivationWrite v s) := by
  unfold execActivationWrite
  refine KeptR.next ?_
  apply State.writeActivation_kept
  exact h

theorem State.writePending_kept {s₀ s : State} (h : Kept s₀ s) (w : Nat) (ws : List Word) :
    Kept s₀ (State.writePending s w ws) := by
  induction ws generalizing s w with
  | nil => exact h
  | cons v rest ih =>
    unfold State.writePending
    extract_lets -merge -useContext +onlyGivenNames a1
    clear_value a1
    extract_lets -merge -useContext +onlyGivenNames a2
    have h3 : Kept s₀ a2 := by
      unfold a2
      refine Kept.ite_ ?_ ?_
      · apply Kept.mk_
        exact h
      · refine Kept.ite_ ?_ ?_
        · apply State.writeActivation_kept
          exact h
        · exact h
    clear_value a2
    apply ih
    exact h3

theorem State.writeCycCfg_kept {s₀ s : State} (h : Kept s₀ s) (v : Word) :
    Kept s₀ (State.writeCycCfg s v) := by
  unfold State.writeCycCfg
  refine Kept.ite_ ?_ ?_
  · apply State.raise_kept
    exact h
  · extract_lets -merge -useContext +onlyGivenNames a1
    clear_value a1
    extract_lets -merge -useContext +onlyGivenNames a2
    have h3 : Kept s₀ a2 := by
      unfold a2
      apply State.set_kept
      apply State.set_kept
      apply State.set_kept
      exact h
    clear_value a2
    extract_lets -merge -useContext +onlyGivenNames a4
    have h5 : Kept s₀ a4 := by
      unfold a4
      apply State.advance_kept
      apply State.set_kept
      exact h3
    clear_value a4
    extract_lets -merge -useContext +onlyGivenNames a6
    have h7 : Kept s₀ a6 := by
      unfold a6
      apply State.set_kept
      apply State.set_kept
      exact h5
    clear_value a6
    extract_lets -merge -useContext +onlyGivenNames a8
    clear_value a8
    extract_lets -merge -useContext +onlyGivenNames a9
    have h10 : Kept s₀ a9 := by
      unfold a9
      apply Kept.mk_
      exact h7
    clear_value a9
    apply State.set_kept
    exact h10

theorem execCycCfgWrite_kept {s₀ s : State} (h : Kept s₀ s) (v : Word) :
    KeptR s₀ (execCycCfgWrite v s) := by
  unfold execCycCfgWrite
  refine KeptR.next ?_
  apply State.writeCycCfg_kept
  exact h

theorem State.tripGuard_kept {s₀ s : State} (h : Kept s₀ s) (p : Nat) :
    Kept s₀ (State.tripGuard s p) := by
  unfold State.tripGuard
  extract_lets -merge -useContext +onlyGivenNames a1
  clear_value a1
  extract_lets -merge -useContext +onlyGivenNames a2
  have h3 : Kept s₀ a2 := by
    unfold a2
    apply Kept.mk_
    exact h
  clear_value a2
  apply State.raiseLevel_kept
  apply State.setBit_kept
  exact h3

theorem State.sendTt_kept {s₀ s : State} (h : Kept s₀ s) (cp : Nat) (c : Cell) :
    Kept s₀ (State.sendTt s cp c) := by
  unfold State.sendTt
  refine Kept.ite_ ?_ ?_
  · apply State.sendRing_kept
    exact h
  · exact h

theorem State.passTt_kept {s₀ s : State} (h : Kept s₀ s) (cp : Nat) (c : Cell) :
    Kept s₀ (State.passTt s cp c) := by
  unfold State.passTt
  refine Kept.ite_ ?_ ?_
  · apply State.sendRing_kept
    exact h
  · exact h

theorem State.originate_kept {s₀ s : State} (h : Kept s₀ s) (c : Cell) :
    KeptP s₀ (State.originate s c) := by
  unfold State.originate
  extract_lets -merge -useContext +onlyGivenNames a1
  clear_value a1
  refine KeptP.ite_ ?_ ?_
  · refine KeptP.mk ?_
    apply State.raise_kept
    exact h
  · refine KeptP.mk ?_
    exact h

theorem State.takeSamples_kept {s₀ s : State} (h : Kept s₀ s) (r : Row) :
    KeptP s₀ (State.takeSamples s r) := by
  unfold State.takeSamples
  refine KeptP.ite_ ?_ ?_
  · extract_lets -merge -useContext +onlyGivenNames a1
    clear_value a1
    extract_lets -merge -useContext +onlyGivenNames a2
    clear_value a2
    refine KeptP.mk ?_
    refine Kept.foldl _ _ ?_ ?_
    · exact h
    · intro x3 a4 h5
      apply State.setDom_kept
      exact h5
  · refine KeptP.mk ?_
    exact h

theorem State.takeMirror_kept {s₀ s : State} (h : Kept s₀ s) (r : Row) (n : Nat) :
    KeptP s₀ (State.takeMirror s r n) := by
  unfold State.takeMirror
  refine KeptP.ite_ ?_ ?_
  · extract_lets -merge -useContext +onlyGivenNames a1
    extract_lets -merge -useContext +onlyGivenNames a2
    clear_value a2
    extract_lets -merge -useContext +onlyGivenNames a3
    clear_value a3
    refine KeptP.mk ?_
    apply Kept.mk_
    exact h
  · refine KeptP.mk ?_
    exact h

theorem State.police_kept {s₀ s : State} (h : Kept s₀ s) (p k : Nat) :
    Kept s₀ (State.police s p k) := by
  unfold State.police
  apply State.raise_kept
  apply State.inc_kept
  exact h

theorem State.secondCopy_kept {s₀ s : State} (h : Kept s₀ s) (crc : Nat) (b : Bool) :
    KeptP s₀ (State.secondCopy s crc b) := by
  unfold State.secondCopy
  extract_lets -merge -useContext +onlyGivenNames a1
  refine KeptP.ite_ ?_ ?_
  · refine KeptP.mk ?_
    apply State.inc_kept
    apply Kept.mk_
    exact h
  · extract_lets -merge -useContext +onlyGivenNames a2
    clear_value a2
    refine KeptP.ite_ ?_ ?_
    · refine KeptP.mk ?_
      apply State.raise_kept
      apply Kept.mk_
      exact h
    · refine KeptP.mk ?_
      apply Kept.mk_
      exact h

theorem State.sendSync_kept {s₀ s : State} (h : Kept s₀ s) :
    Kept s₀ (State.sendSync s) := by
  unfold State.sendSync
  refine Kept.ite_ ?_ ?_
  · exact h
  · refine Kept.ite_ ?_ ?_
    · apply State.tripGuard_kept
      apply State.tripGuard_kept
      exact h
    · extract_lets -merge -useContext +onlyGivenNames a1
      clear_value a1
      apply State.sendTt_kept
      apply State.sendTt_kept
      exact h

theorem State.toListen_kept {s₀ s : State} (h : Kept s₀ s) :
    Kept s₀ (State.toListen s) := by
  unfold State.toListen
  extract_lets -merge -useContext +onlyGivenNames a1
  clear_value a1
  extract_lets -merge -useContext +onlyGivenNames a2
  have h3 : Kept s₀ a2 := by
    unfold a2
    apply Kept.mk_
    exact h
  clear_value a2
  apply State.set_kept
  apply State.set_kept
  exact h3

theorem State.syncLost_kept {s₀ s : State} (h : Kept s₀ s) :
    Kept s₀ (State.syncLost s) := by
  unfold State.syncLost
  extract_lets -merge -useContext +onlyGivenNames a1
  have h2 : Kept s₀ a1 := by
    unfold a1
    apply State.toListen_kept
    apply State.raiseLevel_kept
    exact h
  clear_value a1
  refine Kept.ite_ ?_ ?_
  · apply State.enterMode_kept
    exact h2
  · exact h2

theorem State.synced_kept {s₀ s : State} (h : Kept s₀ s) :
    Kept s₀ (State.synced s) := by
  unfold State.synced
  extract_lets -merge -useContext +onlyGivenNames a1
  clear_value a1
  extract_lets -merge -useContext +onlyGivenNames a2
  have h3 : Kept s₀ a2 := by
    unfold a2
    apply Kept.mk_
    exact h
  clear_value a2
  apply State.endLevel_kept
  apply State.set_kept
  exact h3

theorem State.integrate_kept {s₀ s : State} (h : Kept s₀ s) (x : SyncCell) (delay : Int) (late : Nat) :
    Kept s₀ (State.integrate s x delay late) := by
  unfold State.integrate
  extract_lets -merge -useContext +onlyGivenNames a1
  have h2 : Kept s₀ a1 := by
    unfold a1
    apply State.setPosition_kept
    exact h
  clear_value a1
  extract_lets -merge -useContext +onlyGivenNames a3
  have h4 : Kept s₀ a3 := by
    unfold a3
    apply State.adopt_kept
    exact h2
  clear_value a3
  extract_lets -merge -useContext +onlyGivenNames a5
  clear_value a5
  extract_lets -merge -useContext +onlyGivenNames a6
  have h7 : Kept s₀ a6 := by
    unfold a6
    apply Kept.mk_
    exact h4
  clear_value a6
  apply State.set_kept
  exact h7

theorem State.noteSteer_kept {s₀ s : State} (h : Kept s₀ s) (x : SyncCell) :
    Kept s₀ (State.noteSteer s x) := by
  unfold State.noteSteer
  refine Kept.ite_ ?_ ?_
  · apply State.set_kept
    apply Kept.mk_
    exact h
  · exact h

theorem State.noteLabel_kept {s₀ s : State} (h : Kept s₀ s) (x : SyncCell) (delay late : Int) :
    Kept s₀ (State.noteLabel s x delay late) := by
  unfold State.noteLabel
  extract_lets -merge -useContext +onlyGivenNames a1
  clear_value a1
  extract_lets -merge -useContext +onlyGivenNames a2
  clear_value a2
  extract_lets -merge -useContext +onlyGivenNames a3
  clear_value a3
  extract_lets -merge -useContext +onlyGivenNames a4
  clear_value a4
  extract_lets -merge -useContext +onlyGivenNames a5
  have h6 : Kept s₀ a5 := by
    unfold a5
    refine Kept.ite_ ?_ ?_
    · apply State.raise_kept
      apply Kept.mk_
      exact h
    · exact h
  clear_value a5
  extract_lets -merge -useContext +onlyGivenNames a7
  clear_value a7
  refine Kept.ite_ ?_ ?_
  · apply Kept.mk_
    exact h6
  · exact h6

theorem State.measureSync_kept {s₀ s : State} (h : Kept s₀ s) (x : SyncCell) (delay late : Int) :
    Kept s₀ (State.measureSync s x delay late) := by
  unfold State.measureSync
  extract_lets -merge -useContext +onlyGivenNames a1
  clear_value a1
  extract_lets -merge -useContext +onlyGivenNames a2
  have h3 : Kept s₀ a2 := by
    unfold a2
    apply Kept.mk_
    exact h
  clear_value a2
  extract_lets -merge -useContext +onlyGivenNames a4
  clear_value a4
  extract_lets -merge -useContext +onlyGivenNames a5
  have h6 : Kept s₀ a5 := by
    unfold a5
    refine Kept.ite_ ?_ ?_
    · apply State.raise_kept
      apply Kept.mk_
      exact h3
    · exact h3
  clear_value a5
  apply State.noteSteer_kept
  apply State.noteLabel_kept
  exact h6

theorem State.forwardSync_kept {s₀ s : State} (h : Kept s₀ s) (p k : Nat) (c : Cell) (x : SyncCell) :
    Kept s₀ (State.forwardSync s p k c x) := by
  unfold State.forwardSync
  extract_lets -merge -useContext +onlyGivenNames a1
  clear_value a1
  extract_lets -merge -useContext +onlyGivenNames a2
  clear_value a2
  extract_lets -merge -useContext +onlyGivenNames a3
  have h4 : Kept s₀ a3 := by
    unfold a3
    apply State.draw_kept
    exact h
  clear_value a3
  split
  · rename_i a5 a6 e7
    apply State.wrapDrop_kept
    exact h4
  · rename_i a8 a9 a10 e11
    refine Kept.ite_ ?_ ?_
    · apply State.sendRing_kept
      exact h4
    · exact h4

theorem execSyncCellReceived_kept {s₀ s : State} (h : Kept s₀ s) (port sub : Fin 4) (cell : Cell) (arrival : BitVec 48) :
    KeptR s₀ (execSyncCellReceived port sub cell arrival s) := by
  unfold execSyncCellReceived
  refine KeptR.ite_ ?_ ?_
  · exact KeptR.fault _ _
  · extract_lets -merge -useContext +onlyGivenNames a1
    clear_value a1
    extract_lets -merge -useContext +onlyGivenNames a2
    clear_value a2
    refine KeptR.ite_ ?_ ?_
    · refine KeptR.next ?_
      exact h
    · refine KeptR.ite_ ?_ ?_
      · refine KeptR.next ?_
        apply State.forwardSync_kept
        exact h
      · extract_lets -merge -useContext +onlyGivenNames a3
        clear_value a3
        refine KeptR.ite_ ?_ ?_
        · refine KeptR.next ?_
          apply State.police_kept
          exact h
        · extract_lets -merge -useContext +onlyGivenNames a4
          clear_value a4
          extract_lets -merge -useContext +onlyGivenNames a5
          clear_value a5
          extract_lets -merge -useContext +onlyGivenNames a6
          clear_value a6
          extract_lets -merge -useContext +onlyGivenNames a7
          have h8 : Kept s₀ a7 := by
            unfold a7
            refine Kept.ite_ ?_ ?_
            · apply Kept.mk_
              exact h
            · apply Kept.mk_
              exact h
          clear_value a7
          extract_lets -merge -useContext +onlyGivenNames a9
          clear_value a9
          extract_lets -merge -useContext +onlyGivenNames a10
          clear_value a10
          extract_lets -merge -useContext +onlyGivenNames a11
          have h12 : Kept s₀ a11 := by
            unfold a11
            apply State.forwardSync_kept
            exact h8
          clear_value a11
          refine KeptR.ite_ ?_ ?_
          · refine KeptR.next ?_
            exact h12
          · extract_lets -merge -useContext +onlyGivenNames a13
            have h14 : Kept s₀ a13 := by
              unfold a13
              apply State.toListen_kept
              exact h12
            clear_value a13
            extract_lets -merge -useContext +onlyGivenNames a15
            have h16 : Kept s₀ a15 := by
              unfold a15
              refine Kept.ite_ ?_ ?_
              · refine Kept.ite_ ?_ ?_
                · apply State.enterMode_kept
                  exact h14
                · exact h14
              · exact h12
            clear_value a15
            refine KeptR.ite_ ?_ ?_
            · refine KeptR.next ?_
              refine Kept.ite_ ?_ ?_
              · apply State.integrate_kept
                exact h16
              · exact h16
            · refine KeptR.next ?_
              apply State.measureSync_kept
              exact h16

theorem execOffsetCorrection_kept {s₀ s : State} (h : Kept s₀ s) :
    KeptR s₀ (execOffsetCorrection s) := by
  unfold execOffsetCorrection
  refine KeptR.ite_ ?_ ?_
  · refine KeptR.next ?_
    exact h
  · extract_lets -merge -useContext +onlyGivenNames a1
    have h2 : Kept s₀ a1 := by
      unfold a1
      apply State.advance_kept
      exact h
    clear_value a1
    extract_lets -merge -useContext +onlyGivenNames a3
    clear_value a3
    extract_lets -merge -useContext +onlyGivenNames a4
    clear_value a4
    extract_lets -merge -useContext +onlyGivenNames a5
    clear_value a5
    extract_lets -merge -useContext +onlyGivenNames a6
    clear_value a6
    extract_lets -merge -useContext +onlyGivenNames a7
    clear_value a7
    extract_lets -merge -useContext +onlyGivenNames a8
    clear_value a8
    extract_lets -merge -useContext +onlyGivenNames a9
    clear_value a9
    extract_lets -merge -useContext +onlyGivenNames a10
    clear_value a10
    extract_lets -merge -useContext +onlyGivenNames a11
    have h12 : Kept s₀ a11 := by
      unfold a11
      apply Kept.mk_
      exact h2
    clear_value a11
    extract_lets -merge -useContext +onlyGivenNames a13
    have h14 : Kept s₀ a13 := by
      unfold a13
      apply State.set_kept
      exact h12
    clear_value a13
    extract_lets -merge -useContext +onlyGivenNames a15
    clear_value a15
    extract_lets -merge -useContext +onlyGivenNames a16
    clear_value a16
    extract_lets -merge -useContext +onlyGivenNames a17
    have h18 : Kept s₀ a17 := by
      unfold a17
      apply Kept.mk_
      exact h14
    clear_value a17
    extract_lets -merge -useContext +onlyGivenNames a19
    have h20 : Kept s₀ a19 := by
      unfold a19
      apply State.setInt_kept
      exact h18
    clear_value a19
    extract_lets -merge -useContext +onlyGivenNames a21
    have h22 : Kept s₀ a21 := by
      unfold a21
      refine Kept.ite_ ?_ ?_
      · exact h14
      · refine Kept.ite_ ?_ ?_
        · apply State.raise_kept
          exact h20
        · exact h20
    clear_value a21
    refine KeptR.next ?_
    refine Kept.ite_ ?_ ?_
    · apply State.syncLost_kept
      exact h22
    · exact h22

theorem State.setLinkDelay_kept {s₀ s : State} (h : Kept s₀ s) (p : Nat) (x : LinkDelay) :
    Kept s₀ (State.setLinkDelay s p x) := by
  unfold State.setLinkDelay
  apply Kept.mk_
  exact h

theorem State.askDelay_kept {s₀ s : State} (h : Kept s₀ s) (p : Nat) :
    Kept s₀ (State.askDelay s p) := by
  unfold State.askDelay
  refine Kept.ite_ ?_ ?_
  · exact h
  · extract_lets -merge -useContext +onlyGivenNames a1
    clear_value a1
    extract_lets -merge -useContext +onlyGivenNames a2
    clear_value a2
    apply State.sendLink_kept
    apply State.setLinkDelay_kept
    exact h

theorem execLinkDelayReceived_kept {s₀ s : State} (h : Kept s₀ s) (p : Fin 4) (ws : List Word) (arrival : BitVec 48) :
    KeptR s₀ (execLinkDelayReceived p ws arrival s) := by
  unfold execLinkDelayReceived
  refine KeptR.ite_ ?_ ?_
  · exact KeptR.fault _ _
  · extract_lets -merge -useContext +onlyGivenNames a1
    extract_lets -merge -useContext +onlyGivenNames a2
    clear_value a2
    refine KeptR.ite_ ?_ ?_
    · refine KeptR.next ?_
      exact h
    · refine KeptR.ite_ ?_ ?_
      · refine KeptR.next ?_
        refine Kept.ite_ ?_ ?_
        · apply State.sendLink_kept
          exact h
        · exact h
      · extract_lets -merge -useContext +onlyGivenNames a3
        clear_value a3
        refine KeptR.ite_ ?_ ?_
        · extract_lets -merge -useContext +onlyGivenNames a4
          clear_value a4
          extract_lets -merge -useContext +onlyGivenNames a5
          clear_value a5
          extract_lets -merge -useContext +onlyGivenNames a6
          have h7 : Kept s₀ a6 := by
            unfold a6
            apply State.setLinkDelay_kept
            exact h
          clear_value a6
          refine KeptR.next ?_
          apply State.setInt_kept
          exact h7
        · refine KeptR.next ?_
          exact h

theorem State.steerRequest_kept {s₀ s : State} (h : Kept s₀ s) (v : Word) :
    Kept s₀ (State.steerRequest s v) := by
  unfold State.steerRequest
  refine Kept.ite_ ?_ ?_
  · extract_lets -merge -useContext +onlyGivenNames a1
    clear_value a1
    apply State.set_kept
    apply Kept.mk_
    exact h
  · exact h

theorem execSteerRequest_kept {s₀ s : State} (h : Kept s₀ s) (v : Word) :
    KeptR s₀ (execSteerRequest v s) := by
  unfold execSteerRequest
  refine KeptR.next ?_
  apply State.steerRequest_kept
  exact h

end Sys2Proof.Machine
end

