-- ==== Sys2Proof/Laws/KeptBridge.lean ====
section
/-! SUPPORT. What the operations of `Machine/Bridge.lean` keep: the queue, the direction of the clock, sound
stores. -/

namespace Sys2Proof.Machine

theorem State.showTags_kept {s₀ s : State} (h : Kept s₀ s) :
    Kept s₀ (State.showTags s) := by
  unfold State.showTags
  apply State.set_kept
  exact h

theorem State.setTag_kept {s₀ s : State} (h : Kept s₀ s) (t : Nat) (u : TagUse) :
    Kept s₀ (State.setTag s t u) := by
  unfold State.setTag
  apply State.showTags_kept
  apply Kept.mk_
  exact h

theorem State.sendTagged_kept {s₀ s : State} (h : Kept s₀ s) (c : OutCell) (r t : Nat) :
    Kept s₀ (State.sendTagged s c r t) := by
  unfold State.sendTagged
  extract_lets -merge -useContext +onlyGivenNames a1
  clear_value a1
  extract_lets -merge -useContext +onlyGivenNames a2
  clear_value a2
  extract_lets -merge -useContext +onlyGivenNames a3
  have h4 : Kept s₀ a3 := by
    unfold a3
    apply State.setTag_kept
    exact h
  clear_value a3
  apply State.sendFor_kept
  exact h4

theorem State.pumpOut_kept {s₀ s : State} (h : Kept s₀ s) (todo kept : List OutCell) :
    Kept s₀ (State.pumpOut s todo kept) := by
  induction todo generalizing s kept with
  | nil =>
    unfold State.pumpOut
    apply Kept.mk_
    exact h
  | cons c rest ih =>
    unfold State.pumpOut
    refine Kept.ite_ ?_ ?_
    · apply ih
      exact h
    · split
      · rename_i a1 e2
        apply ih
        apply State.sendFor_kept
        exact h
      · rename_i a3 a4 e5
        split
        · rename_i a6 e7
          apply ih
          exact h
        · rename_i a8 a9 e10
          apply ih
          apply State.sendTagged_kept
          exact h

theorem State.pump16_kept {s₀ s : State} (h : Kept s₀ s) :
    Kept s₀ (State.pump16 s) := by
  unfold State.pump16
  apply State.pumpOut_kept
  exact h

theorem State.outRefused_kept {s₀ s : State} (h : Kept s₀ s) (fn n : Nat) :
    Kept s₀ (State.outRefused s fn n) := by
  unfold State.outRefused
  apply State.raise_kept
  apply State.inc_kept
  exact h

theorem execOutboundWrite_kept {s₀ s : State} (h : Kept s₀ s) (fn : Fin 16) (offset : Nat) (bytes : List Byte) :
    KeptR s₀ (execOutboundWrite fn offset bytes s) := by
  unfold execOutboundWrite
  refine KeptR.ite_ ?_ ?_
  · exact KeptR.fault _ _
  · refine KeptR.ite_ ?_ ?_
    · refine KeptR.next ?_
      exact h
    · extract_lets -merge -useContext +onlyGivenNames a1
      clear_value a1
      extract_lets -merge -useContext +onlyGivenNames a2
      clear_value a2
      extract_lets -merge -useContext +onlyGivenNames a3
      clear_value a3
      extract_lets -merge -useContext +onlyGivenNames a4
      clear_value a4
      extract_lets -merge -useContext +onlyGivenNames a5
      clear_value a5
      extract_lets -merge -useContext +onlyGivenNames a6
      clear_value a6
      extract_lets -merge -useContext +onlyGivenNames a7
      clear_value a7
      extract_lets -merge -useContext +onlyGivenNames a8
      clear_value a8
      extract_lets -merge -useContext +onlyGivenNames a9
      clear_value a9
      refine KeptR.ite_ ?_ ?_
      · refine KeptR.next ?_
        apply State.outRefused_kept
        exact h
      · extract_lets -merge -useContext +onlyGivenNames a10
        clear_value a10
        extract_lets -merge -useContext +onlyGivenNames a11
        clear_value a11
        extract_lets -merge -useContext +onlyGivenNames a12
        clear_value a12
        refine KeptR.next ?_
        apply State.pump16_kept
        apply Kept.mk_
        exact h

theorem execOutboundRead_kept {s₀ s : State} (h : Kept s₀ s) (fn : Fin 16) (offset len : Nat) :
    KeptR s₀ (execOutboundRead fn offset len s) := by
  unfold execOutboundRead
  refine KeptR.ite_ ?_ ?_
  · exact KeptR.fault _ _
  · refine KeptR.ite_ ?_ ?_
    · refine KeptR.next ?_
      exact h
    · extract_lets -merge -useContext +onlyGivenNames a1
      clear_value a1
      extract_lets -merge -useContext +onlyGivenNames a2
      clear_value a2
      extract_lets -merge -useContext +onlyGivenNames a3
      clear_value a3
      extract_lets -merge -useContext +onlyGivenNames a4
      clear_value a4
      extract_lets -merge -useContext +onlyGivenNames a5
      clear_value a5
      extract_lets -merge -useContext +onlyGivenNames a6
      clear_value a6
      extract_lets -merge -useContext +onlyGivenNames a7
      clear_value a7
      refine KeptR.ite_ ?_ ?_
      · refine KeptR.next ?_
        apply State.emit_kept
        apply State.outRefused_kept
        exact h
      · extract_lets -merge -useContext +onlyGivenNames a8
        clear_value a8
        extract_lets -merge -useContext +onlyGivenNames a9
        clear_value a9
        extract_lets -merge -useContext +onlyGivenNames a10
        clear_value a10
        extract_lets -merge -useContext +onlyGivenNames a11
        clear_value a11
        refine KeptR.next ?_
        apply State.pump16_kept
        apply Kept.mk_
        exact h

theorem State.dropRead_kept {s₀ s : State} (h : Kept s₀ s) (id : Nat) :
    Kept s₀ (State.dropRead s id) := by
  unfold State.dropRead
  apply Kept.mk_
  exact h

theorem State.finishRead_kept {s₀ s : State} (h : Kept s₀ s) (r : OutRead) :
    Kept s₀ (State.finishRead s r) := by
  unfold State.finishRead
  extract_lets -merge -useContext +onlyGivenNames a1
  have h2 : Kept s₀ a1 := by
    unfold a1
    apply State.dropRead_kept
    exact h
  clear_value a1
  apply State.emit_kept
  exact h2

theorem State.takeResp_kept {s₀ s : State} (h : Kept s₀ s) (c : Cell) :
    Kept s₀ (State.takeResp s c) := by
  unfold State.takeResp
  extract_lets -merge -useContext +onlyGivenNames a1
  clear_value a1
  split
  · rename_i a2 a3 a4 a5 a6 e7
    extract_lets -merge -useContext +onlyGivenNames a8
    have h9 : Kept s₀ a8 := by
      unfold a8
      apply State.setTag_kept
      exact h
    clear_value a8
    extract_lets -merge -useContext +onlyGivenNames a10
    extract_lets -merge -useContext +onlyGivenNames a11
    clear_value a11
    extract_lets -merge -useContext +onlyGivenNames a12
    have h13 : Kept s₀ a12 := by
      unfold a12
      split
      · rename_i a14 e15
        exact h9
      · rename_i a16 a17 e18
        extract_lets -merge -useContext +onlyGivenNames a19
        clear_value a19
        refine Kept.ite_ ?_ ?_
        · apply State.finishRead_kept
          exact h9
        · apply Kept.mk_
          exact h9
    clear_value a12
    apply State.pump16_kept
    exact h13
  · rename_i a20 e21
    apply State.raise_kept
    apply State.inc_kept
    exact h

theorem execRespArrival_kept {s₀ s : State} (h : Kept s₀ s) (cell : Cell) :
    KeptR s₀ (execRespArrival cell s) := by
  unfold execRespArrival
  refine KeptR.ite_ ?_ ?_
  · refine KeptR.next ?_
    apply State.takeResp_kept
    exact h
  · exact KeptR.fault _ _

theorem State.quarantine_kept {s₀ s : State} (h : Kept s₀ s) (p : Nat → Bool) :
    Kept s₀ (State.quarantine s p) := by
  unfold State.quarantine
  extract_lets -merge -useContext +onlyGivenNames a1
  clear_value a1
  apply State.showTags_kept
  apply Kept.mk_
  exact h

theorem execBrgRdTimeout_kept {s₀ s : State} (h : Kept s₀ s) (tag : Fin 1024) :
    KeptR s₀ (execBrgRdTimeout tag s) := by
  unfold execBrgRdTimeout
  split
  · rename_i a1 a2 a3 a4 a5 e6
    extract_lets -merge -useContext +onlyGivenNames a7
    have h8 : Kept s₀ a7 := by
      unfold a7
      apply State.waitUntil_kept
      exact h
    clear_value a7
    split
    · rename_i a9 e10
      refine KeptR.next ?_
      exact h8
    · rename_i a11 a12 e13
      extract_lets -merge -useContext +onlyGivenNames a14
      have h15 : Kept s₀ a14 := by
        unfold a14
        apply State.emit_kept
        apply State.quarantine_kept
        apply State.dropRead_kept
        exact h8
      clear_value a14
      refine KeptR.next ?_
      apply State.pump16_kept
      apply State.raise_kept
      exact h15
  · rename_i a16 e17
    refine KeptR.next ?_
    exact h

theorem execTagQuarantineEnd_kept {s₀ s : State} (h : Kept s₀ s) (tag : Fin 1024) :
    KeptR s₀ (execTagQuarantineEnd tag s) := by
  unfold execTagQuarantineEnd
  split
  · rename_i a1 a2 e3
    refine KeptR.next ?_
    apply State.pump16_kept
    apply State.setTag_kept
    apply State.waitUntil_kept
    exact h
  · rename_i a4 e5
    refine KeptR.next ?_
    exact h

theorem State.discardFn_kept {s₀ s : State} (h : Kept s₀ s) (f : Nat) :
    Kept s₀ (State.discardFn s f) := by
  unfold State.discardFn
  extract_lets -merge -useContext +onlyGivenNames a1
  clear_value a1
  extract_lets -merge -useContext +onlyGivenNames a2
  have h3 : Kept s₀ a2 := by
    unfold a2
    refine Kept.foldl _ _ ?_ ?_
    · apply State.quarantine_kept
      exact h
    · intro x4 a5 h6
      apply State.dropRead_kept
      exact h6
  clear_value a2
  apply Kept.mk_
  exact h3

theorem execFunctionLevelReset_kept {s₀ s : State} (h : Kept s₀ s) (fn : Fin 16) :
    KeptR s₀ (execFunctionLevelReset fn s) := by
  unfold execFunctionLevelReset
  refine KeptR.next ?_
  apply State.discardFn_kept
  exact h

theorem execBrgLinkDown_kept {s₀ s : State} (h : Kept s₀ s) :
    KeptR s₀ (execBrgLinkDown s) := by
  unfold execBrgLinkDown
  extract_lets -merge -useContext +onlyGivenNames a1
  have h2 : Kept s₀ a1 := by
    unfold a1
    apply State.raiseLevel_kept
    apply State.setB_kept
    exact h
  clear_value a1
  extract_lets -merge -useContext +onlyGivenNames a3
  have h4 : Kept s₀ a3 := by
    unfold a3
    refine Kept.ite_ ?_ ?_
    · apply State.loseHome_kept
      exact h2
    · exact h2
  clear_value a3
  refine KeptR.next ?_
  refine State.each_kept _ _ ?_ ?_
  · exact h4
  · intro a5 x6 h7
    apply State.discardFn_kept
    exact h7

theorem execPcieLinkUp_kept {s₀ s : State} (h : Kept s₀ s) :
    KeptR s₀ (execPcieLinkUp s) := by
  unfold execPcieLinkUp
  refine KeptR.next ?_
  apply State.endLevel_kept
  apply State.setB_kept
  exact h

theorem State.hostErr_kept {s₀ s : State} (h : Kept s₀ s) (k : Nat) :
    Kept s₀ (State.hostErr s k) := by
  unfold State.hostErr
  apply State.raise_kept
  apply State.inc_kept
  exact h

theorem State.writeHost_kept {s₀ s : State} (h : Kept s₀ s) (k w : Nat) (ws : List Word) :
    Kept s₀ (State.writeHost s k w ws) := by
  unfold State.writeHost
  apply State.emit_kept
  refine h.same rfl rfl fun q => ⟨?_, q.regs, q.doors, q.wheel, q.causes, q.fwd, q.remote⟩
  have q := q.mem
  simp only [State.wf, Bool.and_eq_true] at q ⊢
  exact ⟨⟨⟨q.1.1.1, Tab.wf_putList _ _ _ q.1.1.2⟩, q.1.2⟩, q.2⟩

theorem State.showHost_kept {s₀ s : State} (h : Kept s₀ s) :
    Kept s₀ (State.showHost s) := by
  unfold State.showHost
  apply State.set_kept
  exact h

theorem State.readHost_kept {s₀ s : State} (h : Kept s₀ s) (k w n : Nat) (use : HostUse) :
    Kept s₀ (State.readHost s k w n use) := by
  unfold State.readHost
  extract_lets -merge -useContext +onlyGivenNames a1
  clear_value a1
  extract_lets -merge -useContext +onlyGivenNames a2
  clear_value a2
  apply State.emit_kept
  apply State.showHost_kept
  apply Kept.mk_
  exact h

theorem State.inboundRead_kept {s₀ s : State} (h : Kept s₀ s) (k : Nat) (c : Cell) :
    Kept s₀ (State.inboundRead s k c) := by
  unfold State.inboundRead
  refine Kept.ite_ ?_ ?_
  · apply State.hostErr_kept
    exact h
  · refine Kept.ite_ ?_ ?_
    · apply State.readHost_kept
      exact h
    · apply Kept.mk_
      exact h

theorem State.inboundWrite_kept {s₀ s : State} (h : Kept s₀ s) (k w : Nat) (ws : List Word) :
    Kept s₀ (State.inboundWrite s k w ws) := by
  unfold State.inboundWrite
  refine Kept.ite_ ?_ ?_
  · apply State.writeHost_kept
    exact h
  · apply State.hostErr_kept
    exact h

theorem execInboundAccess_kept {s₀ s : State} (h : Kept s₀ s) (cell : Cell) :
    KeptR s₀ (execInboundAccess cell s) := by
  unfold execInboundAccess
  refine KeptR.ite_ ?_ ?_
  · exact KeptR.fault _ _
  · extract_lets -merge -useContext +onlyGivenNames a1
    clear_value a1
    extract_lets -merge -useContext +onlyGivenNames a2
    clear_value a2
    extract_lets -merge -useContext +onlyGivenNames a3
    clear_value a3
    extract_lets -merge -useContext +onlyGivenNames a4
    clear_value a4
    extract_lets -merge -useContext +onlyGivenNames a5
    clear_value a5
    refine KeptR.ite_ ?_ ?_
    · split
      · rename_i a6 x7 a8 e9
        refine Kept.cut (s := s₀) (KeptP.of ?_ e9) fun h10 => ?_
        · apply State.decode_kept
          exact h
        refine KeptR.next ?_
        apply State.sendFor_kept
        apply State.refuse_kept
        exact h10
      · rename_i a11 x12 a13 e14
        refine Kept.cut (s := s₀) (KeptP.of ?_ e14) fun h15 => ?_
        · apply State.decode_kept
          exact h
        refine KeptR.next ?_
        split
        · rename_i a16 a17 e18
          apply State.inboundRead_kept
          exact h15
        · rename_i a19 e20
          exact h15
      · rename_i a21 x22 e23
        refine Kept.cut (s := s₀) (KeptP.of ?_ e23) fun h24 => ?_
        · apply State.decode_kept
          exact h
        refine KeptR.next ?_
        exact h24
      · rename_i a25 x26 e27
        refine Kept.cut (s := s₀) (KeptP.of ?_ e27) fun h28 => ?_
        · apply State.decode_kept
          exact h
        refine KeptR.next ?_
        apply State.block_kept
        exact h28
    · refine KeptR.ite_ ?_ ?_
      · split
        · rename_i a29 x30 a31 e32
          refine Kept.cut (s := s₀) (KeptP.of ?_ e32) fun h33 => ?_
          · apply State.decode_kept
            exact h
          refine KeptR.next ?_
          apply State.refuse_kept
          exact h33
        · rename_i a34 x35 a36 e37
          refine Kept.cut (s := s₀) (KeptP.of ?_ e37) fun h38 => ?_
          · apply State.decode_kept
            exact h
          refine KeptR.next ?_
          split
          · rename_i a39 a40 e41
            apply State.inboundWrite_kept
            exact h38
          · rename_i a42 e43
            exact h38
        · rename_i a44 x45 e46
          refine Kept.cut (s := s₀) (KeptP.of ?_ e46) fun h47 => ?_
          · apply State.decode_kept
            exact h
          refine KeptR.next ?_
          exact h47
        · rename_i a48 x49 e50
          refine Kept.cut (s := s₀) (KeptP.of ?_ e50) fun h51 => ?_
          · apply State.decode_kept
            exact h
          refine KeptR.next ?_
          apply State.block_kept
          exact h51
      · refine KeptR.next ?_
        exact h

theorem State.nextHostRead_kept {s₀ s : State} (h : Kept s₀ s) (id : Nat) :
    Kept s₀ (State.nextHostRead s id) := by
  unfold State.nextHostRead
  extract_lets -merge -useContext +onlyGivenNames a1
  clear_value a1
  extract_lets -merge -useContext +onlyGivenNames a2
  have h3 : Kept s₀ a2 := by
    unfold a2
    apply State.showHost_kept
    apply Kept.mk_
    exact h
  clear_value a2
  split
  · rename_i a4 e5
    exact h3
  · rename_i a6 a7 a8 a9 e10
    apply State.inboundRead_kept
    apply Kept.mk_
    exact h3

theorem State.tunDrop_kept {s₀ s : State} (h : Kept s₀ s) (k : Kind) (t : Nat) :
    Kept s₀ (State.tunDrop s k t) := by
  unfold State.tunDrop
  apply State.raise_kept
  apply State.inc_kept
  exact h

theorem State.sendFrame_kept {s₀ s : State} (h : Kept s₀ s) (cp : Nat) (f : TunFrame) :
    KeptP s₀ (State.sendFrame s cp f) := by
  unfold State.sendFrame
  refine KeptP.ite_ ?_ ?_
  · refine KeptP.mk ?_
    apply State.tunDrop_kept
    exact h
  · refine KeptP.ite_ ?_ ?_
    · refine KeptP.mk ?_
      apply State.tunDrop_kept
      exact h
    · refine KeptP.ite_ ?_ ?_
      · refine KeptP.mk ?_
        exact h
      · extract_lets -merge -useContext +onlyGivenNames a1
        clear_value a1
        extract_lets -merge -useContext +onlyGivenNames a2
        clear_value a2
        extract_lets -merge -useContext +onlyGivenNames a3
        have h4 : Kept s₀ a3 := by
          unfold a3
          apply Kept.mk_
          exact h
        clear_value a3
        refine KeptP.mk ?_
        refine Kept.foldl _ _ ?_ ?_
        · exact h4
        · intro x5 a6 h7
          apply State.send_kept
          exact h7

theorem execTunnelFrameSend_kept {s₀ s : State} (h : Kept s₀ s) (src : FrameSource) :
    KeptR s₀ (execTunnelFrameSend src s) := by
  unfold execTunnelFrameSend
  refine KeptR.next ?_
  split
  · rename_i a1 a2
    split
    · rename_i a3 e4
      exact h
    · rename_i a5 a6 a7 e8
      extract_lets -merge -useContext +onlyGivenNames a9
      refine Kept.ite_ ?_ ?_
      · extract_lets -merge -useContext +onlyGivenNames a10
        clear_value a10
        extract_lets -merge -useContext +onlyGivenNames a11
        have h12 : Kept s₀ a11 := by
          unfold a11
          apply State.setMac_kept
          refine KeptP.fst ?_
          unfold a9
          apply State.sendFrame_kept
          exact h
        clear_value a11
        refine Kept.ite_ ?_ ?_
        · apply State.inc_kept
          exact h12
        · exact h12
      · exact h
  · rename_i a13 a14
    split
    · rename_i a15 e16
      exact h
    · rename_i a17 a18 a19 e20
      extract_lets -merge -useContext +onlyGivenNames a21
      clear_value a21
      extract_lets -merge -useContext +onlyGivenNames a22
      refine Kept.ite_ ?_ ?_
      · apply State.setMbus_kept
        refine KeptP.fst ?_
        unfold a22
        apply State.sendFrame_kept
        exact h
      · exact h
  · rename_i a23
    split
    · rename_i a24 e25
      exact h
    · rename_i a26 a27 a28 e29
      extract_lets -merge -useContext +onlyGivenNames a30
      refine Kept.ite_ ?_ ?_
      · extract_lets -merge -useContext +onlyGivenNames a31
        have h32 : Kept s₀ a31 := by
          unfold a31
          refine KeptP.fst ?_
          unfold a30
          apply State.sendFrame_kept
          exact h
        clear_value a31
        apply Kept.mk_
        exact h32
      · exact h

theorem State.setReasm_kept {s₀ s : State} (h : Kept s₀ s) (rs : List Reasm) :
    Kept s₀ (State.setReasm s rs) := by
  unfold State.setReasm
  apply State.set_kept
  apply Kept.mk_
  exact h

theorem State.freeReasm_kept {s₀ s : State} (h : Kept s₀ s) (r : Reasm) :
    Kept s₀ (State.freeReasm s r) := by
  unfold State.freeReasm
  apply State.setReasm_kept
  exact h

theorem State.macQueue_kept {s₀ s : State} (h : Kept s₀ s) (m : Nat) (cls : BitVec 2) (bs : List Byte) :
    Kept s₀ (State.macQueue s m cls bs) := by
  unfold State.macQueue
  refine Kept.ite_ ?_ ?_
  · apply State.inc_kept
    exact h
  · extract_lets -merge -useContext +onlyGivenNames a1
    clear_value a1
    extract_lets -merge -useContext +onlyGivenNames a2
    clear_value a2
    apply State.setMac_kept
    exact h

theorem State.ringSlots_kept {s₀ s : State} (h : Kept s₀ s) (k : Nat) :
    KeptQ s₀ (State.ringSlots s k) := by
  unfold State.ringSlots
  split
  · rename_i a1 e2
    refine KeptQ.some ?_
    exact h
  · rename_i a3 a4 e5
    split
    · rename_i a6 x7 a8 e9
      refine Kept.cut (s := s₀) (KeptQ.of ?_ e9) fun h10 => ?_
      · apply State.lookup_kept
        exact h
      refine KeptQ.some ?_
      exact h10
    · rename_i a11 e12
      exact KeptQ.none _

theorem State.deliver_kept {s₀ s : State} (h : Kept s₀ s) (r : Reasm) :
    Kept s₀ (State.deliver s r) := by
  unfold State.deliver
  extract_lets -merge -useContext +onlyGivenNames a1
  clear_value a1
  extract_lets -merge -useContext +onlyGivenNames a2
  clear_value a2
  extract_lets -merge -useContext +onlyGivenNames a3
  clear_value a3
  extract_lets -merge -useContext +onlyGivenNames a4
  clear_value a4
  refine Kept.ite_ ?_ ?_
  · exact h
  · split
    · rename_i a5 e6
      refine Kept.ite_ ?_ ?_
      · apply State.tunDrop_kept
        apply State.freeReasm_kept
        exact h
      · refine Kept.ite_ ?_ ?_
        · exact h
        · apply State.macQueue_kept
          apply State.freeReasm_kept
          exact h
    · rename_i a7 e8
      refine Kept.ite_ ?_ ?_
      · apply State.tunDrop_kept
        apply State.freeReasm_kept
        exact h
      · apply State.mbFromTunnel_kept
        apply State.freeReasm_kept
        exact h
    · rename_i a9 e10
      refine Kept.ite_ ?_ ?_
      · apply State.tunDrop_kept
        apply State.freeReasm_kept
        exact h
      · refine Kept.ite_ ?_ ?_
        · exact h
        · split
          · rename_i a11 e12
            exact h
          · rename_i a13 x14 a15 e16
            refine Kept.cut (s := s₀) (KeptQ.of ?_ e16) fun h17 => ?_
            · refine KeptQ.ite_ ?_ ?_
              · apply State.ringSlots_kept
                exact h
              · refine KeptQ.some ?_
                exact h
            refine Kept.ite_ ?_ ?_
            · apply State.tunDrop_kept
              apply State.freeReasm_kept
              exact h17
            · refine Kept.ite_ ?_ ?_
              · apply State.tunDrop_kept
                apply State.hostErr_kept
                apply State.freeReasm_kept
                exact h17
              · extract_lets -merge -useContext +onlyGivenNames a18
                have h19 : Kept s₀ a18 := by
                  unfold a18
                  apply State.setReasm_kept
                  exact h17
                clear_value a18
                apply State.readHost_kept
                exact h19
    · rename_i a20 e21 e22 e23
      apply State.tunDrop_kept
      apply State.freeReasm_kept
      exact h

theorem State.deliverAll_kept {s₀ s : State} (h : Kept s₀ s) :
    Kept s₀ (State.deliverAll s) := by
  unfold State.deliverAll
  refine Kept.foldl _ _ ?_ ?_
  · exact h
  · intro x1 a2 h3
    apply State.deliver_kept
    exact h3

theorem State.breakReasm_kept {s₀ s : State} (h : Kept s₀ s) (t : Nat) :
    Kept s₀ (State.breakReasm s t) := by
  unfold State.breakReasm
  split
  · rename_i a1 a2 e3
    apply State.tunDrop_kept
    apply State.freeReasm_kept
    exact h
  · rename_i a4 e5
    exact h

theorem State.reassemble_kept {s₀ s : State} (h : Kept s₀ s) (t : Nat) (c : Cell) :
    Kept s₀ (State.reassemble s t c) := by
  unfold State.reassemble
  extract_lets -merge -useContext +onlyGivenNames a1
  clear_value a1
  extract_lets -merge -useContext +onlyGivenNames a2
  clear_value a2
  extract_lets -merge -useContext +onlyGivenNames a3
  clear_value a3
  extract_lets -merge -useContext +onlyGivenNames a4
  clear_value a4
  refine Kept.ite_ ?_ ?_
  · extract_lets -merge -useContext +onlyGivenNames a5
    have h6 : Kept s₀ a5 := by
      unfold a5
      apply State.breakReasm_kept
      exact h
    clear_value a5
    refine Kept.ite_ ?_ ?_
    · apply State.tunDrop_kept
      exact h6
    · refine Kept.ite_ ?_ ?_
      · apply State.tunDrop_kept
        exact h6
      · extract_lets -merge -useContext +onlyGivenNames a7
        clear_value a7
        apply State.deliverAll_kept
        apply State.setReasm_kept
        exact h6
  · split
    · rename_i a8 e9
      apply State.tunDrop_kept
      exact h
    · rename_i a10 a11 e12
      refine Kept.ite_ ?_ ?_
      · extract_lets -merge -useContext +onlyGivenNames a13
        clear_value a13
        extract_lets -merge -useContext +onlyGivenNames a14
        clear_value a14
        extract_lets -merge -useContext +onlyGivenNames a15
        clear_value a15
        apply State.deliverAll_kept
        apply State.setReasm_kept
        exact h
      · apply State.breakReasm_kept
        exact h

theorem State.takeTunnel_kept {s₀ s : State} (h : Kept s₀ s) (c : Cell) :
    Kept s₀ (State.takeTunnel s c) := by
  unfold State.takeTunnel
  refine Kept.ite_ ?_ ?_
  · apply State.block_kept
    exact h
  · split
    · rename_i a1 x2 e3
      refine Kept.cut (s := s₀) (KeptP.of ?_ e3) fun h4 => ?_
      · apply State.decode_kept
        exact h
      apply State.block_kept
      exact h4
    · rename_i a5 x6 a7 e8
      refine Kept.cut (s := s₀) (KeptP.of ?_ e8) fun h9 => ?_
      · apply State.decode_kept
        exact h
      apply State.refuse_kept
      exact h9
    · rename_i a10 x11 e12
      refine Kept.cut (s := s₀) (KeptP.of ?_ e12) fun h13 => ?_
      · apply State.decode_kept
        exact h
      exact h13
    · rename_i a14 x15 a16 e17
      refine Kept.cut (s := s₀) (KeptP.of ?_ e17) fun h18 => ?_
      · apply State.decode_kept
        exact h
      refine Kept.ite_ ?_ ?_
      · apply State.reassemble_kept
        exact h18
      · exact h18

theorem execTunnelCellArrival_kept {s₀ s : State} (h : Kept s₀ s) (cell : Cell) :
    KeptR s₀ (execTunnelCellArrival cell s) := by
  unfold execTunnelCellArrival
  refine KeptR.ite_ ?_ ?_
  · refine KeptR.next ?_
    apply State.takeTunnel_kept
    exact h
  · exact KeptR.fault _ _

theorem execTunReasmTimeout_kept {s₀ s : State} (h : Kept s₀ s) (t : Fin 256) :
    KeptR s₀ (execTunReasmTimeout t s) := by
  unfold execTunReasmTimeout
  split
  · rename_i a1 e2
    refine KeptR.next ?_
    exact h
  · rename_i a3 a4 e5
    refine KeptR.next ?_
    apply State.breakReasm_kept
    apply State.waitUntil_kept
    exact h

theorem State.fillSlot_kept {s₀ s : State} (h : Kept s₀ s) (t slots : Nat) (w0 : Word) :
    Kept s₀ (State.fillSlot s t slots w0) := by
  unfold State.fillSlot
  split
  · rename_i a1 e2
    exact h
  · rename_i a3 a4 e5
    extract_lets -merge -useContext +onlyGivenNames a6
    clear_value a6
    extract_lets -merge -useContext +onlyGivenNames a7
    have h8 : Kept s₀ a7 := by
      unfold a7
      apply State.freeReasm_kept
      exact h
    clear_value a7
    refine Kept.ite_ ?_ ?_
    · apply State.tunDrop_kept
      exact h8
    · extract_lets -merge -useContext +onlyGivenNames a9
      clear_value a9
      extract_lets -merge -useContext +onlyGivenNames a10
      clear_value a10
      extract_lets -merge -useContext +onlyGivenNames a11
      clear_value a11
      extract_lets -merge -useContext +onlyGivenNames a12
      clear_value a12
      extract_lets -merge -useContext +onlyGivenNames a13
      have h14 : Kept s₀ a13 := by
        unfold a13
        apply State.writeHost_kept
        exact h8
      clear_value a13
      extract_lets -merge -useContext +onlyGivenNames a15
      have h16 : Kept s₀ a15 := by
        unfold a15
        apply State.writeHost_kept
        exact h14
      clear_value a15
      apply Kept.mk_
      exact h16

theorem State.hostFails_kept {s₀ s : State} (h : Kept s₀ s) (r : HostRead) :
    Kept s₀ (State.hostFails s r) := by
  unfold State.hostFails
  extract_lets -merge -useContext +onlyGivenNames a1
  have h2 : Kept s₀ a1 := by
    unfold a1
    apply State.hostErr_kept
    apply State.nextHostRead_kept
    exact h
  clear_value a1
  split
  · rename_i a3 a4 e5
    exact h2
  · rename_i a6 a7 a8 e9
    split
    · rename_i a10 a11 e12
      apply State.deliverAll_kept
      apply State.tunDrop_kept
      apply State.freeReasm_kept
      exact h2
    · rename_i a13 e14
      exact h2

theorem execHostCompletion_kept {s₀ s : State} (h : Kept s₀ s) (id : Nat) (answer : HostAnswer) :
    KeptR s₀ (execHostCompletion id answer s) := by
  unfold execHostCompletion
  split
  · rename_i a1 e2
    refine KeptR.next ?_
    exact h
  · rename_i a3 a4 e5
    extract_lets -merge -useContext +onlyGivenNames a6
    clear_value a6
    extract_lets -merge -useContext +onlyGivenNames a7
    clear_value a7
    extract_lets -merge -useContext +onlyGivenNames a8
    clear_value a8
    split
    · rename_i a9 a10
      refine KeptR.ite_ ?_ ?_
      · exact KeptR.fault _ _
      · extract_lets -merge -useContext +onlyGivenNames a11
        clear_value a11
        extract_lets -merge -useContext +onlyGivenNames a12
        have h13 : Kept s₀ a12 := by
          unfold a12
          apply State.nextHostRead_kept
          exact h
        clear_value a12
        refine KeptR.next ?_
        split
        · rename_i a14 a15 e16
          apply State.sendFor_kept
          exact h13
        · rename_i a17 a18 a19 e20
          apply State.deliverAll_kept
          apply State.fillSlot_kept
          exact h13
    · rename_i a21 e22
      refine KeptR.next ?_
      apply State.hostFails_kept
      exact h

theorem execHostReadTimeout_kept {s₀ s : State} (h : Kept s₀ s) (id : Nat) :
    KeptR s₀ (execHostReadTimeout id s) := by
  unfold execHostReadTimeout
  split
  · rename_i a1 e2
    refine KeptR.next ?_
    exact h
  · rename_i a3 a4 e5
    refine KeptR.next ?_
    apply State.hostFails_kept
    apply State.waitUntil_kept
    exact h

theorem execMacFrameReceived_kept {s₀ s : State} (h : Kept s₀ s) (m : Fin 12) (f : EthFrame) :
    KeptR s₀ (execMacFrameReceived m f s) := by
  unfold execMacFrameReceived
  extract_lets -merge -useContext +onlyGivenNames a1
  clear_value a1
  refine KeptR.ite_ ?_ ?_
  · refine KeptR.next ?_
    exact h
  · refine KeptR.ite_ ?_ ?_
    · refine KeptR.next ?_
      apply State.inc_kept
      exact h
    · refine KeptR.ite_ ?_ ?_
      · refine KeptR.next ?_
        apply State.inc_kept
        exact h
      · refine KeptR.ite_ ?_ ?_
        · refine KeptR.next ?_
          apply State.inc_kept
          exact h
        · extract_lets -merge -useContext +onlyGivenNames a2
          clear_value a2
          refine KeptR.ite_ ?_ ?_
          · refine KeptR.next ?_
            apply State.inc_kept
            exact h
          · extract_lets -merge -useContext +onlyGivenNames a3
            clear_value a3
            extract_lets -merge -useContext +onlyGivenNames a4
            clear_value a4
            extract_lets -merge -useContext +onlyGivenNames a5
            clear_value a5
            extract_lets -merge -useContext +onlyGivenNames a6
            clear_value a6
            extract_lets -merge -useContext +onlyGivenNames a7
            clear_value a7
            extract_lets -merge -useContext +onlyGivenNames a8
            have h9 : Kept s₀ a8 := by
              unfold a8
              apply State.setMac_kept
              exact h
            clear_value a8
            refine KeptR.next ?_
            refine Kept.ite_ ?_ ?_
            · apply State.inc_kept
              exact h9
            · exact h9

theorem State.macStamp_kept {s₀ s : State} (h : Kept s₀ s) (m seqid mtype : Nat) :
    Kept s₀ (State.macStamp s m seqid mtype) := by
  unfold State.macStamp
  extract_lets -merge -useContext +onlyGivenNames a1
  clear_value a1
  extract_lets -merge -useContext +onlyGivenNames a2
  clear_value a2
  refine Kept.ite_ ?_ ?_
  · apply State.setMac_kept
    exact h
  · apply State.raise_kept
    apply State.setMac_kept
    exact h

theorem execMacFrameSent_kept {s₀ s : State} (h : Kept s₀ s) (m : Fin 12) :
    KeptR s₀ (execMacFrameSent m s) := by
  unfold execMacFrameSent
  extract_lets -merge -useContext +onlyGivenNames a1
  clear_value a1
  extract_lets -merge -useContext +onlyGivenNames a2
  clear_value a2
  split
  · rename_i a3 e4
    refine KeptR.next ?_
    exact h
  · rename_i a5 a6 a7 e8
    refine KeptR.ite_ ?_ ?_
    · refine KeptR.next ?_
      apply State.deliverAll_kept
      apply State.inc_kept
      apply State.setMac_kept
      exact h
    · refine KeptR.ite_ ?_ ?_
      · refine KeptR.next ?_
        exact h
      · extract_lets -merge -useContext +onlyGivenNames a9
        clear_value a9
        extract_lets -merge -useContext +onlyGivenNames a10
        have h11 : Kept s₀ a10 := by
          unfold a10
          refine Kept.ite_ ?_ ?_
          · apply State.advance_kept
            exact h
          · exact h
        clear_value a10
        extract_lets -merge -useContext +onlyGivenNames a12
        have h13 : Kept s₀ a12 := by
          unfold a12
          apply State.inc_kept
          apply State.set_kept
          apply State.setMac_kept
          exact h11
        clear_value a12
        extract_lets -merge -useContext +onlyGivenNames a14
        have h15 : Kept s₀ a14 := by
          unfold a14
          split
          · rename_i a16 a17 a18 e19
            apply State.macStamp_kept
            exact h13
          · rename_i a20 e21
            exact h13
        clear_value a14
        refine KeptR.next ?_
        apply State.deliverAll_kept
        apply State.emit_kept
        exact h15

theorem State.popStamp_kept {s₀ s : State} (h : Kept s₀ s) (m : Nat) :
    Kept s₀ (State.popStamp s m) := by
  unfold State.popStamp
  extract_lets -merge -useContext +onlyGivenNames a1
  clear_value a1
  apply State.setMac_kept
  exact h

theorem execMacLinkUp_kept {s₀ s : State} (h : Kept s₀ s) (m : Fin 12) (rate : Fin 5) :
    KeptR s₀ (execMacLinkUp m rate s) := by
  unfold execMacLinkUp
  extract_lets -merge -useContext +onlyGivenNames a1
  clear_value a1
  refine KeptR.ite_ ?_ ?_
  · refine KeptR.next ?_
    exact h
  · extract_lets -merge -useContext +onlyGivenNames a2
    have h3 : Kept s₀ a2 := by
      unfold a2
      apply State.raise_kept
      apply State.set_kept
      apply State.set_kept
      exact h
    clear_value a2
    extract_lets -merge -useContext +onlyGivenNames a4
    have h5 : Kept s₀ a4 := by
      unfold a4
      apply State.endLevel_kept
      exact h3
    clear_value a4
    extract_lets -merge -useContext +onlyGivenNames a6
    have h7 : Kept s₀ a6 := by
      unfold a6
      refine Kept.ite_ ?_ ?_
      · apply State.raise_kept
        exact h5
      · exact h5
    clear_value a6
    extract_lets -merge -useContext +onlyGivenNames a8
    clear_value a8
    extract_lets -merge -useContext +onlyGivenNames a9
    clear_value a9
    extract_lets -merge -useContext +onlyGivenNames a10
    clear_value a10
    extract_lets -merge -useContext +onlyGivenNames a11
    have h12 : Kept s₀ a11 := by
      unfold a11
      apply State.setMac_kept
      exact h7
    clear_value a11
    refine KeptR.next ?_
    apply State.deliverAll_kept
    apply State.addSat_kept
    exact h12

theorem execMacLinkDown_kept {s₀ s : State} (h : Kept s₀ s) (m : Fin 12) :
    KeptR s₀ (execMacLinkDown m s) := by
  unfold execMacLinkDown
  refine KeptR.next ?_
  apply State.macDown_kept
  exact h

theorem State.macHoldEnds_kept {s₀ s : State} (h : Kept s₀ s) (m : Nat) :
    Kept s₀ (State.macHoldEnds s m) := by
  unfold State.macHoldEnds
  extract_lets -merge -useContext +onlyGivenNames a1
  clear_value a1
  extract_lets -merge -useContext +onlyGivenNames a2
  clear_value a2
  extract_lets -merge -useContext +onlyGivenNames a3
  have h4 : Kept s₀ a3 := by
    unfold a3
    apply State.addSat_kept
    apply State.setMac_kept
    exact h
  clear_value a3
  apply State.deliverAll_kept
  refine Kept.ite_ ?_ ?_
  · exact h4
  · apply State.raise_kept
    exact h4

theorem execPortHoldExpiry_kept {s₀ s : State} (h : Kept s₀ s) (p : Fin 16) :
    KeptR s₀ (execPortHoldExpiry p s) := by
  unfold execPortHoldExpiry
  extract_lets -merge -useContext +onlyGivenNames a1
  clear_value a1
  split
  · rename_i a2 e3
    refine KeptR.next ?_
    exact h
  · rename_i a4 a5 e6
    extract_lets -merge -useContext +onlyGivenNames a7
    have h8 : Kept s₀ a7 := by
      unfold a7
      apply State.waitUntil_kept
      exact h
    clear_value a7
    refine KeptR.next ?_
    refine Kept.ite_ ?_ ?_
    · apply State.holdEnds_kept
      exact h8
    · apply State.macHoldEnds_kept
      exact h8

theorem execFallbackPeriod_kept {s₀ s : State} (h : Kept s₀ s) (m : Fin 12) :
    KeptR s₀ (execFallbackPeriod m s) := by
  unfold execFallbackPeriod
  extract_lets -merge -useContext +onlyGivenNames a1
  clear_value a1
  refine KeptR.ite_ ?_ ?_
  · refine KeptR.next ?_
    exact h
  · extract_lets -merge -useContext +onlyGivenNames a2
    have h3 : Kept s₀ a2 := by
      unfold a2
      apply State.waitUntil_kept
      exact h
    clear_value a2
    refine KeptR.next ?_
    apply State.setMac_kept
    exact h3

theorem execLpiEntry_kept {s₀ s : State} (h : Kept s₀ s) (m : Fin 12) :
    KeptR s₀ (execLpiEntry m s) := by
  unfold execLpiEntry
  extract_lets -merge -useContext +onlyGivenNames a1
  clear_value a1
  refine KeptR.ite_ ?_ ?_
  · refine KeptR.next ?_
    exact h
  · extract_lets -merge -useContext +onlyGivenNames a2
    have h3 : Kept s₀ a2 := by
      unfold a2
      apply State.waitUntil_kept
      exact h
    clear_value a2
    refine KeptR.next ?_
    apply State.set_kept
    exact h3

theorem State.writeMacCtl_kept {s₀ s : State} (h : Kept s₀ s) (m : Nat) (v : Word) :
    Kept s₀ (State.writeMacCtl s m v) := by
  unfold State.writeMacCtl
  extract_lets -merge -useContext +onlyGivenNames a1
  clear_value a1
  extract_lets -merge -useContext +onlyGivenNames a2
  clear_value a2
  extract_lets -merge -useContext +onlyGivenNames a3
  have h4 : Kept s₀ a3 := by
    unfold a3
    apply State.set_kept
    apply State.set_kept
    exact h
  clear_value a3
  extract_lets -merge -useContext +onlyGivenNames a5
  have h6 : Kept s₀ a5 := by
    unfold a5
    apply State.set_kept
    exact h4
  clear_value a5
  extract_lets -merge -useContext +onlyGivenNames a7
  have h8 : Kept s₀ a7 := by
    unfold a7
    refine Kept.ite_ ?_ ?_
    · exact h6
    · apply State.set_kept
      exact h6
  clear_value a7
  extract_lets -merge -useContext +onlyGivenNames a9
  have h10 : Kept s₀ a9 := by
    unfold a9
    refine Kept.ite_ ?_ ?_
    · apply State.macJudge_kept
      exact h8
    · exact h8
  clear_value a9
  refine Kept.ite_ ?_ ?_
  · apply State.endLevel_kept
    apply State.macDown_kept
    exact h10
  · refine Kept.ite_ ?_ ?_
    · apply State.setMac_kept
      exact h10
    · exact h10

theorem State.writeMacCfg_kept {s₀ s : State} (h : Kept s₀ s) (m : Nat) (v : Word) :
    Kept s₀ (State.writeMacCfg s m v) := by
  unfold State.writeMacCfg
  extract_lets -merge -useContext +onlyGivenNames a1
  clear_value a1
  refine Kept.ite_ ?_ ?_
  · exact h
  · apply State.macJudge_kept
    refine Kept.foldl _ _ ?_ ?_
    · exact h
    · intro x2 a3 h4
      apply State.set_kept
      exact h4

theorem State.writeTun_kept {s₀ s : State} (h : Kept s₀ s) (t : Nat) (v : Word) :
    Kept s₀ (State.writeTun s t v) := by
  unfold State.writeTun
  refine Kept.ite_ ?_ ?_
  · exact h
  · extract_lets -merge -useContext +onlyGivenNames a1
    have h2 : Kept s₀ a1 := by
      unfold a1
      refine Kept.foldl _ _ ?_ ?_
      · exact h
      · intro x3 a4 h5
        apply State.set_kept
        exact h5
    clear_value a1
    apply Kept.mk_
    exact h2

end Sys2Proof.Machine
end

