-- ==== Sys2Proof/Laws/KeptFault.lean ====
section
/-! SUPPORT. What the operations of `Machine/Fault.lean` keep: the queue, the direction of the clock, sound
stores. -/

namespace Sys2Proof.Machine

theorem State.signal_kept {s₀ s : State} (h : Kept s₀ s) (fn vec : Nat) :
    Kept s₀ (State.signal s fn vec) := by
  unfold State.signal
  extract_lets -merge -useContext +onlyGivenNames a1
  clear_value a1
  extract_lets -merge -useContext +onlyGivenNames a2
  clear_value a2
  refine Kept.ite_ ?_ ?_
  · apply State.emit_kept
    refine Kept.mkFlt ?_ ?_ ?_ ?_
    · exact h
    · rfl
    · rfl
    · rfl
  · refine Kept.ite_ ?_ ?_
    · exact h
    · refine Kept.mkFlt ?_ ?_ ?_ ?_
      · exact h
      · rfl
      · rfl
      · rfl

theorem State.signalPending_kept {s₀ s : State} (h : Kept s₀ s) :
    Kept s₀ (State.signalPending s) := by
  unfold State.signalPending
  refine Kept.foldl _ _ ?_ ?_
  · exact h
  · intro x1 a2 h3
    apply State.signal_kept
    exact h3

theorem State.interrupts_kept {s₀ s : State} (h : Kept s₀ s) (k : Kind) :
    Kept s₀ (State.interrupts s k) := by
  unfold State.interrupts
  extract_lets -merge -useContext +onlyGivenNames a1
  have h2 : Kept s₀ a1 := by
    unfold a1
    refine Kept.ite_ ?_ ?_
    · apply State.signal_kept
      exact h
    · exact h
  clear_value a1
  extract_lets -merge -useContext +onlyGivenNames a3
  clear_value a3
  extract_lets -merge -useContext +onlyGivenNames a4
  have h5 : Kept s₀ a4 := by
    unfold a4
    refine Kept.ite_ ?_ ?_
    · apply State.signal_kept
      exact h2
    · exact h2
  clear_value a4
  refine State.each_kept _ _ ?_ ?_
  · exact h5
  · intro a6 x7 h8
    refine Kept.ite_ ?_ ?_
    · apply State.signal_kept
      exact h8
    · exact h8

theorem State.queueForward_kept {s₀ s : State} (h : Kept s₀ s) (m : Msg) :
    Kept s₀ (State.queueForward s m) := by
  unfold State.queueForward
  refine Kept.ite_ h ?_
  split
  · apply State.inc_kept
    refine h.same rfl rfl fun w => ⟨w.mem, w.regs, w.doors, w.wheel, w.causes, ?_, w.remote⟩
    have := w.fwd
    simp only [List.length_append, List.length_drop, List.length_cons, List.length_nil]
    omega
  · rename_i hn
    refine h.same rfl rfl fun w => ⟨w.mem, w.regs, w.doors, w.wheel, w.causes, ?_, w.remote⟩
    simp only [List.length_append, List.length_cons, List.length_nil]
    omega

theorem State.recordMsg_kept {s₀ s : State} (h : Kept s₀ s) (m : Msg) (summary : Bool) :
    Kept s₀ (State.recordMsg s m summary) := by
  unfold State.recordMsg
  extract_lets -merge -useContext +onlyGivenNames a1
  clear_value a1
  extract_lets -merge -useContext +onlyGivenNames a2
  clear_value a2
  extract_lets -merge -useContext +onlyGivenNames a3
  extract_lets -merge -useContext +onlyGivenNames a4
  have h5 : Kept s₀ a4 := by
    unfold a4
    refine Kept.mkFlt ?_ ?_ ?_ ?_
    · exact h
    · rfl
    · rfl
    · rfl
  clear_value a4
  extract_lets -merge -useContext +onlyGivenNames a6
  have h7 : Kept s₀ a6 := by
    unfold a6
    apply State.set_kept
    apply State.set_kept
    exact h5
  clear_value a6
  extract_lets -merge -useContext +onlyGivenNames a8
  have h9 : Kept s₀ a8 := by
    unfold a8
    apply State.queueForward_kept
    apply State.interrupts_kept
    exact h7
  clear_value a8
  refine Kept.ite_ ?_ ?_
  · apply State.holdRequested_kept
    exact h9
  · exact h9

theorem State.drainN_kept {s₀ s : State} (h : Kept s₀ s) (n : Nat) : Kept s₀ (State.drainN s n) := by
  induction n generalizing s with
  | zero => exact h
  | succ n ih =>
    unfold State.drainN
    split
    · rename_i a1 e2
      exact h
    · rename_i a3 a4 a5 e6
      apply ih
      apply State.recordMsg_kept
      refine Kept.mkFlt ?_ ?_ ?_ ?_
      · exact h
      · rfl
      · rfl
      · rfl

theorem State.drainSummaries_kept {s₀ s : State} (h : Kept s₀ s) :
    Kept s₀ (State.drainSummaries s) := by
  unfold State.drainSummaries
  apply State.drainN_kept
  exact h

theorem State.queueSummaries_kept {s₀ s : State} (h : Kept s₀ s) :
    Kept s₀ (State.queueSummaries s) := by
  unfold State.queueSummaries
  refine Kept.mkFlt ?_ ?_ ?_ ?_
  · exact h
  · rfl
  · rfl
  · rfl

theorem State.setSticky_kept {s₀ s : State} (h : Kept s₀ s) (k : Kind) :
    Kept s₀ (State.setSticky s k) := by
  unfold State.setSticky
  refine Kept.ite_ ?_ ?_
  · apply State.setBit_kept
    exact h
  · exact h

theorem State.fileReport_kept {s₀ s : State} (h : Kept s₀ s) (r : Report) :
    Kept s₀ (State.fileReport s r) := by
  unfold State.fileReport
  extract_lets -merge -useContext +onlyGivenNames a1
  have h2 : Kept s₀ a1 := by
    unfold a1
    apply State.drainSummaries_kept
    apply State.setSticky_kept
    exact h
  clear_value a1
  extract_lets -merge -useContext +onlyGivenNames a3
  clear_value a3
  extract_lets -merge -useContext +onlyGivenNames a4
  clear_value a4
  refine Kept.ite_ ?_ ?_
  · apply State.recordMsg_kept
    refine Kept.mkFlt ?_ ?_ ?_ ?_
    · exact h2
    · rfl
    · rfl
    · rfl
  · extract_lets -merge -useContext +onlyGivenNames a5
    have h6 : Kept s₀ a5 := by
      unfold a5
      refine Kept.ite_ ?_ ?_
      · apply State.inc_kept
        exact h2
      · exact h2
    clear_value a5
    refine Kept.mkFlt ?_ ?_ ?_ ?_
    · exact h6
    · rfl
    · rfl
    · rfl

theorem execFaultReport_kept {s₀ s : State} (h : Kept s₀ s) :
    KeptR s₀ (execFaultReport s) := by
  unfold execFaultReport
  split
  · rename_i a1 e2
    refine KeptR.next ?_
    exact h
  · rename_i a3 a4 e5
    refine KeptR.next ?_
    apply State.fileReport_kept
    refine Kept.mkFlt ?_ ?_ ?_ ?_
    · exact h
    · rfl
    · rfl
    · rfl

theorem execSummaryDrain_kept {s₀ s : State} (h : Kept s₀ s) :
    KeptR s₀ (execSummaryDrain s) := by
  unfold execSummaryDrain
  refine KeptR.ite_ ?_ ?_
  · refine KeptR.next ?_
    exact h
  · refine KeptR.next ?_
    apply State.drainSummaries_kept
    refine Kept.ite_ ?_ ?_
    · exact h
    · apply State.advance_kept
      exact h

theorem State.setAgain_kept {s₀ s : State} (h : Kept s₀ s) (ks : List Kind) :
    Kept s₀ (State.setAgain s ks) := by
  unfold State.setAgain
  extract_lets -merge -useContext +onlyGivenNames a1
  clear_value a1
  refine Kept.ite_ ?_ ?_
  · exact h
  · refine Kept.foldl _ _ ?_ ?_
    · apply State.advance_kept
      exact h
    · intro x2 a3 h4
      apply State.raise_kept
      apply State.setSticky_kept
      exact h4

theorem State.clearSticky_kept {s₀ s : State} (h : Kept s₀ s) (src j : Nat) (v : Word) :
    Kept s₀ (State.clearSticky s src j v) := by
  unfold State.clearSticky
  extract_lets -merge -useContext +onlyGivenNames a1
  clear_value a1
  extract_lets -merge -useContext +onlyGivenNames a2
  clear_value a2
  extract_lets -merge -useContext +onlyGivenNames a3
  have h4 : Kept s₀ a3 := by
    unfold a3
    refine Kept.foldl _ _ ?_ ?_
    · exact h
    · intro x5 a6 h7
      apply State.setBit_kept
      exact h7
  clear_value a3
  apply State.setAgain_kept
  exact h4

theorem execStickyClear_kept {s₀ s : State} (h : Kept s₀ s) (src : Fin 16) (j : Fin 6) (v : Word) :
    KeptR s₀ (execStickyClear src j v s) := by
  unfold execStickyClear
  refine KeptR.next ?_
  apply State.clearSticky_kept
  exact h

theorem State.clearAllSticky_kept {s₀ s : State} (h : Kept s₀ s) :
    Kept s₀ (State.clearAllSticky s) := by
  unfold State.clearAllSticky
  extract_lets -merge -useContext +onlyGivenNames a1
  clear_value a1
  extract_lets -merge -useContext +onlyGivenNames a2
  have h3 : Kept s₀ a2 := by
    unfold a2
    refine State.each_kept _ _ ?_ ?_
    · exact h
    · intro a4 x5 h6
      refine State.each_kept _ _ ?_ ?_
      · exact h6
      · intro a7 x8 h9
        apply State.set_kept
        exact h9
  clear_value a2
  apply State.setAgain_kept
  exact h3

theorem execClrall_kept {s₀ s : State} (h : Kept s₀ s) :
    KeptR s₀ (execClrall s) := by
  unfold execClrall
  refine KeptR.next ?_
  apply State.clearAllSticky_kept
  exact h

theorem State.writeFltCtl_kept {s₀ s : State} (h : Kept s₀ s) (v : Word) :
    Kept s₀ (State.writeFltCtl s v) := by
  unfold State.writeFltCtl
  extract_lets -merge -useContext +onlyGivenNames a1
  have h2 : Kept s₀ a1 := by
    unfold a1
    apply State.set_kept
    exact h
  clear_value a1
  refine Kept.ite_ ?_ ?_
  · apply State.clearAllSticky_kept
    exact h2
  · exact h2

theorem State.remoteArrive_kept {s₀ s : State} (h : Kept s₀ s) (ws : List Word) :
    Kept s₀ (State.remoteArrive s ws) := by
  unfold State.remoteArrive
  refine Kept.ite_ h ?_
  split
  · exact State.inc_kept h _
  · rename_i hn
    have hx : ∀ q : Nat × Msg, Kept s₀ { s with flt := { s.flt with remoteQ := s.flt.remoteQ ++ [q] } } := by
      intro q
      refine h.same rfl rfl fun w => ⟨w.mem, w.regs, w.doors, w.wheel, w.causes, w.fwd, ?_⟩
      simp only [List.length_append, List.length_cons, List.length_nil]
      omega
    exact Kept.ite_ (State.signal_kept (hx _) _ _) (hx _)

theorem execForwardedMessageReceived_kept {s₀ s : State} (h : Kept s₀ s) (cell : Cell) :
    KeptR s₀ (execForwardedMessageReceived cell s) := by
  unfold execForwardedMessageReceived
  refine KeptR.ite_ ?_ ?_
  · exact KeptR.fault _ _
  · refine KeptR.next ?_
    refine Kept.ite_ ?_ ?_
    · apply State.remoteArrive_kept
      exact h
    · exact h

theorem State.popRemote_kept {s₀ s : State} (h : Kept s₀ s) : Kept s₀ (State.popRemote s) :=
  h.same rfl rfl fun w => ⟨w.mem, w.regs, w.doors, w.wheel, w.causes, w.fwd,
    Nat.le_trans (List.drop_sublist _ _).length_le w.remote⟩

end Sys2Proof.Machine
end

