-- ==== Sys2Proof/Laws/KeptRed.lean ====
section
/-! SUPPORT. What the operations of `Machine/Red.lean` keep: the queue, the direction of the clock, sound
stores. -/

namespace Sys2Proof.Machine

theorem State.redConfig_kept {s₀ s : State} (h : Kept s₀ s) :
    Kept s₀ (State.redConfig s) := by
  unfold State.redConfig
  apply State.raise_kept
  exact h

theorem State.portsTakeOver_kept {s₀ s : State} (h : Kept s₀ s) :
    Kept s₀ (State.portsTakeOver s) := by
  unfold State.portsTakeOver
  refine State.each_kept _ _ ?_ ?_
  · exact h
  · intro a1 x2 h3
    refine Kept.ite_ ?_ ?_
    · apply State.setPort_kept
      exact h3
    · exact h3

theorem State.takeOver_kept {s₀ s : State} (h : Kept s₀ s) :
    Kept s₀ (State.takeOver s) := by
  unfold State.takeOver
  extract_lets -merge -useContext +onlyGivenNames a1
  have h2 : Kept s₀ a1 := by
    unfold a1
    refine Kept.ite_ ?_ ?_
    · apply State.inc_kept
      exact h
    · exact h
  clear_value a1
  extract_lets -merge -useContext +onlyGivenNames a3
  have h4 : Kept s₀ a3 := by
    unfold a3
    apply State.portsTakeOver_kept
    apply State.redState_kept
    apply State.enterMode_kept
    exact h2
  clear_value a3
  apply State.raise_kept
  apply State.inc_kept
  exact h4

theorem State.becomeActive_kept {s₀ s : State} (h : Kept s₀ s) :
    Kept s₀ (State.becomeActive s) := by
  unfold State.becomeActive
  apply State.portsTakeOver_kept
  apply State.redState_kept
  apply State.enterMode_kept
  exact h

theorem State.activeAlone_kept {s₀ s : State} (h : Kept s₀ s) :
    Kept s₀ (State.activeAlone s) := by
  unfold State.activeAlone
  apply State.raiseLevel_kept
  apply State.becomeActive_kept
  exact h

theorem State.activeAgain_kept {s₀ s : State} (h : Kept s₀ s) :
    Kept s₀ (State.activeAgain s) := by
  unfold State.activeAgain
  apply State.raise_kept
  apply State.inc_kept
  apply State.becomeActive_kept
  exact h

theorem execHeartbeatReceived_kept {s₀ s : State} (h : Kept s₀ s) (cell : Cell) :
    KeptR s₀ (execHeartbeatReceived cell s) := by
  unfold execHeartbeatReceived
  refine KeptR.ite_ ?_ ?_
  · exact KeptR.fault _ _
  · extract_lets -merge -useContext +onlyGivenNames a1
    clear_value a1
    extract_lets -merge -useContext +onlyGivenNames a2
    clear_value a2
    refine KeptR.ite_ ?_ ?_
    · refine KeptR.next ?_
      exact h
    · extract_lets -merge -useContext +onlyGivenNames a3
      have h4 : Kept s₀ a3 := by
        unfold a3
        apply State.set_kept
        exact h
      clear_value a3
      refine KeptR.ite_ ?_ ?_
      · extract_lets -merge -useContext +onlyGivenNames a5
        clear_value a5
        extract_lets -merge -useContext +onlyGivenNames a6
        have h7 : Kept s₀ a6 := by
          unfold a6
          apply Kept.mk_
          exact h4
        clear_value a6
        extract_lets -merge -useContext +onlyGivenNames a8
        have h9 : Kept s₀ a8 := by
          unfold a8
          apply State.endLevel_kept
          exact h7
        clear_value a8
        refine KeptR.next ?_
        refine Kept.ite_ ?_ ?_
        · apply Kept.mk_
          exact h9
        · exact h9
      · refine KeptR.next ?_
        exact h4

theorem State.redSwap_kept {s₀ s : State} (h : Kept s₀ s) :
    Kept s₀ (State.redSwap s) := by
  unfold State.redSwap
  refine Kept.ite_ ?_ ?_
  · apply State.raise_kept
    apply Kept.mk_
    exact h
  · apply State.redConfig_kept
    exact h

theorem execRedSwap_kept {s₀ s : State} (h : Kept s₀ s) :
    KeptR s₀ (execRedSwap s) := by
  unfold execRedSwap
  refine KeptR.next ?_
  apply State.redSwap_kept
  exact h

theorem State.writeRedCfg_kept {s₀ s : State} (h : Kept s₀ s) (v : Word) :
    Kept s₀ (State.writeRedCfg s v) := by
  unfold State.writeRedCfg
  refine Kept.ite_ ?_ ?_
  · exact h
  · extract_lets -merge -useContext +onlyGivenNames a1
    have h2 : Kept s₀ a1 := by
      unfold a1
      apply State.set_kept
      apply State.set_kept
      apply State.set_kept
      exact h
    clear_value a1
    refine Kept.ite_ ?_ ?_
    · apply State.set_kept
      apply State.set_kept
      exact h2
    · refine Kept.ite_ ?_ ?_
      · exact h2
      · apply State.redConfig_kept
        exact h2

theorem State.redMove_kept {s₀ s : State} (h : Kept s₀ s) :
    Kept s₀ (State.redMove s) := by
  unfold State.redMove
  extract_lets -merge -useContext +onlyGivenNames a1
  clear_value a1
  refine Kept.ite_ ?_ ?_
  · refine Kept.ite_ ?_ ?_
    · refine Kept.ite_ ?_ ?_
      · apply State.redState_kept
        exact h
      · refine Kept.ite_ ?_ ?_
        · apply State.redState_kept
          exact h
        · apply State.activeAlone_kept
          exact h
    · exact h
  · refine Kept.ite_ ?_ ?_
    · refine Kept.ite_ ?_ ?_
      · apply State.takeOver_kept
        exact h
      · exact h
    · exact h

theorem State.redCycle_kept {s₀ s : State} (h : Kept s₀ s) :
    Kept s₀ (State.redCycle s) := by
  unfold State.redCycle
  refine Kept.ite_ ?_ ?_
  · exact h
  · extract_lets -merge -useContext +onlyGivenNames a1
    have h2 : Kept s₀ a1 := by
      unfold a1
      apply State.set_kept
      exact h
    clear_value a1
    extract_lets -merge -useContext +onlyGivenNames a3
    clear_value a3
    extract_lets -merge -useContext +onlyGivenNames a4
    have h5 : Kept s₀ a4 := by
      unfold a4
      apply Kept.mk_
      exact h2
    clear_value a4
    extract_lets -merge -useContext +onlyGivenNames a6
    have h7 : Kept s₀ a6 := by
      unfold a6
      refine Kept.ite_ ?_ ?_
      · apply State.redMove_kept
        exact h5
      · exact h5
    clear_value a6
    apply Kept.mk_
    exact h7

theorem State.redBoundary_kept {s₀ s : State} (h : Kept s₀ s) :
    Kept s₀ (State.redBoundary s) := by
  unfold State.redBoundary
  extract_lets -merge -useContext +onlyGivenNames a1
  clear_value a1
  extract_lets -merge -useContext +onlyGivenNames a2
  have h3 : Kept s₀ a2 := by
    unfold a2
    apply Kept.mk_
    exact h
  clear_value a2
  extract_lets -merge -useContext +onlyGivenNames a4
  clear_value a4
  extract_lets -merge -useContext +onlyGivenNames a5
  have h6 : Kept s₀ a5 := by
    unfold a5
    refine Kept.ite_ ?_ ?_
    · apply Kept.mk_
      exact h3
    · exact h3
  clear_value a5
  refine Kept.ite_ ?_ ?_
  · exact h6
  · refine Kept.ite_ ?_ ?_
    · apply State.redState_kept
      apply State.enterMode_kept
      exact h6
    · refine Kept.ite_ ?_ ?_
      · extract_lets -merge -useContext +onlyGivenNames a7
        have h8 : Kept s₀ a7 := by
          unfold a7
          apply State.redState_kept
          apply State.enterMode_kept
          exact h6
        clear_value a7
        apply Kept.mk_
        exact h8
      · refine Kept.ite_ ?_ ?_
        · apply State.activeAlone_kept
          exact h6
        · refine Kept.ite_ ?_ ?_
          · apply State.activeAgain_kept
            exact h6
          · exact h6

theorem State.mirrorFrom_kept {s₀ s : State} (h : Kept s₀ s) (ch n : Nat) :
    Kept s₀ (State.mirrorFrom s ch n) := by
  induction n generalizing s ch with
  | zero =>
    unfold State.mirrorFrom
    extract_lets -merge -useContext +onlyGivenNames a1
    clear_value a1
    extract_lets -merge -useContext +onlyGivenNames a2
    have h3 : Kept s₀ a2 := by
      unfold a2
      apply Kept.mk_
      exact h
    clear_value a2
    apply State.set_kept
    exact h3
  | succ n ih =>
    unfold State.mirrorFrom
    split
    · rename_i a1 e2
      apply Kept.mk_
      exact h
    · rename_i a3 x4 a5 e6
      refine Kept.cut (s := s₀) (KeptQ.of ?_ e6) fun h7 => ?_
      · apply State.lookup_kept
        exact h
      refine Kept.ite_ ?_ ?_
      · split
        · rename_i a8 x9 e10
          refine Kept.cut (s := s₀) (KeptP.of ?_ e10) fun h11 => ?_
          · apply State.readChan_kept
            exact h7
          apply ih
          exact h11
        · rename_i a12 x13 a14 e15
          refine Kept.cut (s := s₀) (KeptP.of ?_ e15) fun h16 => ?_
          · apply State.readChan_kept
            exact h7
          apply Kept.mk_
          exact h16
        · rename_i a17 x18 a19 e20
          refine Kept.cut (s := s₀) (KeptP.of ?_ e20) fun h21 => ?_
          · apply State.readChan_kept
            exact h7
          apply Kept.mk_
          exact h21
      · apply ih
        exact h7

theorem execMirrorPass_kept {s₀ s : State} (h : Kept s₀ s) :
    KeptR s₀ (execMirrorPass s) := by
  unfold execMirrorPass
  extract_lets -merge -useContext +onlyGivenNames a1
  clear_value a1
  extract_lets -merge -useContext +onlyGivenNames a2
  clear_value a2
  refine KeptR.ite_ ?_ ?_
  · refine KeptR.next ?_
    exact h
  · extract_lets -merge -useContext +onlyGivenNames a3
    clear_value a3
    refine KeptR.next ?_
    apply State.mirrorFrom_kept
    exact h

theorem State.discardPass_kept {s₀ s : State} (h : Kept s₀ s) (k : Kind) (ch : Nat) :
    Kept s₀ (State.discardPass s k ch) := by
  unfold State.discardPass
  extract_lets -merge -useContext +onlyGivenNames a1
  clear_value a1
  extract_lets -merge -useContext +onlyGivenNames a2
  have h3 : Kept s₀ a2 := by
    unfold a2
    apply Kept.mk_
    exact h
  clear_value a2
  apply State.raise_kept
  apply State.inc_kept
  exact h3

theorem State.noteRound_kept {s₀ s : State} (h : Kept s₀ s) (r : Nat) :
    Kept s₀ (State.noteRound s r) := by
  unfold State.noteRound
  split
  · rename_i a1 e2
    apply Kept.mk_
    exact h
  · rename_i a3 a4 e5
    refine Kept.ite_ ?_ ?_
    · exact h
    · extract_lets -merge -useContext +onlyGivenNames a6
      clear_value a6
      extract_lets -merge -useContext +onlyGivenNames a7
      have h8 : Kept s₀ a7 := by
        unfold a7
        refine Kept.ite_ ?_ ?_
        · apply State.set_kept
          apply Kept.mk_
          exact h
        · exact h
      clear_value a7
      apply Kept.mk_
      exact h8

theorem State.beginPass_kept {s₀ s : State} (h : Kept s₀ s) (ch : Nat) (e : Entry) :
    Kept s₀ (State.beginPass s ch e) := by
  unfold State.beginPass
  extract_lets -merge -useContext +onlyGivenNames a1
  have h2 : Kept s₀ a1 := by
    unfold a1
    split
    · rename_i a3 a4 e5
      apply State.discardPass_kept
      exact h
    · rename_i a6 e7
      exact h
  clear_value a1
  refine Kept.ite_ ?_ ?_
  · refine Kept.mkTbl ?_ ?_ ?_ ?_
    · exact h2
    · rfl
    · rfl
    · rfl
  · apply State.discardPass_kept
    exact h2

theorem State.appendPass_kept {s₀ s : State} (h : Kept s₀ s) (x : MirrorRx) (last : Bool) (data : List Word) :
    Kept s₀ (State.appendPass s x last data) := by
  unfold State.appendPass
  extract_lets -merge -useContext +onlyGivenNames a1
  clear_value a1
  refine Kept.ite_ ?_ ?_
  · apply State.discardPass_kept
    exact h
  · extract_lets -merge -useContext +onlyGivenNames a2
    have h3 : Kept s₀ a2 := by
      unfold a2
      refine Kept.ite_ ?_ ?_
      · apply State.putChan_kept
        exact h
      · refine Kept.ite_ ?_ ?_
        · apply State.putChan_kept
          exact h
        · exact h
    clear_value a2
    apply Kept.mk_
    exact h3

theorem State.continuePass_kept {s₀ s : State} (h : Kept s₀ s) (ch cidx : Nat) (last : Bool) (data : List Word) :
    Kept s₀ (State.continuePass s ch cidx last data) := by
  unfold State.continuePass
  split
  · rename_i a1 a2 e3
    refine Kept.ite_ ?_ ?_
    · apply State.appendPass_kept
      exact h
    · extract_lets -merge -useContext +onlyGivenNames a4
      have h5 : Kept s₀ a4 := by
        unfold a4
        apply State.discardPass_kept
        exact h
      clear_value a4
      refine Kept.ite_ ?_ ?_
      · exact h5
      · apply State.discardPass_kept
        exact h5
  · rename_i a6 e7
    refine Kept.ite_ ?_ ?_
    · exact h
    · apply State.discardPass_kept
      exact h

theorem State.mirrorArrive_kept {s₀ s : State} (h : Kept s₀ s) (ws : List Word) :
    Kept s₀ (State.mirrorArrive s ws) := by
  unfold State.mirrorArrive
  extract_lets -merge -useContext +onlyGivenNames a1
  clear_value a1
  extract_lets -merge -useContext +onlyGivenNames a2
  clear_value a2
  extract_lets -merge -useContext +onlyGivenNames a3
  clear_value a3
  refine Kept.ite_ ?_ ?_
  · apply Kept.mk_
    exact h
  · extract_lets -merge -useContext +onlyGivenNames a4
    clear_value a4
    extract_lets -merge -useContext +onlyGivenNames a5
    clear_value a5
    extract_lets -merge -useContext +onlyGivenNames a6
    clear_value a6
    extract_lets -merge -useContext +onlyGivenNames a7
    have h8 : Kept s₀ a7 := by
      unfold a7
      apply Kept.mk_
      exact h
    clear_value a7
    extract_lets -merge -useContext +onlyGivenNames a9
    refine Kept.ite_ ?_ ?_
    · apply State.block_kept
      exact h8
    · refine Kept.ite_ ?_ ?_
      · unfold a9
        apply State.continuePass_kept
        apply State.noteRound_kept
        exact h8
      · split
        · rename_i a10 e11
          apply State.block_kept
          exact h8
        · rename_i a12 x13 a14 e15
          refine Kept.cut (s := s₀) (KeptQ.of ?_ e15) fun h16 => ?_
          · apply State.lookup_kept
            exact h8
          unfold a9
          apply State.continuePass_kept
          apply State.beginPass_kept
          apply State.noteRound_kept
          exact h16

theorem execMirrorCellReceived_kept {s₀ s : State} (h : Kept s₀ s) (cell : Cell) :
    KeptR s₀ (execMirrorCellReceived cell s) := by
  unfold execMirrorCellReceived
  refine KeptR.ite_ ?_ ?_
  · exact KeptR.fault _ _
  · refine KeptR.next ?_
    refine Kept.ite_ ?_ ?_
    · apply State.mirrorArrive_kept
      exact h
    · exact h

theorem execVoteCellReceived_kept {s₀ s : State} (h : Kept s₀ s) (cell : Cell) :
    KeptR s₀ (execVoteCellReceived cell s) := by
  unfold execVoteCellReceived
  refine KeptR.ite_ ?_ ?_
  · exact KeptR.fault _ _
  · refine KeptR.next ?_
    refine Kept.ite_ ?_ ?_
    · apply State.voteArrive_kept
      exact h
    · exact h

theorem State.writeKp_kept {s₀ s : State} (h : Kept s₀ s) (r : Nat) (v : Word) :
    Kept s₀ (State.writeKp s r v) := by
  unfold State.writeKp
  refine Kept.ite_ ?_ ?_
  · exact h
  · split
    · rename_i a1
      exact h
    · rename_i a2
      refine Kept.ite_ ?_ ?_
      · exact h
      · apply State.kpWrite_kept
        exact h
    · rename_i a3
      apply State.kpWrite_kept
      exact h
    · rename_i a4
      apply State.kpWrite_kept
      exact h
    · rename_i a5 e6 e7 e8 e9
      apply State.writeHome_kept
      exact h

theorem execKingPostWrite_kept {s₀ s : State} (h : Kept s₀ s) (r : Fin 5) (v : Word) :
    KeptR s₀ (execKingPostWrite r v s) := by
  unfold execKingPostWrite
  refine KeptR.next ?_
  apply State.writeKp_kept
  exact h

theorem State.kpFinding_kept {s₀ s : State} (h : Kept s₀ s) (i copy res : Nat) :
    Kept s₀ (State.kpFinding s i copy res) := by
  unfold State.kpFinding
  apply State.set_kept
  apply State.set_kept
  apply State.set_kept
  exact h

theorem State.kpRewrite_kept {s₀ s : State} (h : Kept s₀ s) (i copy res : Nat) (v : Word) (k : Kind) :
    Kept s₀ (State.kpRewrite s i copy res v k) := by
  unfold State.kpRewrite
  apply State.endLevel_kept
  apply State.raise_kept
  apply State.inc_kept
  apply State.kpFinding_kept
  apply State.setKp_kept
  exact h

theorem State.kpVote_kept {s₀ s : State} (h : Kept s₀ s) (i : Nat) :
    Kept s₀ (State.kpVote s i) := by
  unfold State.kpVote
  extract_lets -merge -useContext +onlyGivenNames a1
  clear_value a1
  split
  · rename_i a2 a3 e4
    extract_lets -merge -useContext +onlyGivenNames a5
    clear_value a5
    split
    · rename_i a6
      apply State.endLevel_kept
      apply State.setKp_kept
      exact h
    · rename_i a7 a8
      apply State.kpRewrite_kept
      exact h
  · rename_i a9 e10
    split
    · rename_i a11 a12 a13 a14 e15 e16 e17
      apply State.kpRewrite_kept
      exact h
    · rename_i a18 a19 a20 a21 e22 e23 e24
      apply State.kpRewrite_kept
      exact h
    · rename_i a25 a26 a27 a28 e29 e30 e31
      apply State.kpRewrite_kept
      exact h
    · rename_i a32 a33 a34 e35 e36 e37
      apply State.holdRequested_kept
      apply State.raiseLevel_kept
      apply State.kpFinding_kept
      apply State.setKp_kept
      exact h

theorem State.useKp_kept {s₀ s : State} (h : Kept s₀ s) (i : Nat) :
    Kept s₀ (State.useKp s i) := by
  unfold State.useKp
  refine Kept.ite_ ?_ ?_
  · exact h
  · apply State.kpVote_kept
    exact h

theorem execKpScrub_kept {s₀ s : State} (h : Kept s₀ s) :
    KeptR s₀ (execKpScrub s) := by
  unfold execKpScrub
  refine KeptR.next ?_
  refine State.each_kept _ _ ?_ ?_
  · exact h
  · intro a1 x2 h3
    apply State.kpVote_kept
    exact h3

theorem State.kpTest_kept {s₀ s : State} (h : Kept s₀ s) (v : Word) :
    Kept s₀ (State.kpTest s v) := by
  unfold State.kpTest
  extract_lets -merge -useContext +onlyGivenNames a1
  clear_value a1
  extract_lets -merge -useContext +onlyGivenNames a2
  clear_value a2
  extract_lets -merge -useContext +onlyGivenNames a3
  clear_value a3
  refine Kept.ite_ ?_ ?_
  · apply State.redConfig_kept
    exact h
  · extract_lets -merge -useContext +onlyGivenNames a4
    clear_value a4
    extract_lets -merge -useContext +onlyGivenNames a5
    clear_value a5
    extract_lets -merge -useContext +onlyGivenNames a6
    clear_value a6
    apply State.useKp_kept
    apply State.setKp_kept
    exact h

theorem execKpTest_kept {s₀ s : State} (h : Kept s₀ s) (v : Word) :
    KeptR s₀ (execKpTest v s) := by
  unfold execKpTest
  refine KeptR.next ?_
  apply State.kpTest_kept
  exact h

end Sys2Proof.Machine
end

