-- ==== Sys2Proof/Laws/KeptMgmt.lean ====
section
/-! SUPPORT. What the operations of `Machine/Mgmt.lean` keep: the queue, the direction of the clock, sound
stores. -/

namespace Sys2Proof.Machine

theorem State.badCmd_kept {s₀ s : State} (h : Kept s₀ s) :
    Kept s₀ (State.badCmd s) := by
  unfold State.badCmd
  apply State.raise_kept
  exact h

theorem State.applyLock_kept {s₀ s : State} (h : Kept s₀ s) (lock : Bool) :
    Kept s₀ (State.applyLock s lock) := by
  unfold State.applyLock
  refine Kept.ite_ ?_ ?_
  · exact h
  · apply State.set_kept
    apply Kept.mk_
    exact h

theorem State.reqJoin_kept {s₀ s : State} (h : Kept s₀ s) :
    Kept s₀ (State.reqJoin s) := by
  unfold State.reqJoin
  refine Kept.ite_ ?_ ?_
  · apply State.set_kept
    apply State.set_kept
    exact h
  · apply State.badCmd_kept
    exact h

theorem State.reqHold_kept {s₀ s : State} (h : Kept s₀ s) :
    Kept s₀ (State.reqHold s) := by
  unfold State.reqHold
  refine Kept.ite_ ?_ ?_
  · apply State.holdRequested_kept
    exact h
  · apply State.badCmd_kept
    exact h

theorem State.reqLeaveHold_kept {s₀ s : State} (h : Kept s₀ s) :
    Kept s₀ (State.reqLeaveHold s) := by
  unfold State.reqLeaveHold
  refine Kept.ite_ ?_ ?_
  · refine Kept.ite_ ?_ ?_
    · apply State.enterMode_kept
      exact h
    · refine Kept.ite_ ?_ ?_
      · extract_lets -merge -useContext +onlyGivenNames a1
        have h2 : Kept s₀ a1 := by
          unfold a1
          apply State.enterMode_kept
          exact h
        clear_value a1
        refine Kept.ite_ ?_ ?_
        · apply State.takeOver_kept
          exact h2
        · exact h2
      · apply State.enterMode_kept
        exact h
  · apply State.badCmd_kept
    exact h

theorem State.reqCommission_kept {s₀ s : State} (h : Kept s₀ s) :
    Kept s₀ (State.reqCommission s) := by
  unfold State.reqCommission
  refine Kept.ite_ ?_ ?_
  · apply State.enterMode_kept
    exact h
  · apply State.badCmd_kept
    exact h

theorem State.writeMgtCmd_kept {s₀ s : State} (h : Kept s₀ s) (v : Word) :
    Kept s₀ (State.writeMgtCmd s v) := by
  unfold State.writeMgtCmd
  extract_lets -merge -useContext +onlyGivenNames a1
  clear_value a1
  refine Kept.ite_ ?_ ?_
  · apply State.badCmd_kept
    exact h
  · extract_lets -merge -useContext +onlyGivenNames a2
    have h3 : Kept s₀ a2 := by
      unfold a2
      apply State.applyLock_kept
      exact h
    clear_value a2
    split
    · rename_i a4
      exact h3
    · rename_i a5
      apply State.reqJoin_kept
      exact h3
    · rename_i a6
      apply State.reqHold_kept
      exact h3
    · rename_i a7
      apply State.reqLeaveHold_kept
      exact h3
    · rename_i a8
      apply State.reqCommission_kept
      exact h3
    · rename_i a9
      apply State.hubReset_kept
      exact h3
    · rename_i a10 e11 e12 e13 e14 e15 e16
      apply State.hubReset_kept
      exact h3

theorem execRequestJoin_kept {s₀ s : State} (h : Kept s₀ s) (lock : Bool) :
    KeptR s₀ (execRequestJoin lock s) := by
  unfold execRequestJoin
  refine KeptR.next ?_
  apply State.reqJoin_kept
  apply State.applyLock_kept
  exact h

theorem execRequestHold_kept {s₀ s : State} (h : Kept s₀ s) (lock : Bool) :
    KeptR s₀ (execRequestHold lock s) := by
  unfold execRequestHold
  refine KeptR.next ?_
  apply State.reqHold_kept
  apply State.applyLock_kept
  exact h

theorem execLeaveHold_kept {s₀ s : State} (h : Kept s₀ s) (lock : Bool) :
    KeptR s₀ (execLeaveHold lock s) := by
  unfold execLeaveHold
  refine KeptR.next ?_
  apply State.reqLeaveHold_kept
  apply State.applyLock_kept
  exact h

theorem execRequestCommission_kept {s₀ s : State} (h : Kept s₀ s) (lock : Bool) :
    KeptR s₀ (execRequestCommission lock s) := by
  unfold execRequestCommission
  refine KeptR.next ?_
  apply State.reqCommission_kept
  apply State.applyLock_kept
  exact h

theorem execResetIntoRecovery_kept {s₀ s : State} (h : Kept s₀ s) (lock : Bool) :
    KeptR s₀ (execResetIntoRecovery lock s) := by
  unfold execResetIntoRecovery
  refine KeptR.next ?_
  apply State.hubReset_kept
  apply State.applyLock_kept
  exact h

theorem execResetRequest_kept {s₀ s : State} (h : Kept s₀ s) (lock : Bool) :
    KeptR s₀ (execResetRequest lock s) := by
  unfold execResetRequest
  refine KeptR.next ?_
  apply State.hubReset_kept
  apply State.applyLock_kept
  exact h

theorem execSetLock_kept {s₀ s : State} (h : Kept s₀ s) :
    KeptR s₀ (execSetLock s) := by
  unfold execSetLock
  refine KeptR.next ?_
  apply State.applyLock_kept
  exact h

theorem execCommissionChecksDone_kept {s₀ s : State} (h : Kept s₀ s) (lanesOk tenonsOk : Bool) :
    KeptR s₀ (execCommissionChecksDone lanesOk tenonsOk s) := by
  unfold execCommissionChecksDone
  refine KeptR.ite_ ?_ ?_
  · refine KeptR.next ?_
    exact h
  · extract_lets -merge -useContext +onlyGivenNames a1
    clear_value a1
    extract_lets -merge -useContext +onlyGivenNames a2
    have h3 : Kept s₀ a2 := by
      unfold a2
      apply State.set_kept
      apply State.set_kept
      exact h
    clear_value a2
    refine KeptR.next ?_
    refine Kept.ite_ ?_ ?_
    · apply State.tryLeaveJoin_kept
      apply State.enterMode_kept
      exact h3
    · apply State.raise_kept
      exact h3

theorem State.sampleStraps_kept {s₀ s : State} (h : Kept s₀ s) (straps : Nat) :
    Kept s₀ (State.sampleStraps s straps) := by
  unfold State.sampleStraps
  apply State.set_kept
  apply State.set_kept
  apply State.set_kept
  exact h

theorem execResetN_kept {s₀ s : State} (h : Kept s₀ s) (straps : BitVec 4) :
    KeptR s₀ (execResetN straps s) := by
  unfold execResetN
  refine KeptR.next ?_
  apply State.sampleStraps_kept
  apply State.hubReset_kept
  exact h

theorem execSupplyReset_kept {s₀ s : State} (h : Kept s₀ s) (inputs : BitVec 7) :
    KeptR s₀ (execSupplyReset inputs s) := by
  unfold execSupplyReset
  extract_lets -merge -useContext +onlyGivenNames a1
  clear_value a1
  refine KeptR.next ?_
  refine Kept.ite_ ?_ ?_
  · exact h
  · apply State.set_kept
    apply State.hubReset_kept
    exact h

theorem State.writeBcr_kept {s₀ s : State} (h : Kept s₀ s) (port : Nat) (b : Bcr) :
    Kept s₀ (State.writeBcr s port b) := by
  unfold State.writeBcr
  extract_lets -merge -useContext +onlyGivenNames a1
  clear_value a1
  extract_lets -merge -useContext +onlyGivenNames a2
  clear_value a2
  apply Kept.mk_
  exact h

theorem State.restoreFeed_kept {s₀ s : State} (h : Kept s₀ s) (f lgseq : Nat) (r : RetFeed) :
    Kept s₀ (State.restoreFeed s f lgseq r) := by
  unfold State.restoreFeed
  extract_lets -merge -useContext +onlyGivenNames a1
  have h2 : Kept s₀ a1 := by
    unfold a1
    apply State.set_kept
    apply State.set_kept
    exact h
  clear_value a1
  extract_lets -merge -useContext +onlyGivenNames a3
  have h4 : Kept s₀ a3 := by
    unfold a3
    refine State.each_kept _ _ ?_ ?_
    · exact h2
    · intro a5 x6 h7
      apply State.set_kept
      exact h7
  clear_value a3
  extract_lets -merge -useContext +onlyGivenNames a8
  have h9 : Kept s₀ a8 := by
    unfold a8
    apply State.set_kept
    apply State.set_kept
    exact h4
  clear_value a8
  extract_lets -merge -useContext +onlyGivenNames a10
  have h11 : Kept s₀ a10 := by
    unfold a10
    apply State.set_kept
    apply State.set_kept
    apply State.set_kept
    exact h9
  clear_value a10
  extract_lets -merge -useContext +onlyGivenNames a12
  have h13 : Kept s₀ a12 := by
    unfold a12
    apply State.set_kept
    apply State.set_kept
    exact h11
  clear_value a12
  refine Kept.ite_ ?_ ?_
  · exact h13
  · apply State.raise_kept
    apply State.set_kept
    apply State.set_kept
    apply State.set_kept
    exact h13

theorem State.restoreBay_kept {s₀ s : State} (h : Kept s₀ s) (b : Nat) (r : Nat × Nat) :
    Kept s₀ (State.restoreBay s b r) := by
  unfold State.restoreBay
  extract_lets -merge -useContext +onlyGivenNames a1
  have h2 : Kept s₀ a1 := by
    unfold a1
    refine Kept.foldl _ _ ?_ ?_
    · exact h
    · intro x3 a4 h5
      apply State.set_kept
      exact h5
  clear_value a1
  refine State.each_kept _ _ ?_ ?_
  · exact h2
  · intro a6 x7 h8
    apply State.set_kept
    exact h8

theorem State.restore_kept {s₀ s : State} (h : Kept s₀ s) (r : Retention) :
    Kept s₀ (State.restore s r) := by
  unfold State.restore
  extract_lets -merge -useContext +onlyGivenNames a1
  have h2 : Kept s₀ a1 := by
    unfold a1
    refine Kept.foldl _ _ ?_ ?_
    · exact h
    · intro x3 a4 h5
      apply State.restoreFeed_kept
      exact h5
  clear_value a1
  extract_lets -merge -useContext +onlyGivenNames a6
  have h7 : Kept s₀ a6 := by
    unfold a6
    refine Kept.foldl _ _ ?_ ?_
    · exact h2
    · intro x8 a9 h10
      apply State.restoreBay_kept
      exact h10
  clear_value a6
  extract_lets -merge -useContext +onlyGivenNames a11
  have h12 : Kept s₀ a11 := by
    unfold a11
    refine Kept.ite_ ?_ ?_
    · apply State.set_kept
      apply State.set_kept
      exact h7
    · exact h7
  clear_value a11
  extract_lets -merge -useContext +onlyGivenNames a13
  have h14 : Kept s₀ a13 := by
    unfold a13
    apply State.set_kept
    apply State.set_kept
    exact h12
  clear_value a13
  extract_lets -merge -useContext +onlyGivenNames a15
  have h16 : Kept s₀ a15 := by
    unfold a15
    refine Kept.ite_ ?_ ?_
    · exact h14
    · apply State.set_kept
      exact h14
  clear_value a15
  apply Kept.mk_
  exact h16

theorem State.restoreNewest_kept {s₀ s : State} (h : Kept s₀ s) :
    Kept s₀ (State.restoreNewest s) := by
  unfold State.restoreNewest
  extract_lets -merge -useContext +onlyGivenNames a1
  clear_value a1
  split
  · rename_i a2 e3
    apply State.raise_kept
    exact h
  · rename_i a4 a5 e6
    split
    · rename_i a7 e8
      apply State.raise_kept
      exact h
    · rename_i a9 a10 e11
      apply State.restore_kept
      exact h

theorem State.leaveReset_kept {s₀ s : State} (h : Kept s₀ s) (m : Nat) :
    Kept s₀ (State.leaveReset s m) := by
  unfold State.leaveReset
  apply State.takeMode_kept
  apply Kept.mk_
  exact h

theorem State.bootImage_kept {s₀ s : State} (h : Kept s₀ s) (port : Nat) (bank alt fell : Bool) :
    Kept s₀ (State.bootImage s port bank alt fell) := by
  unfold State.bootImage
  extract_lets -merge -useContext +onlyGivenNames a1
  have h2 : Kept s₀ a1 := by
    unfold a1
    apply State.leaveReset_kept
    exact h
  clear_value a1
  extract_lets -merge -useContext +onlyGivenNames a3
  have h4 : Kept s₀ a3 := by
    unfold a3
    apply State.setB_kept
    apply State.setB_kept
    apply State.set_kept
    exact h2
  clear_value a3
  extract_lets -merge -useContext +onlyGivenNames a5
  have h6 : Kept s₀ a5 := by
    unfold a5
    apply State.set_kept
    exact h4
  clear_value a5
  extract_lets -merge -useContext +onlyGivenNames a7
  clear_value a7
  extract_lets -merge -useContext +onlyGivenNames a8
  have h9 : Kept s₀ a8 := by
    unfold a8
    apply Kept.mk_
    exact h6
  clear_value a8
  extract_lets -merge -useContext +onlyGivenNames a10
  have h11 : Kept s₀ a10 := by
    unfold a10
    refine Kept.ite_ ?_ ?_
    · apply State.raise_kept
      exact h9
    · exact h9
  clear_value a10
  extract_lets -merge -useContext +onlyGivenNames a12
  have h13 : Kept s₀ a12 := by
    unfold a12
    refine Kept.ite_ ?_ ?_
    · apply State.raise_kept
      exact h11
    · exact h11
  clear_value a12
  apply State.restoreNewest_kept
  exact h13

theorem State.startRecovery_kept {s₀ s : State} (h : Kept s₀ s) :
    Kept s₀ (State.startRecovery s) := by
  unfold State.startRecovery
  apply State.restoreNewest_kept
  apply State.leaveReset_kept
  exact h

theorem State.tryPorts_kept {s₀ s : State} (h : Kept s₀ s) (verified : BitVec 4) (first fell : Bool)
    (ports : List Nat) : Kept s₀ (State.tryPorts s verified first fell ports) := by
  induction ports generalizing s first fell with
  | nil => exact State.startRecovery_kept h
  | cons port rest ih =>
    unfold State.tryPorts
    extract_lets -merge -useContext +onlyGivenNames a1
    clear_value a1
    extract_lets -merge -useContext +onlyGivenNames a2
    have h3 : Kept s₀ a2 := by
      unfold a2
      refine Kept.ite_ ?_ ?_
      · apply State.writeBcr_kept
        exact h
      · exact h
    clear_value a2
    extract_lets -merge -useContext +onlyGivenNames a4
    clear_value a4
    extract_lets -merge -useContext +onlyGivenNames a5
    clear_value a5
    split
    · rename_i a6 a7 e8
      apply State.bootImage_kept
      exact h3
    · rename_i a9 e10
      apply ih
      exact h3

theorem execBoot_kept {s₀ s : State} (h : Kept s₀ s) (verified : BitVec 4) :
    KeptR s₀ (execBoot verified s) := by
  unfold execBoot
  refine KeptR.ite_ ?_ ?_
  · refine KeptR.next ?_
    exact h
  · extract_lets -merge -useContext +onlyGivenNames a1
    clear_value a1
    extract_lets -merge -useContext +onlyGivenNames a2
    have h3 : Kept s₀ a2 := by
      unfold a2
      apply State.set_kept
      exact h
    clear_value a2
    refine KeptR.next ?_
    refine Kept.ite_ ?_ ?_
    · apply State.startRecovery_kept
      exact h3
    · apply State.tryPorts_kept
      exact h3

theorem execEntropyReady_kept {s₀ s : State} (h : Kept s₀ s) :
    KeptR s₀ (execEntropyReady s) := by
  unfold execEntropyReady
  refine KeptR.ite_ ?_ ?_
  · refine KeptR.next ?_
    exact h
  · extract_lets -merge -useContext +onlyGivenNames a1
    have h2 : Kept s₀ a1 := by
      unfold a1
      apply State.set_kept
      apply State.set_kept
      exact h
    clear_value a1
    extract_lets -merge -useContext +onlyGivenNames a3
    have h4 : Kept s₀ a3 := by
      unfold a3
      refine State.each_kept _ _ ?_ ?_
      · exact h2
      · intro a5 x6 h7
        apply State.drawNonce_kept
        apply State.judgeSubs_kept
        exact h7
    clear_value a3
    refine KeptR.next ?_
    apply State.tryLeaveJoin_kept
    exact h4

theorem execRngHealth_kept {s₀ s : State} (h : Kept s₀ s) :
    KeptR s₀ (execRngHealth s) := by
  unfold execRngHealth
  extract_lets -merge -useContext +onlyGivenNames a1
  have h2 : Kept s₀ a1 := by
    unfold a1
    apply State.raise_kept
    apply State.set_kept
    apply State.set_kept
    exact h
  clear_value a1
  refine KeptR.next ?_
  refine State.each_kept _ _ ?_ ?_
  · exact h2
  · intro a3 x4 h5
    apply State.judgeSubs_kept
    exact h5

theorem execEntropy_kept {s₀ s : State} (h : Kept s₀ s) :
    KeptR s₀ (execEntropy s) := by
  unfold execEntropy
  extract_lets -merge -useContext +onlyGivenNames a1
  clear_value a1
  refine KeptR.ite_ ?_ ?_
  · refine KeptR.next ?_
    exact h
  · refine KeptR.next ?_
    apply State.raise_kept
    apply State.waitUntil_kept
    exact h

theorem State.readRng_kept {s₀ s : State} (h : Kept s₀ s) :
    KeptP s₀ (State.readRng s) := by
  unfold State.readRng
  extract_lets -merge -useContext +onlyGivenNames a1
  have h2 : Kept s₀ a1 := by
    unfold a1
    apply State.refillPool_kept
    apply State.serveNonces_kept
    exact h
  clear_value a1
  refine KeptP.ite_ ?_ ?_
  · extract_lets -merge -useContext +onlyGivenNames a3
    clear_value a3
    refine KeptP.mk ?_
    apply State.draw_kept
    apply State.set_kept
    exact h2
  · refine KeptP.mk ?_
    exact h2

theorem State.switchRef_kept {s₀ s : State} (h : Kept s₀ s) (r : Nat) :
    Kept s₀ (State.switchRef s r) := by
  unfold State.switchRef
  apply State.raise_kept
  apply State.set_kept
  apply Kept.mk_
  exact h

theorem execReferenceLoss_kept {s₀ s : State} (h : Kept s₀ s) (r : Fin 2) :
    KeptR s₀ (execReferenceLoss r s) := by
  unfold execReferenceLoss
  extract_lets -merge -useContext +onlyGivenNames a1
  clear_value a1
  extract_lets -merge -useContext +onlyGivenNames a2
  have h3 : Kept s₀ a2 := by
    unfold a2
    apply State.setBit_kept
    exact h
  clear_value a2
  extract_lets -merge -useContext +onlyGivenNames a4
  have h5 : Kept s₀ a4 := by
    unfold a4
    apply State.raiseLevel_kept
    exact h3
  clear_value a4
  extract_lets -merge -useContext +onlyGivenNames a6
  clear_value a6
  extract_lets -merge -useContext +onlyGivenNames a7
  have h8 : Kept s₀ a7 := by
    unfold a7
    refine Kept.ite_ ?_ ?_
    · exact h5
    · refine Kept.ite_ ?_ ?_
      · apply State.switchRef_kept
        exact h5
      · apply Kept.mk_
        exact h5
  clear_value a7
  refine KeptR.next ?_
  refine Kept.ite_ ?_ ?_
  · apply State.raiseLevel_kept
    exact h8
  · exact h8

theorem execReferenceReturn_kept {s₀ s : State} (h : Kept s₀ s) (r : Fin 2) :
    KeptR s₀ (execReferenceReturn r s) := by
  unfold execReferenceReturn
  extract_lets -merge -useContext +onlyGivenNames a1
  clear_value a1
  extract_lets -merge -useContext +onlyGivenNames a2
  have h3 : Kept s₀ a2 := by
    unfold a2
    apply State.endLevel_kept
    apply State.setBit_kept
    exact h
  clear_value a2
  extract_lets -merge -useContext +onlyGivenNames a4
  have h5 : Kept s₀ a4 := by
    unfold a4
    apply State.endLevel_kept
    apply State.endLevel_kept
    exact h3
  clear_value a4
  refine KeptR.next ?_
  refine Kept.ite_ ?_ ?_
  · exact h5
  · refine Kept.ite_ ?_ ?_
    · apply Kept.mk_
      exact h5
    · apply State.switchRef_kept
      exact h5

theorem State.writeSprCtl_kept {s₀ s : State} (h : Kept s₀ s) (v : Word) :
    Kept s₀ (State.writeSprCtl s v) := by
  unfold State.writeSprCtl
  extract_lets -merge -useContext +onlyGivenNames a1
  have h2 : Kept s₀ a1 := by
    unfold a1
    apply State.set_kept
    apply State.set_kept
    apply State.set_kept
    exact h
  clear_value a1
  apply Kept.mk_
  exact h2

theorem State.refBoundary_kept {s₀ s : State} (h : Kept s₀ s) :
    Kept s₀ (State.refBoundary s) := by
  unfold State.refBoundary
  extract_lets -merge -useContext +onlyGivenNames a1
  clear_value a1
  extract_lets -merge -useContext +onlyGivenNames a2
  clear_value a2
  extract_lets -merge -useContext +onlyGivenNames a3
  clear_value a3
  extract_lets -merge -useContext +onlyGivenNames a4
  have h5 : Kept s₀ a4 := by
    unfold a4
    apply Kept.mk_
    exact h
  clear_value a4
  refine Kept.ite_ ?_ ?_
  · apply State.switchRef_kept
    exact h5
  · exact h5

theorem State.writeRowRep_kept {s₀ s : State} (h : Kept s₀ s) (v : Word) :
    Kept s₀ (State.writeRowRep s v) := by
  unfold State.writeRowRep
  extract_lets -merge -useContext +onlyGivenNames a1
  have h2 : Kept s₀ a1 := by
    unfold a1
    apply State.set_kept
    apply State.set_kept
    exact h
  clear_value a1
  refine Kept.ite_ ?_ ?_
  · apply State.requestRow_kept
    exact h2
  · exact h2

theorem execRowRepairGo_kept {s₀ s : State} (h : Kept s₀ s) (v : Word) :
    KeptR s₀ (execRowRepairGo v s) := by
  unfold execRowRepairGo
  refine KeptR.next ?_
  apply State.writeRowRep_kept
  exact h

theorem State.rowBoundary_kept {s₀ s : State} (h : Kept s₀ s) :
    Kept s₀ (State.rowBoundary s) := by
  unfold State.rowBoundary
  refine Kept.ite_ ?_ ?_
  · apply State.set_kept
    apply Kept.mk_
    exact h
  · exact h

theorem execSramRepaired_kept {s₀ s : State} (h : Kept s₀ s) :
    KeptR s₀ (execSramRepaired s) := by
  unfold execSramRepaired
  split
  · rename_i a1 e2
    refine KeptR.next ?_
    exact h
  · rename_i a3 a4 e5
    refine KeptR.ite_ ?_ ?_
    · refine KeptR.next ?_
      exact h
    · extract_lets -merge -useContext +onlyGivenNames a6
      have h7 : Kept s₀ a6 := by
        unfold a6
        apply State.waitUntil_kept
        exact h
      clear_value a6
      extract_lets -merge -useContext +onlyGivenNames a8
      clear_value a8
      extract_lets -merge -useContext +onlyGivenNames a9
      have h10 : Kept s₀ a9 := by
        unfold a9
        apply Kept.mk_
        exact h7
      clear_value a9
      refine KeptR.next ?_
      apply State.raise_kept
      apply State.set_kept
      exact h10

theorem execNvSwitch_kept {s₀ s : State} (h : Kept s₀ s) (port : Fin 2) :
    KeptR s₀ (execNvSwitch port s) := by
  unfold execNvSwitch
  refine KeptR.next ?_
  apply State.nvFails_kept
  exact h

theorem State.putImage_kept {s₀ s : State} (h : Kept s₀ s) (bank : Bool) (version : Nat) :
    Kept s₀ (State.putImage s bank version) := by
  unfold State.putImage
  apply Kept.mk_
  exact h

theorem State.imageStart_kept {s₀ s : State} (h : Kept s₀ s) :
    Kept s₀ (State.imageStart s) := by
  unfold State.imageStart
  apply State.set_kept
  apply State.putImage_kept
  apply Kept.mk_
  exact h

theorem execImageStart_kept {s₀ s : State} (h : Kept s₀ s) :
    KeptR s₀ (execImageStart s) := by
  unfold execImageStart
  refine KeptR.next ?_
  apply State.imageStart_kept
  exact h

theorem State.imageData_kept {s₀ s : State} (h : Kept s₀ s) (v : Word) :
    Kept s₀ (State.imageData s v) := by
  unfold State.imageData
  apply State.set_kept
  apply Kept.mk_
  exact h

theorem execImageData_kept {s₀ s : State} (h : Kept s₀ s) (v : Word) :
    KeptR s₀ (execImageData v s) := by
  unfold execImageData
  refine KeptR.next ?_
  apply State.imageData_kept
  exact h

theorem State.fwVerify_kept {s₀ s : State} (h : Kept s₀ s) :
    Kept s₀ (State.fwVerify s) := by
  unfold State.fwVerify
  refine Kept.ite_ ?_ ?_
  · apply State.set_kept
    exact h
  · exact h

theorem execFwVerify_kept {s₀ s : State} (h : Kept s₀ s) :
    KeptR s₀ (execFwVerify s) := by
  unfold execFwVerify
  refine KeptR.next ?_
  apply State.fwVerify_kept
  exact h

theorem State.keepDownload_kept {s₀ s : State} (h : Kept s₀ s) (version : Nat) :
    Kept s₀ (State.keepDownload s version) := by
  unfold State.keepDownload
  refine Kept.ite_ ?_ ?_
  · exact h
  · extract_lets -merge -useContext +onlyGivenNames a1
    have h2 : Kept s₀ a1 := by
      unfold a1
      apply State.putImage_kept
      exact h
    clear_value a1
    extract_lets -merge -useContext +onlyGivenNames a3
    have h4 : Kept s₀ a3 := by
      unfold a3
      refine Kept.foldl _ _ ?_ ?_
      · exact h2
      · intro x5 a6 h7
        apply State.writeBcr_kept
        exact h7
    clear_value a3
    apply Kept.mk_
    exact h4

theorem execVerifyComplete_kept {s₀ s : State} (h : Kept s₀ s) (ok : Bool) :
    KeptR s₀ (execVerifyComplete ok s) := by
  unfold execVerifyComplete
  refine KeptR.ite_ ?_ ?_
  · refine KeptR.next ?_
    exact h
  · refine KeptR.ite_ ?_ ?_
    · extract_lets -merge -useContext +onlyGivenNames a1
      have h2 : Kept s₀ a1 := by
        unfold a1
        apply State.set_kept
        exact h
      clear_value a1
      refine KeptR.next ?_
      refine Kept.ite_ ?_ ?_
      · apply State.keepDownload_kept
        exact h2
      · apply State.putImage_kept
        exact h2
    · extract_lets -merge -useContext +onlyGivenNames a3
      have h4 : Kept s₀ a3 := by
        unfold a3
        apply State.raise_kept
        apply State.set_kept
        exact h
      clear_value a3
      refine KeptR.next ?_
      refine Kept.ite_ ?_ ?_
      · apply State.raise_kept
        exact h4
      · exact h4

theorem State.fwHandover_kept {s₀ s : State} (h : Kept s₀ s) :
    Kept s₀ (State.fwHandover s) := by
  unfold State.fwHandover
  refine Kept.ite_ ?_ ?_
  · exact h
  · extract_lets -merge -useContext +onlyGivenNames a1
    clear_value a1
    extract_lets -merge -useContext +onlyGivenNames a2
    clear_value a2
    apply State.set_kept
    apply State.writeBcr_kept
    exact h

theorem execHandover_kept {s₀ s : State} (h : Kept s₀ s) :
    KeptR s₀ (execHandover s) := by
  unfold execHandover
  refine KeptR.next ?_
  apply State.fwHandover_kept
  exact h

theorem State.fwConfirm_kept {s₀ s : State} (h : Kept s₀ s) :
    Kept s₀ (State.fwConfirm s) := by
  unfold State.fwConfirm
  extract_lets -merge -useContext +onlyGivenNames a1
  clear_value a1
  refine Kept.ite_ ?_ ?_
  · exact h
  · extract_lets -merge -useContext +onlyGivenNames a2
    clear_value a2
    extract_lets -merge -useContext +onlyGivenNames a3
    clear_value a3
    extract_lets -merge -useContext +onlyGivenNames a4
    have h5 : Kept s₀ a4 := by
      unfold a4
      apply State.writeBcr_kept
      exact h
    clear_value a4
    extract_lets -merge -useContext +onlyGivenNames a6
    clear_value a6
    extract_lets -merge -useContext +onlyGivenNames a7
    have h8 : Kept s₀ a7 := by
      unfold a7
      apply Kept.mk_
      exact h5
    clear_value a7
    apply State.raise_kept
    apply State.set_kept
    exact h8

theorem execConfirm_kept {s₀ s : State} (h : Kept s₀ s) :
    KeptR s₀ (execConfirm s) := by
  unfold execConfirm
  refine KeptR.next ?_
  apply State.fwConfirm_kept
  exact h

theorem State.writeFwCtl_kept {s₀ s : State} (h : Kept s₀ s) (v : Word) :
    Kept s₀ (State.writeFwCtl s v) := by
  unfold State.writeFwCtl
  refine Kept.ite_ ?_ ?_
  · exact h
  · extract_lets -merge -useContext +onlyGivenNames a1
    have h2 : Kept s₀ a1 := by
      unfold a1
      apply State.set_kept
      exact h
    clear_value a1
    extract_lets -merge -useContext +onlyGivenNames a3
    have h4 : Kept s₀ a3 := by
      unfold a3
      refine Kept.ite_ ?_ ?_
      · apply State.fwConfirm_kept
        exact h2
      · exact h2
    clear_value a3
    extract_lets -merge -useContext +onlyGivenNames a5
    have h6 : Kept s₀ a5 := by
      unfold a5
      refine Kept.ite_ ?_ ?_
      · apply State.fwHandover_kept
        exact h4
      · exact h4
    clear_value a5
    refine Kept.ite_ ?_ ?_
    · apply State.fwVerify_kept
      exact h6
    · exact h6

theorem State.fallBack_kept {s₀ s : State} (h : Kept s₀ s) (mark : Nat) :
    Kept s₀ (State.fallBack s mark) := by
  unfold State.fallBack
  refine Kept.ite_ ?_ ?_
  · apply Kept.mk_
    exact h
  · exact h

theorem execFwFallback_kept {s₀ s : State} (h : Kept s₀ s) :
    KeptR s₀ (execFwFallback s) := by
  unfold execFwFallback
  refine KeptR.ite_ ?_ ?_
  · refine KeptR.next ?_
    exact h
  · extract_lets -merge -useContext +onlyGivenNames a1
    have h2 : Kept s₀ a1 := by
      unfold a1
      apply State.waitUntil_kept
      exact h
    clear_value a1
    refine KeptR.next ?_
    apply State.fallBack_kept
    exact h2

theorem execNewFirmwareNotRunning_kept {s₀ s : State} (h : Kept s₀ s) :
    KeptR s₀ (execNewFirmwareNotRunning s) := by
  unfold execNewFirmwareNotRunning
  extract_lets -merge -useContext +onlyGivenNames a1
  clear_value a1
  refine KeptR.ite_ ?_ ?_
  · refine KeptR.next ?_
    exact h
  · refine KeptR.next ?_
    apply State.fallBack_kept
    apply State.waitUntil_kept
    exact h

theorem State.fwFails_kept {s₀ s : State} (h : Kept s₀ s) (cause : Nat) :
    Kept s₀ (State.fwFails s cause) := by
  unfold State.fwFails
  refine Kept.ite_ ?_ ?_
  · apply State.fallBack_kept
    exact h
  · split
    · rename_i a1 a2 e3
      refine Kept.ite_ ?_ ?_
      · apply State.hubReset_kept
        exact h
      · apply Kept.mk_
        exact h
    · rename_i a4 e5
      apply Kept.mk_
      exact h

theorem execWatchdogExpiry_kept {s₀ s : State} (h : Kept s₀ s) :
    KeptR s₀ (execWatchdogExpiry s) := by
  unfold execWatchdogExpiry
  refine KeptR.next ?_
  apply State.fwFails_kept
  exact h

theorem execLockstepDisagreement_kept {s₀ s : State} (h : Kept s₀ s) :
    KeptR s₀ (execLockstepDisagreement s) := by
  unfold execLockstepDisagreement
  refine KeptR.next ?_
  apply State.fwFails_kept
  exact h

theorem State.fwBoundary_kept {s₀ s : State} (h : Kept s₀ s) :
    Kept s₀ (State.fwBoundary s) := by
  unfold State.fwBoundary
  extract_lets -merge -useContext +onlyGivenNames a1
  clear_value a1
  refine Kept.ite_ ?_ ?_
  · extract_lets -merge -useContext +onlyGivenNames a2
    clear_value a2
    extract_lets -merge -useContext +onlyGivenNames a3
    clear_value a3
    extract_lets -merge -useContext +onlyGivenNames a4
    have h5 : Kept s₀ a4 := by
      unfold a4
      apply Kept.mk_
      exact h
    clear_value a4
    apply State.set_kept
    apply State.set_kept
    exact h5
  · refine Kept.ite_ ?_ ?_
    · extract_lets -merge -useContext +onlyGivenNames a6
      have h7 : Kept s₀ a6 := by
        unfold a6
        apply State.writeBcr_kept
        exact h
      clear_value a6
      extract_lets -merge -useContext +onlyGivenNames a8
      clear_value a8
      extract_lets -merge -useContext +onlyGivenNames a9
      clear_value a9
      extract_lets -merge -useContext +onlyGivenNames a10
      have h11 : Kept s₀ a10 := by
        unfold a10
        apply Kept.mk_
        exact h7
      clear_value a10
      apply State.raise_kept
      apply State.set_kept
      apply State.set_kept
      exact h11
    · exact h

theorem execRecoveryDownload_kept {s₀ s : State} (h : Kept s₀ s) (path : RecoveryPath) (ok : Bool) (version : BitVec 32) :
    KeptR s₀ (execRecoveryDownload path ok version s) := by
  unfold execRecoveryDownload
  refine KeptR.ite_ ?_ ?_
  · refine KeptR.next ?_
    exact h
  · refine KeptR.ite_ ?_ ?_
    · refine KeptR.next ?_
      apply State.raise_kept
      exact h
    · split
      · rename_i a1
        refine KeptR.next ?_
        apply State.keepDownload_kept
        exact h
      · rename_i a2
        refine KeptR.next ?_
        apply State.keepDownload_kept
        exact h
      · rename_i a3
        refine KeptR.next ?_
        apply State.keepDownload_kept
        exact h

theorem execRecoveryReset_kept {s₀ s : State} (h : Kept s₀ s) :
    KeptR s₀ (execRecoveryReset s) := by
  unfold execRecoveryReset
  split
  · rename_i a1 e2
    refine KeptR.next ?_
    exact h
  · rename_i a3 a4 e5
    extract_lets -merge -useContext +onlyGivenNames a6
    have h7 : Kept s₀ a6 := by
      unfold a6
      apply State.waitUntil_kept
      exact h
    clear_value a6
    refine KeptR.next ?_
    apply State.hubReset_kept
    apply State.draw_kept
    exact h7

end Sys2Proof.Machine
end

