-- ==== Sys2Proof/Laws/KeptBoundary.lean ====
section
/-! SUPPORT. What the operations of `Machine/Boundary.lean` keep: the queue, the direction of the clock, sound
stores. -/

namespace Sys2Proof.Machine

theorem State.tickTo_kept {s₀ s : State} (h : Kept s₀ s) (k fuel : Nat) :
    Kept s₀ (State.tickTo s k fuel) := by
  induction fuel generalizing s with
  | zero => exact h
  | succ n ih =>
    unfold State.tickTo
    refine Kept.ite_ ?_ ?_
    · exact h
    · refine Kept.ite_ ?_ ?_
      · apply State.advance_kept
        exact h
      · apply ih
        apply State.advance_kept
        exact h

theorem State.runToCycle_kept {s₀ s : State} (h : Kept s₀ s) :
    Kept s₀ (State.runToCycle s) := by
  unfold State.runToCycle
  apply State.tickTo_kept
  apply State.advance_kept
  exact h

theorem State.runToBoundary_kept {s₀ s : State} (h : Kept s₀ s) :
    Kept s₀ (State.runToBoundary s) := by
  unfold State.runToBoundary
  extract_lets -merge -useContext +onlyGivenNames a1
  have h2 : Kept s₀ a1 := by
    unfold a1
    apply State.runToCycle_kept
    exact h
  clear_value a1
  refine Kept.ite_ ?_ ?_
  · exact h2
  · apply State.advance_kept
    exact h2

theorem State.endCycle_kept {s₀ s : State} (h : Kept s₀ s) :
    Kept s₀ (State.endCycle s) := by
  unfold State.endCycle
  extract_lets -merge -useContext +onlyGivenNames a1
  clear_value a1
  extract_lets -merge -useContext +onlyGivenNames a2
  have h3 : Kept s₀ a2 := by
    unfold a2
    refine State.each_kept _ _ ?_ ?_
    · exact h
    · intro a4 x5 h6
      apply State.ringCycle_kept
      exact h6
  clear_value a2
  extract_lets -merge -useContext +onlyGivenNames a7
  clear_value a7
  extract_lets -merge -useContext +onlyGivenNames a8
  have h9 : Kept s₀ a8 := by
    unfold a8
    apply Kept.mk_
    exact h3
  clear_value a8
  apply State.redCycle_kept
  refine State.each_kept _ _ ?_ ?_
  · exact h9
  · intro a10 x11 h12
    apply State.disarmSwap_kept
    exact h12

theorem State.endDue_kept {s₀ s : State} (h : Kept s₀ s) :
    Kept s₀ (State.endDue s) := by
  unfold State.endDue
  refine Kept.ite_ ?_ ?_
  · exact h
  · apply State.endCycle_kept
    exact h

theorem State.judgeStart_kept {s₀ s : State} (h : Kept s₀ s) :
    Kept s₀ (State.judgeStart s) := by
  unfold State.judgeStart
  split
  · rename_i a1 e2
    exact h
  · rename_i a3 a4 e5
    extract_lets -merge -useContext +onlyGivenNames a6
    clear_value a6
    refine State.each_kept _ _ ?_ ?_
    · exact h
    · intro a7 x8 h9
      refine Kept.ite_ ?_ ?_
      · apply State.tripGuard_kept
        exact h9
      · refine Kept.ite_ ?_ ?_
        · exact h9
        · extract_lets -merge -useContext +onlyGivenNames a10
          clear_value a10
          extract_lets -merge -useContext +onlyGivenNames a11
          clear_value a11
          extract_lets -merge -useContext +onlyGivenNames a12
          have h13 : Kept s₀ a12 := by
            unfold a12
            apply Kept.mk_
            exact h9
          clear_value a12
          refine Kept.ite_ ?_ ?_
          · apply State.endLevel_kept
            apply State.setBit_kept
            exact h13
          · exact h13

theorem State.newQuotas_kept {s₀ s : State} (h : Kept s₀ s) :
    Kept s₀ (State.newQuotas s) := by
  unfold State.newQuotas
  extract_lets -merge -useContext +onlyGivenNames a1
  have h2 : Kept s₀ a1 := by
    unfold a1
    refine State.each_kept _ _ ?_ ?_
    · exact h
    · intro a3 x4 h5
      apply State.judgeOver_kept
      apply State.set_kept
      exact h5
  clear_value a1
  apply Kept.mk_
  exact h2

theorem State.slewCycle_kept {s₀ s : State} (h : Kept s₀ s) :
    Kept s₀ (State.slewCycle s) := by
  unfold State.slewCycle
  apply Kept.mk_
  exact h

theorem State.counterSnapshots_kept {s₀ s : State} (h : Kept s₀ s) :
    Kept s₀ (State.counterSnapshots s) := by
  unfold State.counterSnapshots
  refine State.each_kept _ _ ?_ ?_
  · exact h
  · intro a1 x2 h3
    refine State.each_kept _ _ ?_ ?_
    · exact h3
    · intro a4 x5 h6
      apply State.writeLive_kept
      exact h6

theorem State.startCycle_kept {s₀ s : State} (h : Kept s₀ s) :
    Kept s₀ (State.startCycle s) := by
  unfold State.startCycle
  extract_lets -merge -useContext +onlyGivenNames a1
  have h2 : Kept s₀ a1 := by
    unfold a1
    apply State.judgeStart_kept
    exact h
  clear_value a1
  extract_lets -merge -useContext +onlyGivenNames a3
  clear_value a3
  extract_lets -merge -useContext +onlyGivenNames a4
  have h5 : Kept s₀ a4 := by
    unfold a4
    apply Kept.mk_
    exact h2
  clear_value a4
  extract_lets -merge -useContext +onlyGivenNames a6
  have h7 : Kept s₀ a6 := by
    unfold a6
    apply State.signalPending_kept
    apply State.drainSummaries_kept
    apply State.queueSummaries_kept
    apply State.slewCycle_kept
    apply State.newQuotas_kept
    exact h5
  clear_value a6
  extract_lets -merge -useContext +onlyGivenNames a8
  have h9 : Kept s₀ a8 := by
    unfold a8
    apply State.counterSnapshots_kept
    refine State.each_kept _ _ ?_ ?_
    · exact h7
    · intro a10 x11 h12
      apply State.phaseCycle_kept
      exact h12
  clear_value a8
  extract_lets -merge -useContext +onlyGivenNames a13
  have h14 : Kept s₀ a13 := by
    unfold a13
    apply State.serveNonces_kept
    apply State.sendSync_kept
    exact h9
  clear_value a13
  extract_lets -merge -useContext +onlyGivenNames a15
  have h16 : Kept s₀ a15 := by
    unfold a15
    refine State.each_kept _ _ ?_ ?_
    · exact h14
    · intro a17 x18 h19
      apply State.keyCycle_kept
      exact h19
  clear_value a15
  apply State.tryLeaveJoin_kept
  apply State.deliverAll_kept
  exact h16

theorem execBasicCycleStart_kept {s₀ s : State} (h : Kept s₀ s) :
    KeptR s₀ (execBasicCycleStart s) := by
  unfold execBasicCycleStart
  extract_lets -merge -useContext +onlyGivenNames a1
  have h2 : Kept s₀ a1 := by
    unfold a1
    refine Kept.ite_ ?_ ?_
    · apply State.runToCycle_kept
      exact h
    · exact h
  clear_value a1
  refine KeptR.next ?_
  apply State.startCycle_kept
  apply State.endDue_kept
  exact h2

theorem State.coldStart_kept {s₀ s : State} (h : Kept s₀ s) :
    Kept s₀ (State.coldStart s) := by
  unfold State.coldStart
  extract_lets -merge -useContext +onlyGivenNames a1
  extract_lets -merge -useContext +onlyGivenNames a2
  have h3 : Kept s₀ a2 := by
    unfold a2
    apply State.raise_kept
    apply State.set_kept
    apply State.set_kept
    exact h
  clear_value a2
  extract_lets -merge -useContext +onlyGivenNames a4
  clear_value a4
  extract_lets -merge -useContext +onlyGivenNames a5
  have h6 : Kept s₀ a5 := by
    unfold a5
    apply Kept.mk_
    exact h3
  clear_value a5
  apply State.set_kept
  apply State.set_kept
  exact h6

theorem State.listenBoundary_kept {s₀ s : State} (h : Kept s₀ s) :
    Kept s₀ (State.listenBoundary s) := by
  unfold State.listenBoundary
  refine Kept.ite_ ?_ ?_
  · extract_lets -merge -useContext +onlyGivenNames a1
    clear_value a1
    extract_lets -merge -useContext +onlyGivenNames a2
    clear_value a2
    extract_lets -merge -useContext +onlyGivenNames a3
    have h4 : Kept s₀ a3 := by
      unfold a3
      apply Kept.mk_
      exact h
    clear_value a3
    refine Kept.ite_ ?_ ?_
    · apply State.coldStart_kept
      exact h4
    · exact h4
  · apply Kept.mk_
    exact h

theorem State.syncBoundary_kept {s₀ s : State} (h : Kept s₀ s) :
    Kept s₀ (State.syncBoundary s) := by
  unfold State.syncBoundary
  extract_lets -merge -useContext +onlyGivenNames a1
  have h2 : Kept s₀ a1 := by
    unfold a1
    refine Kept.ite_ ?_ ?_
    · apply State.synced_kept
      apply State.set_kept
      exact h
    · refine Kept.ite_ ?_ ?_
      · apply State.synced_kept
        exact h
      · exact h
  clear_value a1
  apply Kept.mk_
  exact h2

theorem State.tableBoundary_kept {s₀ s : State} (h : Kept s₀ s) :
    Kept s₀ (State.tableBoundary s) := by
  unfold State.tableBoundary
  refine Kept.ite_ ?_ ?_
  · apply State.activate_kept
    exact h
  · exact h

theorem State.rateBoundary_kept {s₀ s : State} (h : Kept s₀ s) :
    Kept s₀ (State.rateBoundary s) := by
  unfold State.rateBoundary
  extract_lets -merge -useContext +onlyGivenNames a1
  clear_value a1
  apply State.setInt_kept
  apply Kept.mk_
  exact h

theorem State.steerBoundary_kept {s₀ s : State} (h : Kept s₀ s) :
    Kept s₀ (State.steerBoundary s) := by
  unfold State.steerBoundary
  split
  · rename_i a1 e2
    exact h
  · rename_i a3 a4 e5
    refine Kept.ite_ ?_ ?_
    · exact h
    · extract_lets -merge -useContext +onlyGivenNames a6
      clear_value a6
      extract_lets -merge -useContext +onlyGivenNames a7
      have h8 : Kept s₀ a7 := by
        unfold a7
        apply Kept.mk_
        exact h
      clear_value a7
      refine Kept.ite_ ?_ ?_
      · apply State.slewCycle_kept
        apply State.setInt_kept
        exact h8
      · apply State.reEpoch_kept
        apply State.slewCycle_kept
        apply State.setInt_kept
        exact h8

theorem State.labelBoundary_kept {s₀ s : State} (h : Kept s₀ s) (t0 : Nat) :
    Kept s₀ (State.labelBoundary s t0) := by
  unfold State.labelBoundary
  extract_lets -merge -useContext +onlyGivenNames a1
  clear_value a1
  extract_lets -merge -useContext +onlyGivenNames a2
  clear_value a2
  extract_lets -merge -useContext +onlyGivenNames a3
  clear_value a3
  extract_lets -merge -useContext +onlyGivenNames a4
  have h5 : Kept s₀ a4 := by
    unfold a4
    apply Kept.mk_
    exact h
  clear_value a4
  split
  · rename_i a6 a7 a8 a9
    refine Kept.ite_ ?_ ?_
    · apply State.adopt_kept
      exact h5
    · exact h5
  · rename_i a10
    exact h5

theorem State.spareBoundary_kept {s₀ s : State} (h : Kept s₀ s) :
    Kept s₀ (State.spareBoundary s) := by
  unfold State.spareBoundary
  extract_lets -merge -useContext +onlyGivenNames a1
  have h2 : Kept s₀ a1 := by
    unfold a1
    refine State.each_kept _ _ ?_ ?_
    · exact h
    · intro a3 x4 h5
      apply State.ringBoundary_kept
      exact h5
  clear_value a1
  extract_lets -merge -useContext +onlyGivenNames a6
  have h7 : Kept s₀ a6 := by
    unfold a6
    refine State.each_kept _ _ ?_ ?_
    · exact h2
    · intro a8 x9 h10
      apply State.armSwap_kept
      exact h10
  clear_value a6
  apply State.refBoundary_kept
  apply State.rowBoundary_kept
  apply State.drainBank_kept
  exact h7

theorem State.newMatrix_kept {s₀ s : State} (h : Kept s₀ s) :
    Kept s₀ (State.newMatrix s) := by
  unfold State.newMatrix
  apply Kept.mk_
  exact h

theorem State.boundary_kept {s₀ s : State} (h : Kept s₀ s) :
    Kept s₀ (State.boundary s) := by
  unfold State.boundary
  extract_lets -merge -useContext +onlyGivenNames a1
  have h2 : Kept s₀ a1 := by
    unfold a1
    apply State.endDue_kept
    exact h
  clear_value a1
  extract_lets -merge -useContext +onlyGivenNames a3
  clear_value a3
  extract_lets -merge -useContext +onlyGivenNames a4
  have h5 : Kept s₀ a4 := by
    unfold a4
    apply Kept.mk_
    exact h2
  clear_value a4
  extract_lets -merge -useContext +onlyGivenNames a6
  have h7 : Kept s₀ a6 := by
    unfold a6
    apply State.rateBoundary_kept
    apply State.tableBoundary_kept
    apply State.syncBoundary_kept
    apply State.listenBoundary_kept
    exact h5
  clear_value a6
  extract_lets -merge -useContext +onlyGivenNames a8
  clear_value a8
  extract_lets -merge -useContext +onlyGivenNames a9
  have h10 : Kept s₀ a9 := by
    unfold a9
    apply State.redBoundary_kept
    apply State.newMatrix_kept
    apply State.fwBoundary_kept
    apply State.spareBoundary_kept
    apply State.labelBoundary_kept
    apply State.steerBoundary_kept
    exact h7
  clear_value a9
  apply State.tryLeaveJoin_kept
  refine State.each_kept _ _ ?_ ?_
  · exact h10
  · intro a11 x12 h13
    apply State.askDelay_kept
    exact h13

theorem execMatrixBoundary_kept {s₀ s : State} (h : Kept s₀ s) :
    KeptR s₀ (execMatrixBoundary s) := by
  unfold execMatrixBoundary
  extract_lets -merge -useContext +onlyGivenNames a1
  refine KeptR.next ?_
  apply State.boundary_kept
  refine Kept.ite_ ?_ ?_
  · exact h
  · apply State.runToBoundary_kept
    exact h

end Sys2Proof.Machine
end

