-- ==== Sys2Proof/Laws/KeptRegisters.lean ====
section
/-! SUPPORT. What the operations of `Machine/Registers.lean` keep: the queue, the direction of the clock, sound
stores. -/

namespace Sys2Proof.Machine

theorem State.readClears_kept {s₀ s : State} (h : Kept s₀ s) (a : Nat) :
    Kept s₀ (State.readClears s a) := by
  unfold State.readClears
  refine Kept.ite_ ?_ ?_
  · apply State.popRemote_kept
    exact h
  · refine Kept.ite_ ?_ ?_
    · apply State.popStamp_kept
      exact h
    · refine Kept.ite_ ?_ ?_
      · apply Kept.mk_
        exact h
      · refine Kept.foldl _ _ ?_ ?_
        · exact h
        · intro x1 a2 h3
          refine Kept.ite_ ?_ ?_
          · apply State.set_kept
            exact h3
          · exact h3

theorem State.readReg_kept {s₀ s : State} (h : Kept s₀ s) (a : Nat) :
    KeptP s₀ (State.readReg s a) := by
  unfold State.readReg
  extract_lets -merge -useContext +onlyGivenNames a1
  have h2 : Kept s₀ a1 := by
    unfold a1
    refine Kept.ite_ ?_ ?_
    · apply State.settleBay_kept
      exact h
    · exact h
  clear_value a1
  extract_lets -merge -useContext +onlyGivenNames a3
  have h4 : Kept s₀ a3 := by
    unfold a3
    refine Kept.ite_ ?_ ?_
    · apply State.useKp_kept
      exact h2
    · refine Kept.ite_ ?_ ?_
      · apply State.useKp_kept
        exact h2
      · exact h2
  clear_value a3
  refine KeptP.ite_ ?_ ?_
  · apply State.readRng_kept
    exact h4
  · refine KeptP.ite_ ?_ ?_
    · apply State.queueOut_kept
      exact h4
    · refine KeptP.mk ?_
      apply State.readClears_kept
      exact h4

theorem State.readOutReg_kept {s₀ s : State} (h : Kept s₀ s) (a : Nat) :
    Kept s₀ (State.readOutReg s a) := by
  unfold State.readOutReg
  extract_lets -merge -useContext +onlyGivenNames a1
  apply State.emit_kept
  refine KeptP.fst ?_
  unfold a1
  apply State.readReg_kept
  exact h

theorem State.writeFields_kept {s₀ s : State} (h : Kept s₀ s) (fs : List Field) (v : Word) :
    Kept s₀ (State.writeFields s fs v) := by
  unfold State.writeFields
  refine Kept.foldl _ _ ?_ ?_
  · exact h
  · intro x1 a2 h3
    split
    · rename_i a4 e5
      apply State.set_kept
      exact h3
    · rename_i a6 e7
      refine Kept.ite_ ?_ ?_
      · exact h3
      · apply State.set_kept
        exact h3
    · rename_i a8 e9
      apply State.set_kept
      exact h3
    · rename_i a10 e11 e12 e13
      exact h3

theorem State.writePlain_kept {s₀ s : State} (h : Kept s₀ s) (a : Nat) (v : Word) :
    Kept s₀ (State.writePlain s a v) := by
  unfold State.writePlain
  apply State.writeFields_kept
  exact h

theorem State.writeMgtBlock_kept {s₀ s : State} (h : Kept s₀ s) (a : Nat) (v : Word) :
    Kept s₀ (State.writeMgtBlock s a v) := by
  unfold State.writeMgtBlock
  split
  · rename_i a1
    apply State.writeMgtCmd_kept
    exact h
  · rename_i a2
    apply State.writeFwCtl_kept
    exact h
  · rename_i a3
    refine Kept.ite_ ?_ ?_
    · apply State.imageStart_kept
      exact h
    · exact h
  · rename_i a4
    apply State.imageData_kept
    exact h
  · rename_i a5
    apply State.writeKp_kept
    exact h
  · rename_i a6
    apply State.writeKp_kept
    exact h
  · rename_i a7
    apply State.writeKp_kept
    exact h
  · rename_i a8
    apply State.writeSupCtl_kept
    exact h
  · rename_i a9
    apply State.writeSupmon_kept
    exact h
  · rename_i a10
    apply State.writeFltCtl_kept
    exact h
  · rename_i a11
    refine Kept.ite_ ?_ ?_
    · apply State.redSwap_kept
      exact h
    · exact h
  · rename_i a12
    apply State.writeRedCfg_kept
    exact h
  · rename_i a13
    refine Kept.ite_ ?_ ?_
    · exact h
    · apply State.writePlain_kept
      exact h
  · rename_i a14
    apply State.writeVgcfg_kept
    exact h
  · rename_i a15
    apply State.kpTest_kept
    exact h
  · rename_i a16 e17 e18 e19 e20 e21 e22 e23 e24 e25 e26 e27 e28 e29 e30 e31
    refine Kept.ite_ ?_ ?_
    · apply State.clearSticky_kept
      exact h
    · apply State.writePlain_kept
      exact h

theorem State.writePhBlock_kept {s₀ s : State} (h : Kept s₀ s) (d o : Nat) (v : Word) :
    Kept s₀ (State.writePhBlock s d o v) := by
  unfold State.writePhBlock
  refine Kept.ite_ ?_ ?_
  · apply State.phConfig_kept
    exact h
  · split
    · rename_i a1
      apply State.writePhCtl_kept
      exact h
    · rename_i a2
      apply State.writePhSrc_kept
      exact h
    · rename_i a3
      apply State.writeSetph_kept
      exact h
    · rename_i a4 e5 e6 e7
      apply State.writePlain_kept
      exact h

theorem State.writeCoreBlock_kept {s₀ s : State} (h : Kept s₀ s) (a : Nat) (v : Word) :
    Kept s₀ (State.writeCoreBlock s a v) := by
  unfold State.writeCoreBlock
  split
  · rename_i a1
    apply State.writeSeqCtl_kept
    exact h
  · rename_i a2
    apply State.writeSeqCfg_kept
    exact h
  · rename_i a3
    apply State.writeSeqHold_kept
    exact h
  · rename_i a4
    apply State.writeKp_kept
    exact h
  · rename_i a5
    apply State.ringDoor_kept
    exact h
  · rename_i a6
    apply State.ringDoor_kept
    exact h
  · rename_i a7
    apply State.writeCycCfg_kept
    exact h
  · rename_i a8
    refine Kept.ite_ ?_ ?_
    · exact h
    · apply State.writePlain_kept
      exact h
  · rename_i a9
    refine Kept.ite_ ?_ ?_
    · exact h
    · apply State.writePlain_kept
      exact h
  · rename_i a10
    apply State.steerRequest_kept
    exact h
  · rename_i a11
    apply State.writeSpare_kept
    exact h
  · rename_i a12 e13 e14 e15 e16 e17 e18 e19 e20 e21 e22 e23
    refine Kept.ite_ ?_ ?_
    · apply State.writeQuota_kept
      exact h
    · apply State.writePlain_kept
      exact h

theorem State.writeLinkBlock_kept {s₀ s : State} (h : Kept s₀ s) (a : Nat) (v : Word) :
    Kept s₀ (State.writeLinkBlock s a v) := by
  unfold State.writeLinkBlock
  refine Kept.ite_ ?_ ?_
  · refine Kept.ite_ ?_ ?_
    · extract_lets -merge -useContext +onlyGivenNames a1
      clear_value a1
      apply State.set_kept
      exact h
    · refine Kept.ite_ ?_ ?_
      · refine Kept.ite_ ?_ ?_
        · exact h
        · apply State.writePlain_kept
          exact h
      · split
        · rename_i a2 e3
          apply State.writeRingCtl_kept
          exact h
        · rename_i a4 e5
          apply State.writeRingSwap_kept
          exact h
        · rename_i a6 e7 e8
          apply State.writePlain_kept
          exact h
  · refine Kept.ite_ ?_ ?_
    · refine Kept.ite_ ?_ ?_
      · apply State.writeTun_kept
        exact h
      · apply State.writePlain_kept
        exact h
    · refine Kept.ite_ ?_ ?_
      · split
        · rename_i a9 e10
          apply State.writeMacCtl_kept
          exact h
        · rename_i a11 e12
          apply State.writeMacCfg_kept
          exact h
        · rename_i a13 e14 e15
          apply State.writePlain_kept
          exact h
      · refine Kept.ite_ ?_ ?_
        · extract_lets -merge -useContext +onlyGivenNames a16
          clear_value a16
          split
          · rename_i a17 e18
            apply State.writeMbCtl_kept
            exact h
          · rename_i a19 e20
            refine Kept.ite_ ?_ ?_
            · apply State.writePlain_kept
              exact h
            · apply State.mbConfig_kept
              exact h
          · rename_i a21 e22
            refine Kept.ite_ ?_ ?_
            · apply State.writePlain_kept
              exact h
            · apply State.mbConfig_kept
              exact h
          · rename_i a23 e24
            refine Kept.ite_ ?_ ?_
            · apply State.writePlain_kept
              exact h
            · apply State.mbConfig_kept
              exact h
          · rename_i a25 e26
            apply State.writeFmask_kept
            exact h
          · rename_i a27 e28
            apply State.writeTxreq_kept
            exact h
          · rename_i a29 e30
            apply State.eachBuf_kept
            · exact h
            · intro a31 x32 h33
              apply State.cancelTx_kept
              exact h33
          · rename_i a34 e35 e36 e37 e38 e39 e40 e41
            apply State.writePlain_kept
            exact h
        · exact h

theorem State.writeBayCtl_kept {s₀ s : State} (h : Kept s₀ s) (b : Nat) (v : Word) :
    Kept s₀ (State.writeBayCtl s b v) := by
  unfold State.writeBayCtl
  extract_lets -merge -useContext +onlyGivenNames a1
  have h2 : Kept s₀ a1 := by
    unfold a1
    apply State.writeQlink_kept
    exact h
  clear_value a1
  refine Kept.ite_ ?_ ?_
  · exact h2
  · refine Kept.ite_ ?_ ?_
    · exact h2
    · apply State.setBankOk_kept
      apply State.set_kept
      exact h2

theorem State.writeStream_kept {s₀ s : State} (h : Kept s₀ s) (b l : Nat) (v : Word) :
    Kept s₀ (State.writeStream s b l v) := by
  unfold State.writeStream
  extract_lets -merge -useContext +onlyGivenNames a1
  clear_value a1
  refine Kept.ite_ ?_ ?_
  · apply State.flushQueues_kept
    exact h
  · extract_lets -merge -useContext +onlyGivenNames a2
    have h3 : Kept s₀ a2 := by
      unfold a2
      refine Kept.ite_ ?_ ?_
      · apply State.flushQueues_kept
        exact h
      · exact h
    clear_value a2
    extract_lets -merge -useContext +onlyGivenNames a4
    have h5 : Kept s₀ a4 := by
      unfold a4
      apply State.writePlain_kept
      exact h3
    clear_value a4
    refine Kept.ite_ ?_ ?_
    · exact h5
    · apply State.setBay_kept
      exact h5

theorem State.writeBayBlock_kept {s₀ s : State} (h : Kept s₀ s) (b o : Nat) (v : Word) :
    Kept s₀ (State.writeBayBlock s b o v) := by
  unfold State.writeBayBlock
  extract_lets -merge -useContext +onlyGivenNames a1
  have h2 : Kept s₀ a1 := by
    unfold a1
    apply State.settleBay_kept
    exact h
  clear_value a1
  extract_lets -merge -useContext +onlyGivenNames a3
  have h4 : Kept s₀ a3 := by
    unfold a3
    apply State.writePlain_kept
    exact h2
  clear_value a3
  refine Kept.ite_ ?_ ?_
  · split
    · rename_i a5
      apply State.writeBayCtl_kept
      exact h2
    · rename_i a6
      refine Kept.ite_ ?_ ?_
      · exact h2
      · apply State.restClocks_kept
        apply State.settlePads_kept
        exact h4
    · rename_i a7
      refine Kept.ite_ ?_ ?_
      · exact h2
      · apply State.settlePads_kept
        exact h4
    · rename_i a8
      apply State.writeSwap_kept
      exact h2
    · rename_i a9
      refine Kept.ite_ ?_ ?_
      · exact h2
      · exact h4
    · rename_i a10 e11 e12 e13 e14 e15
      exact h4
  · refine Kept.ite_ ?_ ?_
    · extract_lets -merge -useContext +onlyGivenNames a16
      clear_value a16
      split
      · rename_i a17 e18
        apply State.queueIn_kept
        exact h2
      · rename_i a19 e20
        apply State.writeStream_kept
        exact h2
      · rename_i a21 e22 e23
        exact h4
    · refine Kept.ite_ ?_ ?_
      · extract_lets -merge -useContext +onlyGivenNames a24
        clear_value a24
        split
        · rename_i a25 e26
          apply State.writeTenCtl_kept
          exact h2
        · rename_i a27 e28
          apply State.writeTenCfg_kept
          exact h2
        · rename_i a29 e30
          apply State.writeTenClk_kept
          exact h2
        · rename_i a31 e32
          apply State.writeTenPins_kept
          exact h2
        · rename_i a33 e34 e35 e36 e37
          exact h4
      · extract_lets -merge -useContext +onlyGivenNames a38
        clear_value a38
        split
        · rename_i a39 e40
          apply State.writeChpCtl_kept
          exact h2
        · rename_i a41 e42
          apply State.writeChpCfg_kept
          exact h2
        · rename_i a43 e44
          apply State.writeChpTiming_kept
          exact h2
        · rename_i a45 e46 e47 e48
          exact h4

theorem State.writeFeedBlock_kept {s₀ s : State} (h : Kept s₀ s) (f o : Nat) (v : Word) :
    Kept s₀ (State.writeFeedBlock s f o v) := by
  unfold State.writeFeedBlock
  extract_lets -merge -useContext +onlyGivenNames a1
  have h2 : Kept s₀ a1 := by
    unfold a1
    apply State.writePlain_kept
    exact h
  clear_value a1
  refine Kept.ite_ ?_ ?_
  · apply State.writeFeedCtl_kept
    exact h
  · refine Kept.ite_ ?_ ?_
    · refine Kept.ite_ ?_ ?_
      · apply State.feedConfig_kept
        exact h
      · refine Kept.ite_ ?_ ?_
        · exact h
        · exact h2
    · split
      · rename_i a3
        apply State.requestTariff_kept
        exact h
      · rename_i a4
        apply State.writeFeedDemand_kept
        exact h
      · rename_i a5 e6 e7
        exact h2

theorem State.writeReg_kept {s₀ s : State} (h : Kept s₀ s) (a : Nat) (v : Word) :
    Kept s₀ (State.writeReg s a v) := by
  unfold State.writeReg
  refine Kept.ite_ ?_ ?_
  · exact h
  · refine Kept.ite_ ?_ ?_
    · apply State.writeMgtBlock_kept
      exact h
    · refine Kept.ite_ ?_ ?_
      · apply State.writePhBlock_kept
        exact h
      · refine Kept.ite_ ?_ ?_
        · apply State.writeCoreBlock_kept
          exact h
        · refine Kept.ite_ ?_ ?_
          · apply State.writeLinkBlock_kept
            exact h
          · refine Kept.ite_ ?_ ?_
            · apply State.writeBayBlock_kept
              exact h
            · refine Kept.ite_ ?_ ?_
              · apply State.writeFeedBlock_kept
                exact h
              · split
                · rename_i a1
                  apply State.writeSprCtl_kept
                  exact h
                · rename_i a2
                  apply State.writeRowRep_kept
                  exact h
                · rename_i a3 e4 e5
                  apply State.writePlain_kept
                  exact h

theorem execRegisterWrite_kept {s₀ s : State} (h : Kept s₀ s) (addr : BitVec 16) (v : Word) :
    KeptR s₀ (execRegisterWrite addr v s) := by
  unfold execRegisterWrite
  refine KeptR.next ?_
  apply State.writeReg_kept
  exact h

theorem execRegisterReadClear_kept {s₀ s : State} (h : Kept s₀ s) (addr : BitVec 16) :
    KeptR s₀ (execRegisterReadClear addr s) := by
  unfold execRegisterReadClear
  refine KeptR.next ?_
  apply State.readOutReg_kept
  exact h

theorem execQueueOutRead_kept {s₀ s : State} (h : Kept s₀ s) (b : Fin 32) (l : Fin 4) :
    KeptR s₀ (execQueueOutRead b l s) := by
  unfold execQueueOutRead
  refine KeptR.next ?_
  apply State.readOutReg_kept
  exact h

theorem execTxtsRead_kept {s₀ s : State} (h : Kept s₀ s) (m : Fin 12) :
    KeptR s₀ (execTxtsRead m s) := by
  unfold execTxtsRead
  refine KeptR.next ?_
  apply State.readOutReg_kept
  exact h

theorem execRngDataRead_kept {s₀ s : State} (h : Kept s₀ s) :
    KeptR s₀ (execRngDataRead s) := by
  unfold execRngDataRead
  refine KeptR.next ?_
  apply State.readOutReg_kept
  exact h

theorem execRemoteQueueRead_kept {s₀ s : State} (h : Kept s₀ s) :
    KeptR s₀ (execRemoteQueueRead s) := by
  unfold execRemoteQueueRead
  refine KeptR.next ?_
  apply State.readOutReg_kept
  exact h

end Sys2Proof.Machine
end

