-- ==== Sys2Proof/Laws/KeptFabric.lean ====
section
/-! SUPPORT. What the operations of `Machine/Fabric.lean` keep: the queue, the direction of the clock, sound
stores. -/

namespace Sys2Proof.Machine

theorem State.writeRegs_kept {s₀ s : State} (h : Kept s₀ s) (a : Nat) (ws : List Word) :
    Kept s₀ (State.writeRegs s a ws) := by
  induction ws generalizing s a with
  | nil => exact h
  | cons v rest ih =>
    unfold State.writeRegs
    have hr : Kept s₀ (s.writeReg a v) := State.writeReg_kept h a v
    refine Kept.ite_ (ih hr _) (Kept.mk_ (ih (Kept.mk_ hr) _))

theorem State.readRegs_kept {s₀ s : State} (h : Kept s₀ s) (a n : Nat) : KeptP s₀ (State.readRegs s a n) := by
  induction n generalizing s a with
  | zero => exact KeptP.mk h
  | succ n ih => exact KeptP.mk (ih (State.readReg_kept h a).fst _).fst

theorem State.writeWindow_kept {s₀ s : State} (h : Kept s₀ s) (t ch w : Nat) (ws : List Word) :
    Kept s₀ (State.writeWindow s t ch w ws) := by
  unfold State.writeWindow
  split
  · rename_i a1
    apply State.writeRegs_kept
    exact h
  · rename_i a2
    apply State.writeEph_kept
    apply State.dispatchDueOf_kept
    exact h
  · rename_i a3
    apply State.writePending_kept
    exact h
  · rename_i a4
    exact h
  · rename_i a5
    refine Kept.foldl _ _ ?_ ?_
    · exact h
    · intro x6 a7 h8
      apply State.writeTenStore_kept
      exact h8
  · rename_i a9 e10 e11 e12 e13 e14
    refine Kept.foldl _ _ ?_ ?_
    · exact h
    · intro x15 a16 h17
      apply State.writeSeqStore_kept
      exact h17

theorem State.readWindow_kept {s₀ s : State} (h : Kept s₀ s) (t ch w n : Nat) :
    KeptP s₀ (State.readWindow s t ch w n) := by
  unfold State.readWindow
  extract_lets -merge -useContext +onlyGivenNames a1
  split
  · rename_i a2
    apply State.readRegs_kept
    exact h
  · rename_i a3
    refine KeptP.mk ?_
    exact h
  · rename_i a4
    refine KeptP.mk ?_
    exact h
  · rename_i a5
    refine KeptP.mk ?_
    exact h
  · rename_i a6
    refine KeptP.mk ?_
    exact h
  · rename_i a7 e8 e9 e10 e11 e12
    refine KeptP.mk ?_
    exact h

theorem State.serveWrite_kept {s₀ s : State} (h : Kept s₀ s) (bcast : Bool) (cp t ch w : Nat) (ws : List Word) (g : Target) :
    Kept s₀ (State.serveWrite s bcast cp t ch w ws g) := by
  unfold State.serveWrite
  split
  · rename_i a1
    apply State.block_kept
    exact h
  · rename_i a2 a3
    apply State.refuse_kept
    exact h
  · rename_i a4
    apply State.writeWindow_kept
    exact h
  · rename_i a5 a6
    split
    · rename_i a7 a8 e9
      apply State.inboundWrite_kept
      exact h
    · rename_i a10 e11
      apply State.putChan_kept
      exact h

theorem State.repairTouched_kept {s₀ s : State} (h : Kept s₀ s) (t ch w n : Nat) (ue : Bool) :
    Kept s₀ (State.repairTouched s t ch w n ue) := by
  unfold State.repairTouched
  refine Kept.ite_ ?_ ?_
  · extract_lets -merge -useContext +onlyGivenNames a1
    clear_value a1
    refine Kept.foldl _ _ ?_ ?_
    · apply State.touchEntry_kept
      exact h
    · intro x2 a3 h4
      apply State.touchEntry_kept
      exact h4
  · exact h

theorem State.accessWrite_kept {s₀ s : State} (h : Kept s₀ s) (bcast : Bool) (cp t ch w : Nat) (ws : List Word) (ue : Bool) :
    Kept s₀ (State.accessWrite s bcast cp t ch w ws ue) := by
  unfold State.accessWrite
  extract_lets -merge -useContext +onlyGivenNames a1
  have h2 : Kept s₀ a1 := by
    unfold a1
    apply State.useKp_kept
    apply State.useKp_kept
    exact h
  clear_value a1
  extract_lets -merge -useContext +onlyGivenNames a3
  have h4 : Kept s₀ a3 := by
    unfold a3
    refine Kept.ite_ ?_ ?_
    · exact h2
    · apply State.repairTouched_kept
      exact h2
  clear_value a3
  extract_lets -merge -useContext +onlyGivenNames a5
  apply State.serveWrite_kept
  refine KeptP.fst ?_
  unfold a5
  apply State.decode_kept
  exact h4

theorem State.respond_kept {s₀ s : State} (h : Kept s₀ s) (t ch : Nat) (e : Entry) (w : Nat) (ret : Word) (cls : BitVec 2) (out : Nat) (ws : List Word) :
    Kept s₀ (State.respond s t ch e w ret cls out ws) := by
  unfold State.respond
  extract_lets -merge -useContext +onlyGivenNames a1
  have h2 : Kept s₀ a1 := by
    unfold a1
    apply State.objectRead_kept
    exact h
  clear_value a1
  apply State.sendFor_kept
  exact h2

theorem State.accessRead_kept {s₀ s : State} (h : Kept s₀ s) (cp t ch w n : Nat) (ret : Word) (cls : BitVec 2) (out : Nat) (c : Cell) (ue : Bool) :
    Kept s₀ (State.accessRead s cp t ch w n ret cls out c ue) := by
  unfold State.accessRead
  extract_lets -merge -useContext +onlyGivenNames a1
  have h2 : Kept s₀ a1 := by
    unfold a1
    apply State.repairTouched_kept
    apply State.useKp_kept
    apply State.useKp_kept
    exact h
  clear_value a1
  split
  · rename_i a3 x4 a5 e6
    refine Kept.cut (s := s₀) (KeptP.of ?_ e6) fun h7 => ?_
    · apply State.decode_kept
      exact h2
    split
    · rename_i a8
      apply State.block_kept
      exact h7
    · rename_i a9 a10
      apply State.sendFor_kept
      apply State.refuse_kept
      exact h7
    · rename_i a11 a12
      split
      · rename_i a13 a14 e15
        apply State.inboundRead_kept
        exact h7
      · rename_i a16 e17
        split
        · rename_i a18 x19 a20 e21
          refine Kept.cut (s := s₀) (KeptP.of ?_ e21) fun h22 => ?_
          · apply State.readChan_kept
            exact h7
          apply State.respond_kept
          exact h22
        · rename_i a23 x24 a25 e26 e27
          refine Kept.cut (s := s₀) (KeptP.of ?_ e27) fun h28 => ?_
          · apply State.readChan_kept
            exact h7
          exact h28
    · rename_i a29
      extract_lets -merge -useContext +onlyGivenNames a30
      apply State.sendFor_kept
      refine KeptP.fst ?_
      unfold a30
      apply State.readWindow_kept
      exact h7

theorem State.readCell_kept {s₀ s : State} (h : Kept s₀ s) (cp : Nat) (c : Cell) (ue : Bool) :
    Kept s₀ (State.readCell s cp c ue) := by
  unfold State.readCell
  apply State.accessRead_kept
  exact h

theorem execFabricWrite_kept {s₀ s : State} (h : Kept s₀ s) (cp : Fin 32) (ten : Fin 16) (addr : Word) (ws : List Word) :
    KeptR s₀ (execFabricWrite cp ten addr ws s) := by
  unfold execFabricWrite
  refine KeptR.ite_ ?_ ?_
  · exact KeptR.fault _ _
  · refine KeptR.ite_ ?_ ?_
    · refine KeptR.next ?_
      apply State.accessWrite_kept
      exact h
    · refine KeptR.next ?_
      apply State.sendFor_kept
      exact h

theorem execFabricRead_kept {s₀ s : State} (h : Kept s₀ s) (cp : Fin 32) (ten : Fin 16) (addr : Word) (nm1 : Fin 20) (ret : Word) (ue : Bool) :
    KeptR s₀ (execFabricRead cp ten addr nm1 ret ue s) := by
  unfold execFabricRead
  extract_lets -merge -useContext +onlyGivenNames a1
  clear_value a1
  refine KeptR.ite_ ?_ ?_
  · refine KeptR.next ?_
    apply State.readCell_kept
    exact h
  · refine KeptR.ite_ ?_ ?_
    · refine KeptR.next ?_
      apply State.sendFor_kept
      apply State.refuse_kept
      exact h
    · refine KeptR.next ?_
      apply State.sendFor_kept
      exact h

theorem execBroadcastWrite_kept {s₀ s : State} (h : Kept s₀ s) (sender : BitVec 16) (ten : Fin 16) (ch w : BitVec 16) (ws : List Word) :
    KeptR s₀ (execBroadcastWrite sender ten ch w ws s) := by
  unfold execBroadcastWrite
  refine KeptR.ite_ ?_ ?_
  · exact KeptR.fault _ _
  · refine KeptR.next ?_
    apply State.accessWrite_kept
    exact h

theorem execEphemerisWrite_kept {s₀ s : State} (h : Kept s₀ s) (ten : Fin 16) (w : BitVec 16) (ws : List Word) (ue : Bool) :
    KeptR s₀ (execEphemerisWrite ten w ws ue s) := by
  unfold execEphemerisWrite
  refine KeptR.ite_ ?_ ?_
  · exact KeptR.fault _ _
  · refine KeptR.next ?_
    apply State.accessWrite_kept
    exact h

theorem execBar0Request_kept {s₀ s : State} (h : Kept s₀ s) (write : Bool) (offset : Nat) (bytes : List Byte) :
    KeptR s₀ (execBar0Request write offset bytes s) := by
  unfold execBar0Request
  extract_lets -merge -useContext +onlyGivenNames a1
  clear_value a1
  refine KeptR.ite_ ?_ ?_
  · exact KeptR.fault _ _
  · refine KeptR.ite_ ?_ ?_
    · refine KeptR.next ?_
      exact h
    · refine KeptR.ite_ ?_ ?_
      · refine KeptR.next ?_
        refine Kept.ite_ ?_ ?_
        · apply State.outRefused_kept
          exact h
        · apply State.emit_kept
          apply State.outRefused_kept
          exact h
      · refine KeptR.ite_ ?_ ?_
        · refine KeptR.next ?_
          apply State.writeRegs_kept
          exact h
        · extract_lets -merge -useContext +onlyGivenNames a2
          refine KeptR.next ?_
          apply State.emit_kept
          refine KeptP.fst ?_
          unfold a2
          apply State.readRegs_kept
          exact h

end Sys2Proof.Machine
end

