-- ==== Sys2Proof/Laws/KeptCells.lean ====
section
/-! SUPPORT. What the operations of `Machine/Cells.lean` keep: the queue, the direction of the clock, sound
stores. -/

namespace Sys2Proof.Machine

theorem State.dropHeader_kept {s₀ s : State} (h : Kept s₀ s) (cp : Nat) :
    Kept s₀ (State.dropHeader s cp) := by
  unfold State.dropHeader
  apply State.raise_kept
  apply State.inc_kept
  exact h

theorem Result.or_kept {s₀ s : State} {r : Result} (h : Kept s₀ s) (hr : KeptR s₀ r) :
    Kept s₀ (Result.or s r) := by
  unfold Result.or
  split
  · exact hr _ rfl
  · exact h

theorem State.deliverCell_kept {s₀ s : State} (h : Kept s₀ s) (cp : Nat) (c : Cell) :
    Kept s₀ (State.deliverCell s cp c) := by
  unfold State.deliverCell
  extract_lets -merge -useContext +onlyGivenNames a1
  clear_value a1
  extract_lets -merge -useContext +onlyGivenNames a2
  clear_value a2
  refine Kept.ite_ ?_ ?_
  · apply State.accessWrite_kept
    exact h
  · refine Kept.ite_ ?_ ?_
    · apply State.readCell_kept
      exact h
    · refine Kept.ite_ ?_ ?_
      · apply State.takeResp_kept
        exact h
      · refine Kept.ite_ ?_ ?_
        · apply State.accessWrite_kept
          exact h
        · refine Kept.ite_ ?_ ?_
          · apply State.takeTunnel_kept
            exact h
          · refine Kept.ite_ ?_ ?_
            · split
              · rename_i a3 e4
                apply State.receiveSample_kept
                exact h
              · rename_i a5 e6
                apply Result.or_kept
                · exact h
                · apply execHeartbeatReceived_kept
                  exact h
              · rename_i a7 e8
                apply State.mirrorArrive_kept
                exact h
              · rename_i a9 e10
                apply State.voteArrive_kept
                exact h
              · rename_i a11 e12
                apply State.remoteArrive_kept
                exact h
              · rename_i a13 e14 e15 e16 e17 e18
                exact h
            · exact h

theorem State.insertCells_kept {s₀ s : State} (h : Kept s₀ s) (r : Row) (slots : Nat) (cs : List Cell) :
    Kept s₀ (State.insertCells s r slots cs) := by
  induction cs generalizing s slots with
  | nil => exact h
  | cons c rest ih =>
    unfold State.insertCells
    extract_lets -merge -useContext +onlyGivenNames a1
    clear_value a1
    refine Kept.ite_ ?_ ?_
    · apply ih
      apply State.deliverCell_kept
      exact h
    · split
      · rename_i a2
        apply ih
        apply State.raise_kept
        apply State.inc_kept
        exact h
      · rename_i a3 a4
        split
        · rename_i a5 x6 a7 e8
          refine Kept.cut (s := s₀) (KeptP.of ?_ e8) fun h9 => ?_
          · apply State.originate_kept
            exact h
          extract_lets -merge -useContext +onlyGivenNames a10
          have h11 : Kept s₀ a10 := by
            unfold a10
            refine Kept.foldl _ _ ?_ ?_
            · exact h9
            · intro x12 a13 h14
              apply State.sendTt_kept
              exact h14
          clear_value a10
          extract_lets -merge -useContext +onlyGivenNames a15
          have h16 : Kept s₀ a15 := by
            unfold a15
            refine Kept.ite_ ?_ ?_
            · apply State.deliverCell_kept
              exact h11
            · exact h11
          clear_value a15
          apply ih
          exact h16

theorem execTtWindow_kept {s₀ s : State} (h : Kept s₀ s) (row : Fin 4096) (busy : BitVec 14) (cells : List Cell) :
    KeptR s₀ (execTtWindow row busy cells s) := by
  unfold execTtWindow
  refine KeptR.ite_ ?_ ?_
  · exact KeptR.fault _ _
  · split
    · rename_i a1 e2
      refine KeptR.next ?_
      exact h
    · rename_i a3 a4 e5
      refine KeptR.ite_ ?_ ?_
      · refine KeptR.next ?_
        exact h
      · extract_lets -merge -useContext +onlyGivenNames a6
        have h7 : Kept s₀ a6 := by
          unfold a6
          apply State.advance_kept
          exact h
        clear_value a6
        refine KeptR.ite_ ?_ ?_
        · refine KeptR.next ?_
          refine Kept.foldl _ _ ?_ ?_
          · exact h7
          · intro x8 a9 h10
            apply State.tripGuard_kept
            exact h10
        · extract_lets -merge -useContext +onlyGivenNames a11
          clear_value a11
          extract_lets -merge -useContext +onlyGivenNames a12
          clear_value a12
          extract_lets -merge -useContext +onlyGivenNames a13
          clear_value a13
          extract_lets -merge -useContext +onlyGivenNames a14
          have h15 : Kept s₀ a14 := by
            unfold a14
            refine Kept.ite_ ?_ ?_
            · apply Kept.mk_
              exact h7
            · exact h7
          clear_value a14
          split
          · rename_i a16 x17 a18 e19
            refine Kept.cut (s := s₀) (KeptP.of ?_ e19) fun h20 => ?_
            · apply State.takeSamples_kept
              exact h15
            split
            · rename_i a21 x22 a23 e24
              refine Kept.cut (s := s₀) (KeptP.of ?_ e24) fun h25 => ?_
              · apply State.takeMirror_kept
                exact h20
              extract_lets -merge -useContext +onlyGivenNames a26
              clear_value a26
              extract_lets -merge -useContext +onlyGivenNames a27
              clear_value a27
              refine KeptR.next ?_
              apply State.insertCells_kept
              exact h25

theorem State.bypass_kept {s₀ s : State} (h : Kept s₀ s) (i o : Nat) :
    Kept s₀ (State.bypass s i o) := by
  unfold State.bypass
  apply Kept.mk_
  exact h

theorem State.toOutput_kept {s₀ s : State} (h : Kept s₀ s) (i o : Nat) (c : Cell) (own : Option Nat) (copy : Bool) :
    Kept s₀ (State.toOutput s i o c own copy) := by
  unfold State.toOutput
  refine Kept.ite_ ?_ ?_
  · extract_lets -merge -useContext +onlyGivenNames a1
    clear_value a1
    extract_lets -merge -useContext +onlyGivenNames a2
    have h3 : Kept s₀ a2 := by
      unfold a2
      apply Kept.mk_
      exact h
    clear_value a2
    refine Kept.ite_ ?_ ?_
    · apply State.sendRing_kept
      exact h3
    · apply State.deliverCell_kept
      exact h3
  · apply State.queueCell_kept
    exact h

theorem State.transit_kept {s₀ s : State} (h : Kept s₀ s) (p k : Nat) (c : Cell) :
    Kept s₀ (State.transit s p k c) := by
  unfold State.transit
  split
  · rename_i a1 a2 e3
    apply State.wrapDrop_kept
    exact h
  · rename_i a4 a5 a6 e7
    apply State.toOutput_kept
    exact h

theorem State.ttArrives_kept {s₀ s : State} (h : Kept s₀ s) (p k : Nat) (c : Cell) :
    Kept s₀ (State.ttArrives s p k c) := by
  unfold State.ttArrives
  refine Kept.ite_ ?_ ?_
  · apply State.police_kept
    exact h
  · extract_lets -merge -useContext +onlyGivenNames a1
    clear_value a1
    extract_lets -merge -useContext +onlyGivenNames a2
    have h3 : Kept s₀ a2 := by
      unfold a2
      apply State.setRport_kept
      exact h
    clear_value a2
    refine Kept.ite_ ?_ ?_
    · exact h3
    · extract_lets -merge -useContext +onlyGivenNames a4
      have h5 : Kept s₀ a4 := by
        unfold a4
        apply State.noteSeen_kept
        exact h3
      clear_value a4
      extract_lets -merge -useContext +onlyGivenNames a6
      clear_value a6
      extract_lets -merge -useContext +onlyGivenNames a7
      have h8 : Kept s₀ a7 := by
        unfold a7
        refine Kept.ite_ ?_ ?_
        · exact h5
        · apply State.bypass_kept
          apply State.passTt_kept
          exact h5
      clear_value a7
      extract_lets -merge -useContext +onlyGivenNames a9
      have h10 : Kept s₀ a9 := by
        unfold a9
        refine Kept.ite_ ?_ ?_
        · apply State.bypass_kept
          exact h8
        · exact h8
      clear_value a9
      refine Kept.ite_ ?_ ?_
      · exact h10
      · extract_lets -merge -useContext +onlyGivenNames a11
        refine Kept.ite_ ?_ ?_
        · refine KeptP.fst ?_
          unfold a11
          apply State.secondCopy_kept
          exact h10
        · apply State.deliverCell_kept
          refine KeptP.fst ?_
          unfold a11
          apply State.secondCopy_kept
          exact h10

theorem State.arbitratedArrives_kept {s₀ s : State} (h : Kept s₀ s) (p k : Nat) (c : Cell) :
    Kept s₀ (State.arbitratedArrives s p k c) := by
  unfold State.arbitratedArrives
  extract_lets -merge -useContext +onlyGivenNames a1
  clear_value a1
  refine Kept.ite_ ?_ ?_
  · exact h
  · refine Kept.ite_ ?_ ?_
    · refine Kept.ite_ ?_ ?_
      · apply State.raise_kept
        apply State.inc_kept
        exact h
      · apply State.queueCell_kept
        exact h
    · extract_lets -merge -useContext +onlyGivenNames a2
      clear_value a2
      refine Kept.ite_ ?_ ?_
      · apply State.raise_kept
        apply State.inc_kept
        exact h
      · extract_lets -merge -useContext +onlyGivenNames a3
        have h4 : Kept s₀ a3 := by
          unfold a3
          refine Kept.ite_ ?_ ?_
          · apply State.queueCell_kept
            exact h
          · exact h
        clear_value a3
        apply State.transit_kept
        exact h4

theorem State.linkArrives_kept {s₀ s : State} (h : Kept s₀ s) (p : Fin 4) (c : Cell) :
    Kept s₀ (State.linkArrives s p c) := by
  unfold State.linkArrives
  split
  · rename_i a1 e2
    apply Result.or_kept
    · exact h
    · apply execKeyExchangeReceived_kept
      exact h
  · rename_i a3 e4
    apply Result.or_kept
    · exact h
    · apply execLinkDelayReceived_kept
      exact h
  · rename_i a5 e6 e7
    exact h

theorem State.goodCell_kept {s₀ s : State} (h : Kept s₀ s) (p k : Fin 4) (c : Cell) :
    Kept s₀ (State.goodCell s p k c) := by
  unfold State.goodCell
  extract_lets -merge -useContext +onlyGivenNames a1
  clear_value a1
  refine Kept.ite_ ?_ ?_
  · apply State.dropHeader_kept
    exact h
  · refine Kept.ite_ ?_ ?_
    · apply State.linkArrives_kept
      exact h
    · refine Kept.ite_ ?_ ?_
      · exact h
      · refine Kept.ite_ ?_ ?_
        · apply State.raise_kept
          exact h
        · refine Kept.ite_ ?_ ?_
          · apply Result.or_kept
            · exact h
            · apply execSyncCellReceived_kept
              exact h
          · refine Kept.ite_ ?_ ?_
            · apply State.ttArrives_kept
              exact h
            · apply State.arbitratedArrives_kept
              exact h

theorem State.badCell_kept {s₀ s : State} (h : Kept s₀ s) (p k : Nat) (x : Slot) :
    Kept s₀ (State.badCell s p k x) := by
  unfold State.badCell
  extract_lets -merge -useContext +onlyGivenNames a1
  have h2 : Kept s₀ a1 := by
    unfold a1
    apply State.inc_kept
    exact h
  clear_value a1
  split
  · rename_i a3 a4 a5 a6 e7 e8
    extract_lets -merge -useContext +onlyGivenNames a9
    apply State.emit_kept
    refine KeptP.fst ?_
    unfold a9
    apply State.onWire_kept
    exact h2
  · rename_i a10 a11 e12
    apply State.raise_kept
    exact h2

theorem execCellArrival_kept {s₀ s : State} (h : Kept s₀ s) (port sub : Fin 4) (slot : Slot) :
    KeptR s₀ (execCellArrival port sub slot s) := by
  unfold execCellArrival
  refine KeptR.ite_ ?_ ?_
  · exact KeptR.fault _ _
  · refine KeptR.ite_ ?_ ?_
    · refine KeptR.next ?_
      exact h
    · extract_lets -merge -useContext +onlyGivenNames a1
      clear_value a1
      extract_lets -merge -useContext +onlyGivenNames a2
      clear_value a2
      extract_lets -merge -useContext +onlyGivenNames a3
      clear_value a3
      refine KeptR.ite_ ?_ ?_
      · refine KeptR.ite_ ?_ ?_
        · refine KeptR.next ?_
          apply State.badCell_kept
          exact h
        · refine KeptR.ite_ ?_ ?_
          · refine KeptR.next ?_
            apply State.goodCell_kept
            exact h
          · refine KeptR.next ?_
            apply State.raise_kept
            apply State.inc_kept
            exact h
      · extract_lets -merge -useContext +onlyGivenNames a4
        clear_value a4
        refine KeptR.ite_ ?_ ?_
        · refine KeptR.next ?_
          apply State.goodCell_kept
          exact h
        · refine KeptR.ite_ ?_ ?_
          · refine KeptR.next ?_
            apply State.inc_kept
            exact h
          · refine KeptR.next ?_
            apply State.badCell_kept
            exact h

theorem State.countAdmitted_kept {s₀ s : State} (h : Kept s₀ s) (ten : Nat) (c : Cell) (stays : Bool) :
    Kept s₀ (State.countAdmitted s ten c stays) := by
  unfold State.countAdmitted
  refine Kept.ite_ ?_ ?_
  · extract_lets -merge -useContext +onlyGivenNames a1
    have h2 : Kept s₀ a1 := by
      unfold a1
      apply State.addSat_kept
      exact h
    clear_value a1
    refine Kept.ite_ ?_ ?_
    · apply State.addSat_kept
      exact h2
    · exact h2
  · apply Kept.mk_
    exact h

theorem State.enter_kept {s₀ s : State} (h : Kept s₀ s) (cp o ten : Nat) (c : Cell) :
    Kept s₀ (State.enter s cp o ten c) := by
  unfold State.enter
  apply State.toOutput_kept
  apply State.countAdmitted_kept
  exact h

theorem State.place_kept {s₀ s : State} (h : Kept s₀ s) (cp ten : Nat) (c : Cell) :
    Kept s₀ (State.place s cp ten c) := by
  unfold State.place
  extract_lets -merge -useContext +onlyGivenNames a1
  clear_value a1
  refine Kept.ite_ ?_ ?_
  · apply State.sendFor_kept
    apply State.refuse_kept
    apply State.countAdmitted_kept
    exact h
  · refine Kept.ite_ ?_ ?_
    · apply State.enter_kept
      exact h
    · extract_lets -merge -useContext +onlyGivenNames a2
      clear_value a2
      extract_lets -merge -useContext +onlyGivenNames a3
      split
      · rename_i a4 a5 e6
        extract_lets -merge -useContext +onlyGivenNames a7
        have h8 : Kept s₀ a7 := by
          unfold a7
          apply State.wrapDrop_kept
          apply State.countAdmitted_kept
          refine KeptP.fst ?_
          unfold a3
          apply State.originate_kept
          exact h
        clear_value a7
        refine Kept.ite_ ?_ ?_
        · apply State.queueCell_kept
          exact h8
        · exact h8
      · rename_i a9 a10 a11 e12
        extract_lets -merge -useContext +onlyGivenNames a13
        have h14 : Kept s₀ a13 := by
          unfold a13
          apply State.enter_kept
          refine KeptP.fst ?_
          unfold a3
          apply State.originate_kept
          exact h
        clear_value a13
        refine Kept.ite_ ?_ ?_
        · apply State.queueCell_kept
          exact h14
        · exact h14

theorem State.letIn_kept {s₀ s : State} (h : Kept s₀ s) (cp ten : Nat) (c : Cell) :
    Kept s₀ (State.letIn s cp ten c) := by
  unfold State.letIn
  refine Kept.ite_ ?_ ?_
  · apply State.emitLink_kept
    apply State.countAdmitted_kept
    exact h
  · apply State.place_kept
    exact h

theorem execCellAdmission_kept {s₀ s : State} (h : Kept s₀ s) (cp : Fin 32) (cell : Cell) :
    KeptR s₀ (execCellAdmission cp cell s) := by
  unfold execCellAdmission
  refine KeptR.ite_ ?_ ?_
  · exact KeptR.fault _ _
  · extract_lets -merge -useContext +onlyGivenNames a1
    clear_value a1
    extract_lets -merge -useContext +onlyGivenNames a2
    clear_value a2
    extract_lets -merge -useContext +onlyGivenNames a3
    clear_value a3
    extract_lets -merge -useContext +onlyGivenNames a4
    clear_value a4
    extract_lets -merge -useContext +onlyGivenNames a5
    clear_value a5
    extract_lets -merge -useContext +onlyGivenNames a6
    clear_value a6
    extract_lets -merge -useContext +onlyGivenNames a7
    refine KeptR.ite_ ?_ ?_
    · refine KeptR.next ?_
      apply State.dropHeader_kept
      unfold a7
      apply Kept.mk_
      exact h
    · extract_lets -merge -useContext +onlyGivenNames a8
      clear_value a8
      extract_lets -merge -useContext +onlyGivenNames a9
      clear_value a9
      refine KeptR.ite_ ?_ ?_
      · refine KeptR.next ?_
        refine Kept.ite_ ?_ ?_
        · exact h
        · unfold a7
          apply Kept.mk_
          exact h
      · refine KeptR.next ?_
        apply State.letIn_kept
        unfold a7
        apply Kept.mk_
        exact h

theorem execForwardSend_kept {s₀ s : State} (h : Kept s₀ s) : KeptR s₀ (execForwardSend s) := by
  unfold execForwardSend
  split
  · exact KeptR.next h
  · rename_i m rest e
    have ht : Kept s₀ { s with flt := { s.flt with fwdQ := rest } } := by
      refine h.same rfl rfl fun w => ⟨w.mem, w.regs, w.doors, w.wheel, w.causes, ?_, w.remote⟩
      have := w.fwd
      rw [e] at this
      exact Nat.le_trans (Nat.le_succ _) this
    exact KeptR.ite_ (KeptR.next (State.inc_kept ht _))
      (KeptR.ite_ (KeptR.next (State.place_kept ht _ _ _)) (KeptR.next h))

theorem State.sendOut_kept {s₀ s : State} (h : Kept s₀ s) (o i : Nat) (q : QCell) (ue : Bool) :
    Kept s₀ (State.sendOut s o i q ue) := by
  unfold State.sendOut
  refine Kept.ite_ ?_ ?_
  · apply State.raise_kept
    apply State.inc_kept
    exact h
  · refine Kept.ite_ ?_ ?_
    · apply State.sendRing_kept
      exact h
    · apply State.deliverCell_kept
      exact h

theorem State.serveOutput_kept {s₀ s : State} (h : Kept s₀ s) (o : Nat) (ue : Bool) :
    Kept s₀ (State.serveOutput s o ue) := by
  unfold State.serveOutput
  refine Kept.ite_ ?_ ?_
  · exact h
  · split
    · rename_i a1 e2
      exact h
    · rename_i a3 x4 a5 a6 e7
      refine Kept.cut (s := s₀) (KeptQ.of ?_ e7) fun h8 => ?_
      · apply State.readOut_kept
        exact h
      apply State.sendOut_kept
      exact h8

theorem execCellTime_kept {s₀ s : State} (h : Kept s₀ s) (ue : BitVec 32) (ce : BitVec 16) :
    KeptR s₀ (execCellTime ue ce s) := by
  unfold execCellTime
  extract_lets -merge -useContext +onlyGivenNames a1
  clear_value a1
  extract_lets -merge -useContext +onlyGivenNames a2
  clear_value a2
  extract_lets -merge -useContext +onlyGivenNames a3
  have h4 : Kept s₀ a3 := by
    unfold a3
    refine State.each_kept _ _ ?_ ?_
    · exact h
    · intro a5 x6 h7
      refine Kept.ite_ ?_ ?_
      · exact h7
      · apply State.serveOutput_kept
        exact h7
  clear_value a3
  extract_lets -merge -useContext +onlyGivenNames a8
  clear_value a8
  extract_lets -merge -useContext +onlyGivenNames a9
  clear_value a9
  extract_lets -merge -useContext +onlyGivenNames a10
  extract_lets -merge -useContext +onlyGivenNames a11
  have h12 : Kept s₀ a11 := by
    unfold a11
    refine Kept.foldl _ _ ?_ ?_
    · refine KeptP.fst ?_
      unfold a10
      apply State.matching_kept
      exact h4
    · intro x13 a14 h15
      apply State.moveIn_kept
      exact h15
  clear_value a11
  extract_lets -merge -useContext +onlyGivenNames a16
  have h17 : Kept s₀ a16 := by
    unfold a16
    refine State.each_kept _ _ ?_ ?_
    · exact h12
    · intro a18 x19 h20
      refine Kept.ite_ ?_ ?_
      · apply State.bankError_kept
        exact h20
      · exact h20
  clear_value a16
  extract_lets -merge -useContext +onlyGivenNames a21
  clear_value a21
  extract_lets -merge -useContext +onlyGivenNames a22
  have h23 : Kept s₀ a22 := by
    unfold a22
    apply Kept.mk_
    exact h17
  clear_value a22
  refine KeptR.next ?_
  apply State.advance_kept
  apply State.deliverAll_kept
  apply State.rehome_kept
  exact h23

end Sys2Proof.Machine
end

