-- ==== Sys2Proof/Laws/KeptLaneProfile.lean ====
section
/-! SUPPORT. What the operations of `Machine/LaneProfile.lean` keep: the queue, the direction of the clock, sound
stores. -/

namespace Sys2Proof.Machine

theorem State.laneWaits_kept {s₀ s : State} (h : Kept s₀ s) (k : Nat) (w : Wait) :
    Kept s₀ (State.laneWaits s k w) := by
  unfold State.laneWaits
  apply State.set_kept
  apply State.setEngine_kept
  exact h

theorem State.laneResumes_kept {s₀ s : State} (h : Kept s₀ s) (k : Fin 8) :
    Kept s₀ (State.laneResumes s k) := by
  unfold State.laneResumes
  extract_lets -merge -useContext +onlyGivenNames a1
  clear_value a1
  extract_lets -merge -useContext +onlyGivenNames a2
  have h3 : Kept s₀ a2 := by
    unfold a2
    apply State.setEngine_kept
    exact h
  clear_value a2
  apply State.finishNext_kept
  apply State.set_kept
  exact h3

theorem State.laneRefuses_kept {s₀ s : State} (h : Kept s₀ s) (k : Fin 8) (i clocks : Nat) :
    Kept s₀ (State.laneRefuses s k i clocks) := by
  unfold State.laneRefuses
  apply State.finishNext_kept
  apply State.raise_kept
  apply State.flags_kept
  exact h

theorem State.lowerLanes_kept {s₀ s : State} (h : Kept s₀ s) (k : Fin 8) (ops : List Nat) (hi n : Nat)
    (run : Fin 8 → State → State) (hr : ∀ j x, Kept s₀ x → Kept s₀ (run j x)) :
    Kept s₀ (State.lowerLanes s k ops hi n run) := by
  unfold State.lowerLanes
  generalize List.finRange 8 = ks
  induction ks generalizing s with
  | nil => exact h
  | cons j ks ih => exact ih (Kept.ite_ (hr _ _ h) h)

theorem laneChannelAfter_kept {s₀ s : State} (h : Kept s₀ s) (lower : State → Nat → State)
    (hl : ∀ x n, Kept s₀ x → Kept s₀ (lower x n)) (k : Fin 8) (op : Nat)
    (ok : State → Nat → Nat → Entry → Bool) (body : State → Nat → Nat → Entry → State)
    (hb : ∀ x w ch c, Kept s₀ x → Kept s₀ (body x w ch c)) : Kept s₀ (laneChannelAfter lower k op ok body s) := by
  refine runInsn_kept h _ _ _ fun x w hx => ?_
  extract_lets ch z e
  have hz : Kept s₀ z := hl _ _ hx
  clear_value z
  refine Kept.ite_ (State.laneRefuses_kept hz _ _ _) ?_
  split
  · exact hz
  · rename_i y c e1
    have hy : Kept s₀ y := KeptQ.of (State.lookup_kept hz ch) e1
    exact Kept.ite_ (hb _ _ _ _ hy) (State.laneRefuses_kept hy _ _ _)

theorem State.ldwGets_kept {s₀ s : State} (h : Kept s₀ s) (k : Fin 8) (ch : Nat) (c : Entry) (i rd : Nat) (v : Word) :
    Kept s₀ (State.ldwGets s k ch c i rd v) := by
  unfold State.ldwGets
  apply State.setReg_kept
  apply State.objectRead_kept
  exact h

theorem State.ldw_kept {s₀ s : State} (h : Kept s₀ s) (k : Fin 8) (ue : Bool) (w ch : Nat) (c : Entry) :
    Kept s₀ (State.ldw k ue s w ch c) := by
  unfold State.ldw
  extract_lets -merge -useContext +onlyGivenNames a1
  clear_value a1
  extract_lets -merge -useContext +onlyGivenNames a2
  clear_value a2
  split
  · rename_i a3 x4 e5
    refine Kept.cut (s := s₀) (KeptP.of ?_ e5) fun h6 => ?_
    · apply State.readChan_kept
      exact h
    apply State.finishNext_kept
    apply State.flags_kept
    exact h6
  · rename_i a7 x8 a9 e10
    refine Kept.cut (s := s₀) (KeptP.of ?_ e10) fun h11 => ?_
    · apply State.readChan_kept
      exact h
    apply State.finishNext_kept
    apply State.flags_kept
    apply State.ldwGets_kept
    exact h11
  · rename_i a12 x13 a14 e15
    refine Kept.cut (s := s₀) (KeptP.of ?_ e15) fun h16 => ?_
    · apply State.readChan_kept
      exact h
    apply State.laneWaits_kept
    exact h16

theorem State.stw_kept {s₀ s : State} (h : Kept s₀ s) (k : Fin 8) (w ch : Nat) (c : Entry) :
    Kept s₀ (State.stw k s w ch c) := by
  unfold State.stw
  extract_lets -merge -useContext +onlyGivenNames a1
  clear_value a1
  extract_lets -merge -useContext +onlyGivenNames a2
  clear_value a2
  extract_lets -merge -useContext +onlyGivenNames a3
  have h4 : Kept s₀ a3 := by
    unfold a3
    apply State.putChan_kept
    exact h
  clear_value a3
  apply State.finishNext_kept
  apply State.flags_kept
  exact h4

theorem State.movc_kept {s₀ s : State} (h : Kept s₀ s) (k : Fin 8) (ch : Nat) (c : Entry) :
    Kept s₀ (State.movc k s ch c) := by
  unfold State.movc
  extract_lets -merge -useContext +onlyGivenNames a1
  clear_value a1
  extract_lets -merge -useContext +onlyGivenNames a2
  clear_value a2
  extract_lets -merge -useContext +onlyGivenNames a3
  clear_value a3
  extract_lets -merge -useContext +onlyGivenNames a4
  split
  · rename_i a5 e6
    apply State.laneWaits_kept
    refine KeptP.fst ?_
    unfold a4
    apply State.beginMove_kept
    exact h
  · rename_i a7 e8
    apply State.finishNext_kept
    apply State.flags_kept
    refine KeptP.fst ?_
    unfold a4
    apply State.beginMove_kept
    exact h
  · rename_i a9 e10
    apply State.finishNext_kept
    apply State.flags_kept
    refine KeptP.fst ?_
    unfold a4
    apply State.beginMove_kept
    exact h

theorem State.laneVote_kept {s₀ s : State} (h : Kept s₀ s) (k : Fin 8) (ch : Nat) (c : Entry) :
    Kept s₀ (State.laneVote k s ch c) := by
  unfold State.laneVote
  apply State.finishNext_kept
  apply State.flags_kept
  apply State.vote_kept
  exact h

theorem laneWordInsn_kept {s₀ s : State} (h : Kept s₀ s) (j : Fin 8) : Kept s₀ (laneWordInsn j s) := by
  unfold laneWordInsn
  dsimp only
  split
  · exact laneChannelAfter_kept h _ (fun _ _ hx => hx) _ _ _ _ fun _ _ _ _ hx => State.ldw_kept hx _ _ _ _ _
  · exact laneChannelAfter_kept h _ (fun _ _ hx => hx) _ _ _ _ fun _ _ _ _ hx => State.stw_kept hx _ _ _ _
  · exact laneChannelAfter_kept h _ (fun _ _ hx => hx) _ _ _ _ fun _ _ _ _ hx => State.movc_kept hx _ _ _
  · exact Kept.ite_ h (laneChannelAfter_kept h _ (fun _ _ hx => hx) _ _ _ _ fun _ _ _ _ hx =>
      State.laneVote_kept hx _ _ _)
  · exact h

theorem State.lowerWords_kept {s₀ s : State} (h : Kept s₀ s) (k : Fin 8) (ch : Nat) :
    Kept s₀ (State.lowerWords s k ch) := by
  unfold State.lowerWords
  exact State.lowerLanes_kept h _ _ _ _ _ fun j _ hx => laneWordInsn_kept hx j

theorem laneChannel_kept {s₀ s : State} (h : Kept s₀ s) (k : Fin 8) (op : Nat)
    (ok : State → Nat → Nat → Entry → Bool) (body : State → Nat → Nat → Entry → State)
    (hb : ∀ x w ch c, Kept s₀ x → Kept s₀ (body x w ch c)) : Kept s₀ (laneChannel k op ok body s) :=
  laneChannelAfter_kept h _ (fun _ _ hx => State.lowerWords_kept hx _ _) _ _ _ _ hb

theorem execLdw_kept {s₀ s : State} (h : Kept s₀ s) (k : Fin 8) (ue : Bool) :
    KeptR s₀ (execLdw k ue s) := by
  unfold execLdw
  refine KeptR.next ?_
  apply laneChannel_kept
  · exact h
  · intro x1 a2 a3 a4 h5
    apply State.ldw_kept
    exact h5

theorem execStw_kept {s₀ s : State} (h : Kept s₀ s) (k : Fin 8) :
    KeptR s₀ (execStw k s) := by
  unfold execStw
  refine KeptR.next ?_
  apply laneChannel_kept
  · exact h
  · intro x1 a2 a3 a4 h5
    apply State.stw_kept
    exact h5

theorem execMovc_kept {s₀ s : State} (h : Kept s₀ s) (k : Fin 8) :
    KeptR s₀ (execMovc k s) := by
  unfold execMovc
  refine KeptR.next ?_
  apply laneChannel_kept
  · exact h
  · intro x1 a2 a3 a4 h5
    apply State.movc_kept
    exact h5

theorem State.laneSees_kept {s₀ s : State} (h : Kept s₀ s) (k : Fin 8) (id : Nat) :
    Kept s₀ (State.laneSees s k id) := by
  unfold State.laneSees
  split
  · rename_i a1 e2
    apply State.laneResumes_kept
    apply State.flags_kept
    exact h
  · rename_i a3 a4 e5
    refine Kept.ite_ ?_ ?_
    · exact h
    · refine Kept.ite_ ?_ ?_
      · apply State.laneResumes_kept
        apply State.flags_kept
        apply State.retireOp_kept
        exact h
      · split
        · rename_i a6 a7 a8 e9
          extract_lets -merge -useContext +onlyGivenNames a10
          have h11 : Kept s₀ a10 := by
            unfold a10
            apply State.retireOp_kept
            apply State.ldwGets_kept
            exact h
          clear_value a10
          apply State.laneResumes_kept
          apply State.flags_kept
          exact h11
        · rename_i a12 e13
          apply State.laneResumes_kept
          apply State.flags_kept
          apply State.retireOp_kept
          apply State.moveBeat_kept
          exact h

theorem execMovcComplete_kept {s₀ s : State} (h : Kept s₀ s) (k : Fin 8) :
    KeptR s₀ (execMovcComplete k s) := by
  unfold execMovcComplete
  split
  · rename_i a1 a2 e3
    refine KeptR.next ?_
    apply State.laneSees_kept
    exact h
  · rename_i a4 e5
    refine KeptR.next ?_
    exact h

theorem laneEntryAfter_kept {s₀ s : State} (h : Kept s₀ s) (lower : State → Nat → State)
    (hl : ∀ x n, Kept s₀ x → Kept s₀ (lower x n)) (k : Fin 8) (op : Nat) (ue : Bool) (ok : Eph → Bool)
    (body : State → Nat → State × Bool) (hb : ∀ x i, Kept s₀ x → KeptP s₀ (body x i)) :
    Kept s₀ (laneEntryAfter lower k op ue ok body s) := by
  refine runInsn_kept h _ _ _ fun x w hx => ?_
  extract_lets i y t
  have hy : Kept s₀ y := hl _ _ (State.touchEntry_kept (State.dispatchDueOf_kept hx _ _) _ _)
  clear_value y
  refine Kept.ite_ (State.laneRefuses_kept hy _ _ _) ?_
  exact State.finishNext_kept (State.flags_kept (hb y i hy) _ _) _ _

theorem State.fireEntry_kept {s₀ s : State} (h : Kept s₀ s) (i : Nat) :
    KeptP s₀ (State.fireEntry s i) := by
  unfold State.fireEntry
  refine KeptP.ite_ ?_ ?_
  · refine KeptP.mk ?_
    apply State.dispatch_kept
    exact h
  · refine KeptP.mk ?_
    exact h

theorem State.armEntry_kept {s₀ s : State} (h : Kept s₀ s) (i : Nat) :
    KeptP s₀ (State.armEntry s i) := by
  unfold State.armEntry
  extract_lets -merge -useContext +onlyGivenNames a1
  clear_value a1
  refine KeptP.ite_ ?_ ?_
  · refine KeptP.mk ?_
    exact h
  · refine KeptP.ite_ ?_ ?_
    · refine KeptP.mk ?_
      apply State.raise_kept
      exact h
    · refine KeptP.mk ?_
      apply State.armNext_kept
      apply State.entryState_kept
      exact h

theorem State.disarmEntry_kept {s₀ s : State} (h : Kept s₀ s) (i : Nat) :
    KeptP s₀ (State.disarmEntry s i) := by
  unfold State.disarmEntry
  refine KeptP.mk ?_
  apply State.entryState_kept
  apply State.withdraw_kept
  exact h

theorem laneEntryInsn_kept {s₀ s : State} (h : Kept s₀ s) (j : Fin 8) : Kept s₀ (laneEntryInsn j s) := by
  unfold laneEntryInsn
  dsimp only
  split
  · exact laneEntryAfter_kept h _ (fun _ _ hx => hx) _ _ _ _ _ fun _ _ hx => State.fireEntry_kept hx _
  · exact laneEntryAfter_kept h _ (fun _ _ hx => hx) _ _ _ _ _ fun _ _ hx => State.armEntry_kept hx _
  · exact laneEntryAfter_kept h _ (fun _ _ hx => hx) _ _ _ _ _ fun _ _ hx => State.disarmEntry_kept hx _
  · exact h

theorem State.lowerEntries_kept {s₀ s : State} (h : Kept s₀ s) (k : Fin 8) (i : Nat) :
    Kept s₀ (State.lowerEntries s k i) := by
  unfold State.lowerEntries
  exact State.lowerLanes_kept h _ _ _ _ _ fun j _ hx => laneEntryInsn_kept hx j

theorem laneEntry_kept {s₀ s : State} (h : Kept s₀ s) (k : Fin 8) (op : Nat) (ue : Bool) (ok : Eph → Bool)
    (body : State → Nat → State × Bool) (hb : ∀ x i, Kept s₀ x → KeptP s₀ (body x i)) :
    Kept s₀ (laneEntry k op ue ok body s) :=
  laneEntryAfter_kept h _ (fun _ _ hx => State.lowerEntries_kept hx _ _) _ _ _ _ _ hb

theorem execFire_kept {s₀ s : State} (h : Kept s₀ s) (k : Fin 8) (ue : Bool) :
    KeptR s₀ (execFire k ue s) := by
  unfold execFire
  refine KeptR.next ?_
  apply laneEntry_kept
  · exact h
  · intro x1 a2 h3
    apply State.fireEntry_kept
    exact h3

theorem execArm_kept {s₀ s : State} (h : Kept s₀ s) (k : Fin 8) (ue : Bool) :
    KeptR s₀ (execArm k ue s) := by
  unfold execArm
  refine KeptR.next ?_
  apply laneEntry_kept
  · exact h
  · intro x1 a2 h3
    apply State.armEntry_kept
    exact h3

theorem execDisarm_kept {s₀ s : State} (h : Kept s₀ s) (k : Fin 8) (ue : Bool) :
    KeptR s₀ (execDisarm k ue s) := by
  unfold execDisarm
  refine KeptR.next ?_
  apply laneEntry_kept
  · exact h
  · intro x1 a2 h3
    apply State.disarmEntry_kept
    exact h3

theorem State.waitResult_kept {s₀ s : State} (h : Kept s₀ s) (k : Fin 8) (rd val : Nat) :
    Kept s₀ (State.waitResult s k rd val) := by
  unfold State.waitResult
  apply State.flags_kept
  apply State.setReg_kept
  exact h

theorem execWaitPhase_kept {s₀ s : State} (h : Kept s₀ s) (k : Fin 8) :
    KeptR s₀ (execWaitPhase k s) := by
  unfold execWaitPhase
  refine KeptR.next ?_
  apply runInsn_kept
  · exact h
  · intro x1 a2 h3
    extract_lets -merge -useContext +onlyGivenNames a4
    clear_value a4
    extract_lets -merge -useContext +onlyGivenNames a5
    clear_value a5
    extract_lets -merge -useContext +onlyGivenNames a6
    clear_value a6
    extract_lets -merge -useContext +onlyGivenNames a7
    clear_value a7
    split
    · rename_i a8 e9
      apply State.finishNext_kept
      apply State.waitResult_kept
      exact h3
    · rename_i a10 a11 e12
      refine Kept.ite_ ?_ ?_
      · apply State.finishNext_kept
        apply State.waitResult_kept
        exact h3
      · apply State.laneWaits_kept
        exact h3

theorem execPhaseWaitEnd_kept {s₀ s : State} (h : Kept s₀ s) (k : Fin 8) :
    KeptR s₀ (execPhaseWaitEnd k s) := by
  unfold execPhaseWaitEnd
  split
  · rename_i a1 a2 a3 e4
    refine KeptR.next ?_
    apply State.laneResumes_kept
    apply State.waitResult_kept
    exact h
  · rename_i a5 a6 a7 a8 a9 e10
    split
    · rename_i a11 e12
      refine KeptR.next ?_
      exact h
    · rename_i a13 a14 e15
      refine KeptR.ite_ ?_ ?_
      · refine KeptR.next ?_
        apply State.laneResumes_kept
        apply State.waitResult_kept
        exact h
      · split
        · rename_i a16 a17 e18
          refine KeptR.next ?_
          apply State.laneResumes_kept
          apply State.waitResult_kept
          apply State.advance_kept
          exact h
        · rename_i a19 e20
          refine KeptR.next ?_
          exact h
  · rename_i a21 e22 e23
    refine KeptR.next ?_
    exact h

theorem execWaitTime_kept {s₀ s : State} (h : Kept s₀ s) (k : Fin 8) :
    KeptR s₀ (execWaitTime k s) := by
  unfold execWaitTime
  refine KeptR.next ?_
  apply runInsn_kept
  · exact h
  · intro x1 a2 h3
    extract_lets -merge -useContext +onlyGivenNames a4
    clear_value a4
    refine Kept.ite_ ?_ ?_
    · apply State.finishNext_kept
      apply State.waitResult_kept
      exact h3
    · apply State.laneWaits_kept
      exact h3

theorem execTimeWaitEnd_kept {s₀ s : State} (h : Kept s₀ s) (k : Fin 8) :
    KeptR s₀ (execTimeWaitEnd k s) := by
  unfold execTimeWaitEnd
  split
  · rename_i a1 a2 a3 e4
    refine KeptR.next ?_
    apply State.laneResumes_kept
    apply State.waitResult_kept
    apply State.waitTicks_kept
    exact h
  · rename_i a5 e6
    refine KeptR.next ?_
    exact h

theorem execVote_kept {s₀ s : State} (h : Kept s₀ s) (k : Fin 8) :
    KeptR s₀ (execVote k s) := by
  unfold execVote
  refine KeptR.ite_ ?_ ?_
  · refine KeptR.next ?_
    exact h
  · refine KeptR.next ?_
    apply laneChannel_kept
    · exact h
    · intro x1 a2 a3 a4 h5
      apply State.laneVote_kept
      exact h5

theorem execTariff_kept {s₀ s : State} (h : Kept s₀ s) (k : Fin 8) :
    KeptR s₀ (execTariff k s) := by
  unfold execTariff
  refine KeptR.ite_ ?_ ?_
  · refine KeptR.next ?_
    exact h
  · refine KeptR.next ?_
    apply runInsn_kept
    · exact h
    · intro x1 a2 h3
      extract_lets -merge -useContext +onlyGivenNames a4
      clear_value a4
      extract_lets -merge -useContext +onlyGivenNames a5
      clear_value a5
      extract_lets -merge -useContext +onlyGivenNames a6
      have h7 : Kept s₀ a6 := by
        unfold a6
        refine Kept.ite_ ?_ ?_
        · apply State.requestTariff_kept
          exact h3
        · apply State.raise_kept
          exact h3
      clear_value a6
      apply State.finishNext_kept
      exact h7

theorem execSignal_kept {s₀ s : State} (h : Kept s₀ s) (k : Fin 8) :
    KeptR s₀ (execSignal k s) := by
  unfold execSignal
  refine KeptR.next ?_
  apply runInsn_kept
  · exact h
  · intro x1 a2 h3
    extract_lets -merge -useContext +onlyGivenNames a4
    clear_value a4
    refine Kept.ite_ ?_ ?_
    · apply State.stopLane_kept
      exact h3
    · apply State.finishNext_kept
      apply State.raise_kept
      exact h3

theorem execRdt_kept {s₀ s : State} (h : Kept s₀ s) (k : Fin 8) :
    KeptR s₀ (execRdt k s) := by
  unfold execRdt
  refine KeptR.next ?_
  apply runInsn_kept
  · exact h
  · intro x1 a2 h3
    apply State.finishNext_kept
    apply State.setReg_kept
    exact h3

theorem execRdph_kept {s₀ s : State} (h : Kept s₀ s) (k : Fin 8) :
    KeptR s₀ (execRdph k s) := by
  unfold execRdph
  refine KeptR.next ?_
  apply runInsn_kept
  · exact h
  · intro x1 a2 h3
    extract_lets -merge -useContext +onlyGivenNames a4
    clear_value a4
    apply State.finishNext_kept
    apply State.flags_kept
    apply State.setReg_kept
    exact h3

end Sys2Proof.Machine
end

