-- ==== Sys2Proof/Laws/KeptPort.lean ====
section
/-! SUPPORT. What the operations of `Machine/Port.lean` keep: the queue, the direction of the clock, sound
stores. -/

namespace Sys2Proof.Machine

theorem State.endOp_kept {s₀ s : State} (h : Kept s₀ s) (id : Nat) :
    Kept s₀ (State.endOp s id) := by
  unfold State.endOp
  refine Kept.mkTbl ?_ ?_ ?_ ?_
  · exact h
  · rfl
  · rfl
  · rfl

theorem State.deliverOp_kept {s₀ s : State} (h : Kept s₀ s) (o : Op) :
    Kept s₀ (State.deliverOp s o) := by
  unfold State.deliverOp
  split
  · rename_i a1 a2 a3 a4 e5
    apply State.respond_kept
    apply State.endOp_kept
    exact h
  · rename_i a6 a7 a8 e9
    refine Kept.ite_ ?_ ?_
    · apply State.laneSees_kept
      exact h
    · apply State.endOp_kept
      exact h
  · rename_i a10 a11 e12
    apply State.timeDiscrete_kept
    apply State.endOp_kept
    exact h
  · rename_i a13 a14 e15
    apply State.voteCopies_kept
    apply State.endOp_kept
    exact h
  · rename_i a16 e17
    extract_lets -merge -useContext +onlyGivenNames a18
    have h19 : Kept s₀ a18 := by
      unfold a18
      apply State.endOp_kept
      exact h
    clear_value a18
    refine Kept.ite_ ?_ ?_
    · apply Kept.mk_
      exact h19
    · exact h19
  · rename_i a20 e21
    apply State.autoClosed_kept
    exact h
  · rename_i a22 e23 e24 e25 e26 e27 e28
    exact h

theorem State.deliverOps_kept {s₀ s : State} (h : Kept s₀ s) :
    Kept s₀ (State.deliverOps s) := by
  unfold State.deliverOps
  refine Kept.foldl _ _ ?_ ?_
  · exact h
  · intro x1 a2 h3
    apply State.deliverOp_kept
    exact h3

theorem State.retry_kept {s₀ s : State} (h : Kept s₀ s) (x : Blocked) :
    Kept s₀ (State.retry s x) := by
  unfold State.retry
  split
  · rename_i a1 a2 a3 a4 a5 a6 a7
    apply State.accessWrite_kept
    exact h
  · rename_i a8 a9 a10 a11 a12 a13 a14 a15 a16 a17
    apply State.accessRead_kept
    exact h
  · rename_i a18 a19 a20 a21
    apply State.frameToObject_kept
    exact h
  · rename_i a22 a23 a24 a25 a26 a27 a28
    apply State.resultAt_kept
    exact h
  · rename_i a29 a30
    apply State.mirrorArrive_kept
    exact h
  · rename_i a31 a32
    apply State.takeTunnel_kept
    exact h

theorem State.retryBlocked_kept {s₀ s : State} (h : Kept s₀ s) :
    Kept s₀ (State.retryBlocked s) := by
  unfold State.retryBlocked
  refine Kept.foldl _ _ ?_ ?_
  · refine Kept.mkTbl ?_ ?_ ?_ ?_
    · exact h
    · rfl
    · rfl
    · rfl
  · intro x1 a2 h3
    apply State.retry_kept
    exact h3

theorem State.goOn_kept {s₀ s : State} (h : Kept s₀ s) :
    Kept s₀ (State.goOn s) := by
  unfold State.goOn
  apply State.retryBlocked_kept
  apply State.reapOps_kept
  apply State.pumpAll_kept
  apply State.deliverOps_kept
  exact h

theorem execArbitrationRound_kept {s₀ s : State} (h : Kept s₀ s) :
    KeptR s₀ (execArbitrationRound s) := by
  unfold execArbitrationRound
  refine KeptR.next ?_
  apply State.goOn_kept
  apply State.arbitrate_kept
  exact h

theorem execReadBurstArrival_kept {s₀ s : State} (h : Kept s₀ s) (ue : Bool) (ce : BitVec 16) :
    KeptR s₀ (execReadBurstArrival ue ce s) := by
  unfold execReadBurstArrival
  extract_lets -merge -useContext +onlyGivenNames a1
  have h2 : Kept s₀ a1 := by
    unfold a1
    refine Kept.ite_ ?_ ?_
    · apply State.ddrErrors_kept
      exact h
    · exact h
  clear_value a1
  refine KeptR.next ?_
  apply State.goOn_kept
  apply State.readArrives_kept
  exact h2

theorem execWriteBurstCommit_kept {s₀ s : State} (h : Kept s₀ s) (n : Fin 8) :
    KeptR s₀ (execWriteBurstCommit n s) := by
  unfold execWriteBurstCommit
  refine KeptR.next ?_
  apply State.goOn_kept
  apply State.commitBurst_kept
  exact h

end Sys2Proof.Machine
end

