-- ==== Sys2Proof/Tests/Slice0.lean ====
section
/-! SUPPORT. Tests: ill-formed terms that the checks refuse, values that the spec works out, one small
step each, and for every statement with hypotheses a state and operands that meet them. -/

set_option maxRecDepth 100000
set_option Elab.async false
set_option linter.unusedVariables false

namespace Sys2Proof.Tests
open Sys2Proof Sys2Proof.Machine

/-! ### States for the tests -/

/-- A state after reset with some register fields written. -/
def st (fs : List (Field × Nat)) : State := fs.foldl (fun s f => s.set f.1 f.2) State.reset

/-- The state after reset. -/
abbrev s0 : State := State.reset

/-- A cell of kind `k` and class `cls` to node `n`. -/
def cellOf (k : BitVec 3) (cls : BitVec 2) (n : Nat) (ws : List Word) : Cell :=
  { node := BitVec.ofNat 16 n, f1 := 0, f2 := 0, kind := k, cls := cls, wrap := 0, ten := 0, nm1 := 19, words := pad20 ws }

/-- The hub is node 5. -/
def n5 (s : State) : State := { s with kpNode := KpReg.of 5 }

/-- A table-port operation that reads words 0 to 15 of channel 3. -/
def op1 : Op := .mk 1 0 27 0 false 3 (Entry.empty 0) 0 16 0 0 0 [] (.move 0) false false false 0 none

/-- A state with this part of the table, the home in DDR5 and up. -/
def withTbl (t : Tbl) (fs : List (Field × Nat)) : State :=
  { st (fs ++ [(TBL_STAT.HOME_UP, 1)]) with tbl := t, kpHome := KpReg.of 1 }

/-- The doorbell of channel 3 alone in the queue, in a phase. -/
def belled (u : Bool) (p : DoorPhase) : State :=
  withTbl { Tbl.reset with doors := [.mk u 3 0 0 p] } [(TBL_ARB_STAT.ALIVE, 255), (TBL_WEIGHT.WEIGHT 5, 8)]

/-- A motion model of 2^-7 of a phase step a tick, or the other way. -/
def model1 (rate : Int) : Model := .mk 1 3 128 9 0 0 0 (2 ^ 48 - 100) rate 0 0

/-- A state in which domain 1 has this record. -/
def withDom (p : Ph) (fs : List (Field × Nat)) : State := (st fs).setDom 1 p

/-- Domain 1 tracks that model. -/
def tracking (rate : Int) : State :=
  withDom { Ph.reset with eff := some (model1 rate), x := 2 ^ 48 - 100 } [(PH_STAT.STATE 1, 2)]

/-- Words of a sample of domain 1. -/
def sample1 : List Word := pad20 [word (2 ^ 40 + 2 ^ 36 + 2 ^ 32 + 3 * 2 ^ 24 + 128 * 2 ^ 16 + 9), word (900 * 2 ^ 24), 5, 6, 7, 8, 0]

/-- A state whose ephemeris has entry 7 alone, with this content. -/
def withEph (e : Eph) (wheel : List Firing) (fs : List (Field × Nat)) : State :=
  { st fs with seq := { Seq.reset with eph := [(7, e)], owner := [(7, 1)], wheel := wheel } }

/-- A dispatched action of entry 7. -/
def act7 (e : Eph) (waiting : Bool) : Act := .mk 0 7 e 0 0 true none waiting false

/-- A state in which that action is the only one. -/
def acting (a : Act) (fs : List (Field × Nat)) : State := { st fs with seq := { Seq.reset with acts := [a] } }

/-- Lane 0 runs and stands at word `w`. -/
def laneOn (w : Nat) (e : Eng) (s : State) : State :=
  { (s.set (SEQ_LANE.STATE 0) 1).setEngine 0 e with seqStore := [(0, word w), (1, word w)] }

/-- Tenon 0 of bay 0 runs and stands at word `w`. -/
def tenOn (w : Nat) (e : Eng) (s : State) : State :=
  { (s.set (TEN_STAT.STATE 0 0) 1).setEngine 8 e with tenStore := [(0, word w), (1, word w)] }

/-- The lane and the tenon of these states. -/
abbrev l0 : Engine := .lane 0
abbrev t0 : Engine := .tenon 0 0

/-- The state as the word issues, with its side field applied. -/
def issued (g : Engine) (w : Nat) (s : State) : State := ((s.issue g).countFetch g).issueSide g w

/-- A word of an opcode. -/
def op_ (op rest : Nat) : Nat := op * 2 ^ 40 + rest

/-- A stream channel of 4 words, and one of vote group 3. -/
def stream4 : Entry := { Entry.empty 0 with valid := true, type := tSTREAM, points := 4, dataPtr := 65536, vgroup := 3 }

/-- Channel 0 is that stream, in the cache. -/
def cached : State :=
  { withTbl { Tbl.reset with lines := [.mk 0 stream4 true false none 0 false] } [] with
    red := { Red.reset with groups := [(3, .mk 1 2 3 (5 * 2 ^ 16 + 1))] } }

/-- Lane 0 stands at word `w` with channel 0 in the cache, and what its lookup leaves. -/
def lane0 (w : Nat) : State := laneOn w Eng.reset cached
def found (w : Nat) (s : State) : State := (((issued l0 w s).lookup 0).getD (s0, stream4)).1

/-- Another operation waits at the table port. -/
def busy (s : State) : State := { s with tbl := { s.tbl with ops := [op1], nextOp := 9 } }

/-- Lane 0 stands at word `w` while domain 1 tracks a phase 100 steps before a meridian. -/
def laneAt (w : Nat) : State := laneOn w Eng.reset (tracking (2 ^ 40))

/-- Lane 0, of tenant `n`, stands at word `w` and entry 0 is what is given. -/
def laneEph (w : Nat) (e : Eph) (n : Nat) : State :=
  laneOn w { Eng.reset with tenant := n } { s0 with seq := { Seq.reset with
    eph := [(0, e)], owner := if e.state = eFREE then [] else [(0, e.tenant + 1)] } }

/-- Tenon 0 of bay 0 stands at word `w`, its clock stopped or not. -/
def ten0 (w : Nat) (gen : Nat) (fs : List (Field × Nat)) : State := tenOn w { Eng.reset with genMode := gen } (st fs)

/-- Tenon 0 of bay 0 waits at word `w`, with these queues. -/
def tenWait (w : Nat) (x : Wait) (q : Queues) : State :=
  (tenOn w { Eng.reset with genMode := 1, wait := x } s0).setQueues 0 0 q

/-- An item of the input queue. -/
def item5 : Item := .mk 5 1 0 0 false false false false
/-- The same state one thousand ticks later. -/
def later (s : State) : State := { s with now := s.now + 1000 }

/-- A state in which bay 0 has this record. -/
def bay0 (r : Bay) (fs : List (Field × Nat)) : State := (st fs).setBay 0 r

/-- A substitution of tenon 0 by tenon 4. -/
def swap04 (copied : Bool) : Swap := .mk 0 0 4 true false copied 640 0

/-- An automatic stream of channel 0 at logical tenon 0, with these queues. -/
def streaming (out : Nat) (q : Queues) : State :=
  (withTbl { Tbl.reset with lines := [.mk 0 stream4 true false none 0 false] } [(BAY_STREAM.AUTO 0 0, 1), (BAY_STREAM.DIR 0 0, out), (BAY_STREAM.AUTO 1 0, 1)]).setQueues 0 0 q

/-- The read of such a burst, its 4 words there. -/
def read4 : Op := { op1 with
  cp := bayPort 0, entry := stream4, start := 0, count := 4, data := [(0, 7), (3, 9)], purpose := .auto, closed := true }
def landing : State := { streaming 0 Queues.empty with
  tbl := { (streaming 0 Queues.empty).tbl with ops := [read4] } }
def streamFound (s : State) : State := ((s.lookup 0).getD (s0, stream4)).1

/-- Chain port 0 is enabled, with this record. -/
def port0 (r : Chp) (fs : List (Field × Nat)) : State := (st (fs ++ [(CHP_STAT.STATE 0, 1), (CHP_CTL.EN 0, 1)])).setPort 0 r

/-- A frame in progress, a latch, and a head of 16 points. -/
def frame0 : ChFrame := .mk false 4 0 500 600 650 none false false true false
def latch50 : Latch := .mk 0 50 0
def head16 : Head := .mk 16 3 false 0 false 0 0 0 0 0 true true

/-- A frame as that head receives it, with this claim. -/
def seen16 (claim : Nat) : HeadFrame :=
  .mk 44 0xA5C35A3C96F0 (word (claim * 2 ^ 40 + 15)) 5 (frameCrc (word (claim * 2 ^ 40 + 15)) 5 4) 0
/-- The same port in Recovery. -/
def recovering : State := { port0 Chp.reset [] with kpMode := KpReg.of mRecovery }

/-- Controller 0 is in NORMAL, with this record. -/
def bus0 (r : Mb) (fs : List (Field × Nat)) : State := (st (fs ++ [(MB_CTL.MODE 0, 1)])).setMbus 0 r

/-- A frame of two bytes. -/
def busFrame : BusFrame := .mk false false false false false 2 5 [1, 2]

/-- Buffer 3 is on the bus. -/
def sending : MbSend := .mk (.buf 3) [1, 2] none 0 0
def onBus3 : Mb := { Mb.reset with onBus := some sending }

/-- Ring port 0 is enabled, with this record, a million basic cycles after reset. -/
def ring0 (r : RPort) (fs : List (Field × Nat)) : State :=
  { (st (fs ++ [(RINGP_CTL.EN 0, 1)])).setRport 0 r with cyc := { Cyc.reset with ncyc := 1000000 } }

/-- A hub in Run, synchronised, with one row in force that selects every cycle: a broadcast of two cells at 400. -/
def table1 : Tab Nat := [(0, 2 ^ 47 + 0xFFFF), (1, 2), (2, 400)]
def synced (c : Cyc) (fs : List (Field × Nat)) : State :=
  { st (fs ++ [(CYC_STAT.SSTATE, 4)]) with kpMode := KpReg.of 4, cyc := c }
def bcell : Cell := cellOf kBWRITE cTT 0xFFFF []
/-- Ring port 0 with sub-link 0 LOCKED at both ends. -/
def link0 : State :=
  ring0 { RPort.reset with
    lanes := [(0, { RLane.reset with acted := some 256 }), (1, { RLane.reset with acted := some 1280 })] }
    [(RINGP_LANE.STATE 0 0, 1), (RINGP_LANE.STATE 0 1, 1)]
def row0 : Row := .mk 0 false 0 0 0 0xFFFF 0 0 2 400 false

/-- The link is up, window 1 belongs to function 2 and is enabled, with this record of the bridge. -/
def host0 (b : Brg) (fs : List (Field × Nat)) : State :=
  { st (fs ++ [(BRG_STAT.LINKUP, 1), (BRG_OWINB.EN 1, 1), (BRG_OWINB.FUNC 1, 2), (BRG_OWINB.LASTW 1, 99),
      (BRG_IWINB.EN 3, 1)]) with brg := b }

/-- A request of function 2, one word outstanding, and a read of window 3 in progress. -/
def out2 : OutRead := .mk 7 2 false false 0 8 [] 1 false
def hostWin : HostRead := .mk 4 3 (.window (cellOf kREAD cBULK 0 [])) 900

/-- A tunnel channel 0 of index `k` in the cache. -/
def tun0 (k : Nat) : Entry := { Entry.empty 0 with valid := true, type := tTUNNEL, points := 20, index := k, dataPtr := 65536 }
def tunnels (k : Nat) (b : Brg) (fs : List (Field × Nat)) : State :=
  { host0 b (fs ++ [(TBL_STAT.HOME_UP, 1)]) with
    tbl := { Tbl.reset with lines := [.mk 0 (tun0 k) true false none 0 false] }, kpHome := KpReg.of 1 }
def tunFound (s : State) (ws : Option (List Word)) (n : Nat) : State := (s.decode false 0 0 0 n ws).1

/-- A tunnel cell of index `i` of a frame of `len` bytes, sequence 5, for tunnel 9. -/
def tunCell (i len : Nat) : Cell :=
  { cellOf kTUNNEL cBULK 0 [word (5 * 2 ^ 40 + len * 2 ^ 15 + 9), 1, 2, 3] with f2 := BitVec.ofNat 16 i }
def tunFrame (k : Nat) : TunFrame := .mk 9 false 0 0 1 2 ((wordBytes ((tunCell 0 0).words.drop 3)).take k)
def reasm3 : Reasm := .mk 3 5 (.mk 9 false 0 0 1 2 (List.replicate 102 0)) 300 1 40 false

/-- A MAC whose link is up in Run, with this record; a frame of 64 bytes. -/
def mac0 (x : Mac) (fs : List (Field × Nat)) : State :=
  let s := (st (fs ++ [(MAC_CTL.EN 0, 1)])).setMac 0 x
  { s with kpMode := KpReg.of 4, mgt := { s.mgt with booting := false } }
def eth64 : EthFrame := .mk (List.replicate 64 7) true true
def tx64 : TxFrame := .mk (List.replicate 60 7) 2 5

/-- A twin hub, node 5 with twin 6, in this twin state, with this record. -/
def twin (r : Red) (state : Nat) (fs : List (Field × Nat)) : State :=
  { n5 (st (fs ++ [(RED_CFG.ROLE, 1), (RED_CFG.TWIN, 6), (RED_STAT.STATE, state)])) with red := r }

/-- A mirrored stream of one word in the cache, as channel 0. -/
def mirr : Entry := { stream4 with mirror := true, points := 1 }
def mirrored (r : Red) (state : Nat) : State :=
  { twin r state [(TBL_STAT.HOME_UP, 1), (RED_MRANGE.FIRST, 0), (RED_MRANGE.LAST, 8)] with
    tbl := { Tbl.reset with lines := [.mk 0 mirr true false none 0 false] }, kpHome := KpReg.of 1 }

/-- A pass in progress, of a mirrored channel of one word. -/
def rx1 : MirrorRx := { op := 0, ch := 0, entry := mirr, next := 1, words := [], wide := false }
def rxing : Red := { Red.reset with rx := some rx1, rxRound := some 3 }

/-- Control cells: a heartbeat, the last mirror cell of a pass and a vote cell, from node 6. -/
def ctl (w0 w1 : Nat) : Cell := { cellOf kCTRL cCTL 5 [word w0, word w1, 42] with f1 := 6 }
def mirrCell : Cell := ctl (6 * 2 ^ 40 + 2 ^ 38) (3 * 2 ^ 16 + 1)
def voteCell : Cell := ctl (7 * 2 ^ 40 + 3 * 2 ^ 24) 90
def voting (slots : List VoteSlot) : State :=
  twin { Red.reset with groups := [(3, .mk 7 6 8 (5 * 2 ^ 32 + 1))], slots := slots } rdACTIVE []

/-- A copy of a king-post register with two bits flipped is not readable. -/
def spoilt : KpCopy := .mk 9 3

/-- Feed 5 is in this state. -/
def feed5 (x : Feed) (state : Nat) (fs : List (Field × Nat)) : State :=
  { st (fs ++ [(FEED_STAT.STATE 5, state)]) with feeds := [(5, x)] }
def fed : Feed := { Feed.reset with phaseAt := 100 }

/-- A retention record, and a state in which it is being written. -/
def record : Retention := .mk 1 0 0 0 [] [] 0 0 [] 0 0
def gasping : State := { s0 with sup := { Sup.reset with writing := some (60, record) } }

/-- SLIP of domain 1 is in effect and sticky. -/
def slipped : State :=
  { st [(FLT_STK.KIND Kind.SLIP.src (Kind.SLIP.kind / 48), 2 ^ (Kind.SLIP.kind % 48))] with
    flt := { Flt.reset with causes := [.mk Kind.SLIP 1] } }

/-- A report, and a message cell that carries one. -/
def report1 : Report := .mk 0 0 Kind.SLIP 1
def fwdCell : Cell := cellOf kCTRL cCTL 5 [word (8 * 2 ^ 40 + 7)]

/-- A firmware state, with this record of the management processor, in this mode. -/
def firm (m : Mgt) (mode state : Nat) : State :=
  { st [(MGT_FWSTAT.STATE, state)] with mgt := m, kpMode := KpReg.of (word mode) }

/-- Two commands wait. -/
def waiting2 : State := { s0 with pending := [.handover, .supplyOk] }

/-! ### Ill-formed terms: one per check of `Instr.wf`, each refused -/

/-- A cell whose payload is 19 words. -/
def shortCell : Cell := { cellOf kWRITE cBULK 5 [] with words := List.replicate 19 0 }

theorem refuses_empty_access : (Instr.fabricWrite 0 0 0 []).wf = false := by decide
theorem refuses_long_access : (Instr.broadcastWrite 0 0 0 0 (List.replicate 21 0)).wf = false := by decide
theorem refuses_empty_ephemeris_access : (Instr.ephemerisWrite 0 0 [] false).wf = false := by decide
theorem refuses_short_payloads : ∀ c ∈ [Instr.sampleReceived [], .keyExchangeReceived 0 [], .linkDelayReceived 0 [] 0,
    .cellArrival 0 0 (.mk 0 0 shortCell 0 false false), .cellAdmission 0 shortCell, .ttWindow 0 0 [shortCell],
    .syncCellReceived 0 0 shortCell 0, .respArrival shortCell, .inboundAccess shortCell, .tunnelCellArrival shortCell,
    .heartbeatReceived shortCell, .mirrorCellReceived shortCell, .voteCellReceived shortCell,
    .forwardedMessageReceived shortCell], c.wf = false := by decide
theorem refuses_long_inbound_access :
    (Instr.inboundAccess { cellOf kREAD cBULK 5 [] with nm1 := 20 }).wf = false := by decide
theorem refuses_empty_request : (Instr.bar0Request true 8 []).wf = false := by decide
theorem refuses_request_across_a_page : (Instr.outboundWrite 0 4092 (List.replicate 8 0)).wf = false := by decide
theorem refuses_request_beyond_the_bar : (Instr.outboundRead 0 (2 ^ 25 - 4) 8).wf = false := by decide
theorem refuses_request_too_long : (Instr.outboundRead 0 0 4097).wf = false := by decide
theorem refuses_frame_without_its_bytes : (Instr.mbFrameReceived 0 (.mk { busFrame with data := [1] } 0)).wf = false := by decide
theorem refuses_frame_of_65_bytes :
    (Instr.mbFrameReceived 0 (.mk { busFrame with data := List.replicate 65 1 } 0)).wf = false := by decide
theorem refuses_head_of_no_points : (Instr.headPowerUp 0 0).wf = false := by decide
theorem refuses_head_too_long : (Instr.headPowerUp 0 16385).wf = false := by decide

/-- An ill-formed command faults, under its name. -/
theorem ill_formed_faults : exec (.fabricWrite 0 0 0 []) s0 = .fault (.illFormed "FABRIC_WRITE") := by rfl

/-! ### Decoding: no row of the table has bits -/

theorem decodes_no_word : decodeTableWord 48 0 = none ∧ s0.withFetchWord 48 0 = s0 := by decide

/-! ### Values that the spec works out -/

/-- The value of a register field. -/
def read (s : State) (f : Field) : Nat := s.get f

/-- The state that a command leaves, where it goes on. -/
def after (c : Instr) (s : State) : State :=
  match exec c s with
  | .next t => t
  | _ => s

/-- R241: over "123456789" the CRC-16 gives 0x29B1. -/
theorem test_crc16_check_value :
    crc16 ([0x31, 0x32, 0x33, 0x34, 0x35, 0x36, 0x37, 0x38, 0x39].flatMap fun (b : BitVec 8) =>
      (List.range 8).map fun i => b.getLsbD (7 - i)) = 0x29B1 := by decide +kernel

/-- R519: BAR0 bytes 0x3010 to 0x3017 of the worked value of TBL_STAT. -/
theorem test_tbl_stat_read_over_bar0 :
    (after (.bar0Request false 0x3010 (List.replicate 8 0))
      (st [(BRG_STAT.LINKUP, 1), (TBL_STAT.HOME_UP, 1), (TBL_STAT.PINNED, 64), (TBL_STAT.DONE, 0x0102),
        (TBL_STAT.DEPTH, 3)])).out = [.cplData [0x03, 0x00, 0x02, 0x01, 0x40, 0x08, 0x00, 0x00]] := by decide +kernel

/-- R520: one write of FSEL, FID and FMASK at byte 0xC620 programs object 7 of MB03 and moves on to 8. -/
theorem test_filter_written_over_bar0 :
    let t := after (.bar0Request true 0xC620
      ([7, 0, 0, 0, 0, 0, 0, 0] ++ [5, 0, 0, 0, 0, 0x80, 0, 0] ++ [0xFF, 0, 0, 0, 0, 0, 0, 0])) (st [(BRG_STAT.LINKUP, 1)])
    (t.mbObj 3 7).fid = 0x800000000005 ∧ (t.mbObj 3 7).fmask = 0xFF ∧ read t (MB_FSEL.OBJ 3) = 8 := by decide +kernel

/-- R341: windows of 390 cells take 3,226 ticks, as the worked example of chapter 11 says. -/
theorem test_window_length : Row.wlen { row0 with cells := 390 } = 3226 := by decide

/-- R23: point 9,000 lies in word 187 at bit 24; 16,384 points span 342 words. -/
theorem test_point_of_a_chain_channel :
    (9000 / 48, 9000 % 48) = (187, 24) ∧ ceilDiv 16384 48 = 342 := by decide

/-- R42: a raw entry of zeros is EMPTY and well-formed; VALID 1 with TYPE 0 is neither. -/
theorem test_raw_entries : rawWellFormed 0 0x400000 = true ∧ rawWellFormed (2 ^ 504) 0x400000 = false := by decide +kernel

/-! ### Lanes and tenons: every opcode of the core executes some word, on a lane and on a tenon -/

/-- The opcodes whose effect the statements give as one shape. -/
def plainOps : List Nat :=
  [0x00, 0x02, 0x03, 0x04, 0x05, 0x06, 0x07, 0x08, 0x09, 0x0A, 0x0B, 0x0C, 0x0D, 0x0E, 0x0F, 0x10, 0x11, 0x12, 0x13,
   0x14, 0x15, 0x16, 0x17, 0x1A, 0x1C, 0x1D]

theorem witness_HasEffect : ∀ op ∈ plainOps,
    ((laneOn (op_ op 0) Eng.reset s0).runs l0 = true ∧
      (laneOn (op_ op 0) Eng.reset s0).fetchWord l0 = (op_ op 0, false) ∧ legalWord true (op_ op 0) = true ∧
      opcode (op_ op 0) = op ∧ (issued l0 (op_ op 0) (laneOn (op_ op 0) Eng.reset s0)).nextPc l0 < 16384) ∧
    ((tenOn (op_ op 0) Eng.reset s0).runs t0 = true ∧
      (tenOn (op_ op 0) Eng.reset s0).fetchWord t0 = (op_ op 0, false) ∧ legalWord false (op_ op 0) = true) := by
  decide +kernel

/-- R163: ADD of 2^47 and 2^47 gives 0 with Z, C and V. -/
theorem test_add_wraps :
    let e := (after (.add l0) (laneOn (op_ 0x05 0x20100000) { Eng.reset with regs := [(0, 2 ^ 47), (1, 2 ^ 47)] } s0)).engine 0
    Tab.get 0 e.regs 2 = 0 ∧ e.z = true ∧ e.n = false ∧ e.c = true ∧ e.v = true := by decide +kernel

/-- R163: SUB of 1 from 0 borrows: C is 0. -/
theorem test_sub_borrows :
    let e := (after (.sub l0) (laneOn (op_ 0x06 0x20100000) { Eng.reset with regs := [(1, 1)] } s0)).engine 0
    Tab.get 0 e.regs 2 = BitVec.allOnes 48 ∧ e.n = true ∧ e.c = false ∧ e.v = false := by decide +kernel

/-- R211: HALT stops a tenon with cause 2. -/
theorem test_halt_stops_a_tenon :
    let t := after (.halt t0) (tenOn (op_ 0x01 0) Eng.reset s0)
    t.tenState 0 0 = tnSTOPPED ∧ t.get (TEN_STAT.CAUSE 0 0) = 2 := by decide +kernel

/-- A step takes the command at the front of the queue and leaves the rest. -/
theorem test_step_takes_the_front :
    step { s0 with pending := [.supplyOk, .handover] } = .next { s0 with pending := [.handover] } := by rfl

/-! ### States and operands that meet the hypotheses of the statements -/

/-- States and operands meet the hypotheses of StepRunsTheFrontCommand. -/
theorem witness_StepRunsTheFrontCommand :
  (∃ (s : State),
    (s.pending = [])) :=
  by refine ⟨s0, ?main⟩; case main => ((and_intros <;> (try with_reducible rfl)); all_goals first | decide +kernel | rfl)

/-- States and operands meet the hypotheses of RegisterWriteByAccessCode. -/
theorem witness_RegisterWriteByAccessCode :
  (∃ (s : State) (a : BitVec 16) (v : Word),
    (0x0102 ≤ a.toNat) ∧ (a.toNat < 0x0180)) :=
  by refine ⟨s0, 0x0105#16, 7, ?main⟩; case main => ((and_intros <;> (try with_reducible rfl)); all_goals first | decide +kernel | rfl)

/-- States and operands meet the hypotheses of UnmappedRegisterReadsZero. -/
theorem witness_UnmappedRegisterReadsZero :
  (∃ (s : State) (a : BitVec 16) (v : Word),
    (regFields a.toNat = [])) ∧
  (∃ (s : State) (a : BitVec 16) (v : Word),
    (regFields a.toNat = [])) ∧
  (∃ (s : State) (ten ch w n : Nat) (ws : Option (List Word)),
    (0xFFFA ≤ ch) ∧ (ch ≤ 0xFFFF) ∧ (ch ≠ 0xFFFF) ∧ (ten = 0 ∨ ch = 0xFFFE) ∧ (windowLast ch < w + n - 1)) ∧
  (∃ (s : State) (ten ch w n : Nat) (ws : Option (List Word)),
    (0xFFFA ≤ ch) ∧ (ch ≤ 0xFFFF) ∧ (ch = 0xFFFF) ∧ (ten = 0) ∧ (w + n ≤ 0x10000)) :=
  ⟨by refine ⟨s0, 0xFFF0#16, 1, ?main⟩; case main => ((and_intros <;> (try with_reducible rfl)); all_goals first | decide +kernel | rfl),
   by refine ⟨s0, 0xFFF0#16, 1, ?main⟩; case main => ((and_intros <;> (try with_reducible rfl)); all_goals first | decide +kernel | rfl),
   by refine ⟨s0, 1, 0xFFFE, 0xFFFF, 2, none, ?main⟩; case main => ((and_intros <;> (try with_reducible rfl)); all_goals first | decide +kernel | rfl),
   by refine ⟨s0, 0, 0xFFFF, 0xFFFF, 1, none, ?main⟩; case main => ((and_intros <;> (try with_reducible rfl)); all_goals first | decide +kernel | rfl)⟩

/-- States and operands meet the hypotheses of RegisterReadClearsRcFields. -/
theorem witness_RegisterReadClearsRcFields :
  (∃ (s : State) (a : BitVec 16),
    (0x0800 ≤ a.toNat) ∧ (a.toNat < 0x0C00) ∧ (a.toNat ≠ 0x0845) ∧ ((∀ f ∈ regFields a.toNat, s.get f < 2 ^ f.width))) :=
  by refine ⟨st [(XBAR_DROP.HDR, 5)], 0x0840#16, ?main⟩; case main => ((and_intros <;> (try with_reducible rfl)); all_goals first | decide +kernel | rfl)

/-- States and operands meet the hypotheses of QueueReadsTakeTheOldest. -/
theorem witness_QueueReadsTakeTheOldest :
  (∃ (s : State) (m : Nat × Msg) (rest : List (Nat × Msg)),
    (s.flt.remoteQ = m :: rest)) ∧
  (∃ (s : State) (m : Fin 12) (x : TxStamp) (rest : List TxStamp),
    ((s.macRec m.val).stamps = x :: rest) ∧ (x.ticks < 2 ^ 48)) ∧
  (∃ (s r : State) (b : Fin 32) (l : Fin 4) (x : Item) (q : Queues),
    (s.settleBay b.val = r) ∧ ((r.on (BAY_STREAM.AUTO b.val l.val) && r.on (BAY_STREAM.DIR b.val l.val)) = false) ∧ (r.qcap b.val l.val ≠ 0) ∧ ((r.queues b.val l.val).take = some (x, q))) ∧
  (∃ (s r : State),
    (s.serveNonces.refillPool = r) ∧ (r.on RNG_STATUS.READY = true) ∧ (32 ≤ r.get RNG_STATUS.BITS)) :=
  ⟨by refine ⟨{ s0 with flt := { s0.flt with remoteQ := [(3, Msg.empty)] } }, (3, Msg.empty), [], ?main⟩; case main => ((and_intros <;> (try with_reducible rfl)); all_goals first | decide +kernel | rfl),
   by refine ⟨s0.setMac 2 { Mac.reset with stamps := [.mk 1 2 3 0] }, 2, .mk 1 2 3 0, [], ?main⟩; case main => ((and_intros <;> (try with_reducible rfl)); all_goals first | decide +kernel | rfl),
   by refine ⟨s0.setQueues 1 2 { s0.queues 1 2 with outq := [.mk 7 0 1 0 false false false false] }, ?v1, 1, 2, .mk 7 0 1 0 false false false false, { (s0.setQueues 1 2 { s0.queues 1 2 with outq := [.mk 7 0 1 0 false false false false] }).queues 1 2 with outq := [] }, ?main⟩; case main => ((and_intros <;> (try with_reducible rfl)); all_goals first | decide +kernel | rfl),
   by refine ⟨st [(RNG_STATUS.READY, 1), (RNG_STATUS.BITS, 384)], ?v2, ?main⟩; case main => ((and_intros <;> (try with_reducible rfl)); all_goals first | decide +kernel | rfl)⟩

/-- States and operands meet the hypotheses of FabricWritesAreServedOrSent. -/
theorem witness_FabricWritesAreServedOrSent :
  (∃ (s : State) (cp : Fin 32) (addr : Word) (ws : List Word),
    (s.kpFine) ∧ (s.isHere addr = true) ∧ (wbits addr 31 16 = 0xFFFA) ∧ (ws ≠ []) ∧ (ws.length ≤ 20) ∧ (wbits addr 15 0 + ws.length ≤ 16384)) ∧
  (∃ (s : State) (cp : Fin 32) (ten : Fin 16) (addr : Word) (ws : List Word),
    (s.isHere addr = false) ∧ (ws ≠ []) ∧ (ws.length ≤ 20)) :=
  ⟨by refine ⟨n5 s0, 3, word (5 * 2 ^ 32 + 0xFFFA * 2 ^ 16 + 16383), [9], ?main⟩; case main => and_intros <;> first | (with_reducible rfl) | decide | decide +kernel | (unfold State.kpFine; decide) | (intro x h; exact absurd h (by decide)) | (intro h; exact absurd h.1 (by decide)) | (left; and_intros <;> first | rfl | decide +kernel) | (right; and_intros <;> first | rfl | decide +kernel),
   by refine ⟨n5 s0, 31, 15, word (6 * 2 ^ 32), [9], ?main⟩; case main => and_intros <;> first | (with_reducible rfl) | decide | decide +kernel | (unfold State.kpFine; decide) | (intro x h; exact absurd h (by decide)) | (intro h; exact absurd h.1 (by decide)) | (left; and_intros <;> first | rfl | decide +kernel) | (right; and_intros <;> first | rfl | decide +kernel)⟩

/-- States and operands meet the hypotheses of FabricReadsAnswerOrLeave. -/
theorem witness_FabricReadsAnswerOrLeave :
  (∃ (s : State) (cp : Fin 32) (addr ret : Word) (nm1 : Fin 20),
    (s.kpFine) ∧ (s.isHere addr = true) ∧ (wbits addr 31 16 = 0xFFFA) ∧ (wbits addr 15 0 + nm1.val < 16384)) ∧
  (∃ (s : State) (cp : Fin 32) (ten : Fin 16) (addr ret : Word) (nm1 : Fin 20) (ue : Bool),
    (s.isHere addr = false) ∧ (wbits addr 47 32 = 0xFFFF)) ∧
  (∃ (s : State) (cp : Fin 32) (ten : Fin 16) (addr ret : Word) (nm1 : Fin 20) (ue : Bool),
    (s.isHere addr = false) ∧ (wbits addr 47 32 ≠ 0xFFFF)) :=
  ⟨by refine ⟨n5 s0, 3, word (5 * 2 ^ 32 + 0xFFFA * 2 ^ 16 + 16364), 0, 19, ?main⟩; case main => and_intros <;> first | (with_reducible rfl) | decide | decide +kernel | (unfold State.kpFine; decide) | (intro x h; exact absurd h (by decide)) | (intro h; exact absurd h.1 (by decide)) | (left; and_intros <;> first | rfl | decide +kernel) | (right; and_intros <;> first | rfl | decide +kernel),
   by refine ⟨n5 s0, 3, 1, word (0xFFFF * 2 ^ 32), 0, 0, false, ?main⟩; case main => and_intros <;> first | (with_reducible rfl) | decide | decide +kernel | (unfold State.kpFine; decide) | (intro x h; exact absurd h (by decide)) | (intro h; exact absurd h.1 (by decide)) | (left; and_intros <;> first | rfl | decide +kernel) | (right; and_intros <;> first | rfl | decide +kernel),
   by refine ⟨n5 s0, 3, 1, word (6 * 2 ^ 32), 0, 0, false, ?main⟩; case main => and_intros <;> first | (with_reducible rfl) | decide | decide +kernel | (unfold State.kpFine; decide) | (intro x h; exact absurd h (by decide)) | (intro h; exact absurd h.1 (by decide)) | (left; and_intros <;> first | rfl | decide +kernel) | (right; and_intros <;> first | rfl | decide +kernel)⟩

/-- States and operands meet the hypotheses of BroadcastWritesReachOneWindow. -/
theorem witness_BroadcastWritesReachOneWindow :
  (∃ (s : State) (sender : BitVec 16) (w : BitVec 16) (v : Word),
    (s.kpFine) ∧ (w.toNat % 16 < 3)) ∧
  (∃ (s : State) (sender : BitVec 16) (ten : Fin 16) (ch w : BitVec 16) (ws : List Word),
    (s.kpFine) ∧ (ws ≠ []) ∧ (ws.length ≤ 20) ∧ (0xFFF0 ≤ ch.toNat) ∧ (ch ≠ 0xFFFD)) :=
  ⟨by refine ⟨s0, 7, 2, 1, ?main⟩; case main => and_intros <;> first | (with_reducible rfl) | decide | decide +kernel | (unfold State.kpFine; decide) | (intro x h; exact absurd h (by decide)) | (intro h; exact absurd h.1 (by decide)) | (left; and_intros <;> first | rfl | decide +kernel) | (right; and_intros <;> first | rfl | decide +kernel),
   by refine ⟨s0, 7, 1, 0xFFFF#16, 0, [1], ?main⟩; case main => and_intros <;> first | (with_reducible rfl) | decide | decide +kernel | (unfold State.kpFine; decide) | (intro x h; exact absurd h (by decide)) | (intro h; exact absurd h.1 (by decide)) | (left; and_intros <;> first | rfl | decide +kernel) | (right; and_intros <;> first | rfl | decide +kernel)⟩

/-- States and operands meet the hypotheses of EphemerisWritesSetEntries. -/
theorem witness_EphemerisWritesSetEntries :
  (∃ (s : State) (w : BitVec 16) (w0 w1 w2 w3 : Word) (i : Nat) (n : Eph),
    (s.kpFine) ∧ (w.toNat % 4 = 0) ∧ (i = 16384 * s.ephPage 0 + w.toNat / 4) ∧ (Tab.get 0 s.seq.owner i ≤ 16) ∧ ((s.entry i).tenant < 16) ∧ (i ∉ s.seq.bad) ∧ (i ∉ s.seq.weak) ∧ ((∀ f ∈ s.seq.wheel, f.entry = i → s.dispatchDue f = false)) ∧ (n = Eph.ofRaw (w0.toNat * 2 ^ 80 + w1.toNat * 2 ^ 32 + w2.toNat / 2 ^ 16) (s.entry i).nextSet) ∧ (n.valid = true) ∧ (n.state = eIDLE) ∧ ((Tab.get 0 s.seq.owner i = n.tenant + 1 ∨ s.underCap n.tenant = true))) ∧
  (∃ (s : State) (w : BitVec 16) (w0 w1 w2 w3 : Word) (i : Nat) (n : Eph),
    (s.kpFine) ∧ (w.toNat % 4 = 0) ∧ (i = 16384 * s.ephPage 0 + w.toNat / 4) ∧ (Tab.get 0 s.seq.owner i ≤ 16) ∧ ((s.entry i).tenant < 16) ∧ (i ∉ s.seq.bad) ∧ (i ∉ s.seq.weak) ∧ ((∀ f ∈ s.seq.wheel, f.entry = i → s.dispatchDue f = false)) ∧ (n = Eph.ofRaw (w0.toNat * 2 ^ 80 + w1.toNat * 2 ^ 32 + w2.toNat / 2 ^ 16) (s.entry i).nextSet) ∧ (n.valid = false ∨ 2 < n.state)) :=
  ⟨by refine ⟨s0, 4, 0, 0, word (2 ^ 28), 0, 1, ?v3, ?main⟩; case main => and_intros <;> first | (with_reducible rfl) | decide | decide +kernel | (unfold State.kpFine; decide) | (intro x h; exact absurd h (by decide)) | (intro h; exact absurd h.1 (by decide)) | (left; and_intros <;> first | rfl | decide +kernel) | (right; and_intros <;> first | rfl | decide +kernel),
   by refine ⟨s0, 4, 0, 0, word (7 * 2 ^ 28), 0, 1, ?v4, ?main⟩; case main => and_intros <;> first | (with_reducible rfl) | decide | decide +kernel | (unfold State.kpFine; decide) | (intro x h; exact absurd h (by decide)) | (intro h; exact absurd h.1 (by decide)) | (left; and_intros <;> first | rfl | decide +kernel) | (right; and_intros <;> first | rfl | decide +kernel)⟩

/-- States and operands meet the hypotheses of RingCellsAreCheckedAndQueued. -/
theorem witness_RingCellsAreCheckedAndQueued :
  (∃ (s : State) (p k : Fin 4) (x : Slot),
    (x.cell.words.length = 20) ∧ (emptySlot x = false) ∧ (x.ue = false) ∧ (s.slotHit p.val k.val x.index.val = false) ∧ (s.get (RINGP_STAT.SEALST p.val) = 2) ∧ ((s.offWire p.val k.val x.count x.cell x.crc).2 = false)) ∧
  (∃ (s : State) (p k : Fin 4) (x : Slot),
    (x.cell.words.length = 20) ∧ (emptySlot x = false) ∧ (x.ue = false) ∧ (s.slotHit p.val k.val x.index.val = false) ∧ (s.get (RINGP_STAT.SEALST p.val) ≠ 2) ∧ (s.on (RINGP_CTL.SEAL p.val) = false) ∧ (x.crc = cellCrc x.cell) ∧ (badHeader (4 * p.val + k.val) x.cell = false) ∧ (x.cell.kind = kWRITE) ∧ (x.cell.cls ≠ cTT) ∧ (x.cell.node.toNat = s.node) ∧ (x.cell.node ≠ 0) ∧ (s.inqFull (4 * p.val + k.val) = false)) ∧
  (∃ (s : State) (p k : Fin 4) (x : Slot),
    (x.cell.words.length = 20) ∧ (emptySlot x = false) ∧ (x.ue = false) ∧ (s.slotHit p.val k.val x.index.val = false) ∧ (s.get (RINGP_STAT.SEALST p.val) ≠ 2) ∧ (s.on (RINGP_CTL.SEAL p.val) = false) ∧ (x.crc = cellCrc x.cell) ∧ (x.cell.wrap = 3 ∨ 19 < x.cell.nm1.toNat ∨ ((x.cell.kind = kCTRL ∨ x.cell.kind = kLINK) ∧ x.cell.nm1 ≠ 19))) ∧
  (∃ (s : State) (p k : Fin 4) (x : Slot),
    (x.cell.words.length = 20) ∧ (emptySlot x = false) ∧ (x.ue = false) ∧ (s.slotHit p.val k.val x.index.val = false) ∧ (s.get (RINGP_STAT.SEALST p.val) ≠ 2) ∧ (s.on (RINGP_CTL.SEAL p.val) = false) ∧ (x.crc = ~~~(cellCrc x.cell))) ∧
  (∃ (s : State) (p k : Fin 4) (x : Slot) (r : State),
    (x.cell.words.length = 20) ∧ (emptySlot x = false) ∧ (x.ue = false) ∧ (s.slotHit p.val k.val x.index.val = false) ∧ (s.get (RINGP_STAT.SEALST p.val) ≠ 2) ∧ (s.on (RINGP_CTL.SEAL p.val) = false) ∧ (x.crc ≠ cellCrc x.cell) ∧ (x.crc ≠ ~~~(cellCrc x.cell)) ∧ (r = s.inc (RINGP_CNT.CRC p.val)) ∧ (x.cut = false ∨ r.cutOutput p.val k.val x.cell = none)) ∧
  (∃ (s : State) (p k : Fin 4) (x : Slot) (r : State) (o : Nat) (c : Cell),
    (x.cell.words.length = 20) ∧ (emptySlot x = false) ∧ (x.ue = false) ∧ (s.slotHit p.val k.val x.index.val = false) ∧ (s.get (RINGP_STAT.SEALST p.val) ≠ 2) ∧ (s.on (RINGP_CTL.SEAL p.val) = false) ∧ (x.crc ≠ cellCrc x.cell) ∧ (x.crc ≠ ~~~(cellCrc x.cell)) ∧ (r = s.inc (RINGP_CNT.CRC p.val)) ∧ (x.cut = true) ∧ (r.cutOutput p.val k.val x.cell = some (o, c)) ∧ (s.get (RINGP_STAT.SEALST (cpPort o)) ≠ 2)) :=
  ⟨by refine ⟨{ n5 (st [(RINGP_STAT.SEALST 0, 2)]) with ring := [(0, { RPort.reset with nonce := some 7, peer := some (4, 9) })] }, 0, 0, .mk 0 0 (cellOf kWRITE cBULK 5 []) 1 false false, ?main⟩; case main => ((and_intros <;> (try with_reducible rfl)); all_goals first | decide +kernel | rfl),
   by refine ⟨n5 s0, 0, 0, .mk 0 0 (cellOf kWRITE cBULK 5 []) (cellCrc (cellOf kWRITE cBULK 5 [])) false false, ?main⟩; case main => ((and_intros <;> (try with_reducible rfl)); all_goals first | decide +kernel | rfl),
   by refine ⟨n5 s0, 0, 0, .mk 0 0 { cellOf kWRITE cBULK 5 [] with wrap := 3 } (cellCrc { cellOf kWRITE cBULK 5 [] with wrap := 3 }) false false, ?main⟩; case main => ((and_intros <;> (try with_reducible rfl)); all_goals first | decide +kernel | rfl),
   by refine ⟨n5 s0, 0, 0, .mk 0 0 (cellOf kWRITE cBULK 5 []) (~~~(cellCrc (cellOf kWRITE cBULK 5 []))) false false, ?main⟩; case main => ((and_intros <;> (try with_reducible rfl)); all_goals first | decide +kernel | rfl),
   by refine ⟨n5 s0, 0, 0, .mk 0 0 (cellOf kWRITE cBULK 5 []) 0 false true, ?v5, ?main⟩; case main => ((and_intros <;> (try with_reducible rfl)); all_goals first | decide +kernel | rfl),
   by refine ⟨{ n5 (st [(XBAR_FWD.CTBULK 0, 1), (RINGP_STAT.SUBUP 1, 15)]) with kpMode := KpReg.of 4 }, 0, 0, .mk 0 0 (cellOf kWRITE cBULK 9 []) 0 false true, ?v6, 4, cellOf kWRITE cBULK 9 [], ?main⟩; case main => ((and_intros <;> (try with_reducible rfl)); all_goals first | decide +kernel | rfl)⟩

/-- States and operands meet the hypotheses of BlocksAdmitWithinQuota. -/
theorem witness_BlocksAdmitWithinQuota :
  (∃ (s : State) (cp : Fin 32) (c : Cell),
    (16 ≤ cp.val) ∧ (c.words.length = 20) ∧ (badHeader cp.val c = false) ∧ (c.kind = kWRITE) ∧ (c.node.toNat = s.node) ∧ (c.node ≠ 0) ∧ (s.xbar.waiting = []) ∧ (s.cutEnabled cp.val (s.tenClass c.ten.toNat) = false) ∧ (s.mayAdmit cp.val c.ten.toNat c = true)) ∧
  (∃ (s : State) (cp : Fin 32) (c : Cell),
    (16 ≤ cp.val) ∧ (c.words.length = 20) ∧ (badHeader cp.val c = false) ∧ (c.kind = kWRITE) ∧ (c.node.toNat = s.node) ∧ (c.node ≠ 0) ∧ (s.xbar.waiting = []) ∧ (s.cutEnabled cp.val (s.tenClass c.ten.toNat) = false) ∧ (s.mayAdmit cp.val c.ten.toNat c = false)) ∧
  (∃ (s : State) (m : Msg) (rest : List Msg),
    (s.flt.fwdQ = m :: rest) ∧ (s.get FLT_FWD.NODE = 0 ∨ s.present (s.get FLT_FWD.NODE) = false)) ∧
  (∃ (s : State) (m : Msg) (rest : List Msg),
    (s.flt.fwdQ = m :: rest) ∧ (s.get FLT_FWD.NODE ≠ 0) ∧ (s.present (s.get FLT_FWD.NODE) = true) ∧ (s.mayAdmit 30 0 (s.ctrl cCTL (s.get FLT_FWD.NODE) (s.forwardWords m)) = true)) ∧
  (∃ (s : State) (offset : Nat) (bytes : List Byte),
    (bytes.length = 8) ∧ (offset % 8 = 0) ∧ (offset + 8 ≤ 2 ^ 19) ∧ (s.linkUp = true) ∧ (s.on MGT_STAT.KPLOCK = true)) ∧
  (∃ (s : State) (offset : Nat) (bytes : List Byte),
    (0 < bytes.length) ∧ (offset % 4096 + bytes.length ≤ 4096) ∧ (offset + bytes.length ≤ 2 ^ 19) ∧ (offset % 8 ≠ 0) ∧ (s.linkUp = true)) :=
  ⟨by refine ⟨n5 s0, 17, cellOf kWRITE cBULK 5 [], ?main⟩; case main => ((and_intros <;> (try with_reducible rfl)); all_goals first | decide +kernel | rfl),
   by refine ⟨n5 (st [(XBAR_TQUOTA.CELLS 0, 0)]), 17, cellOf kWRITE cBULK 5 [], ?main⟩; case main => ((and_intros <;> (try with_reducible rfl)); all_goals first | decide +kernel | rfl),
   by refine ⟨{ s0 with flt := { s0.flt with fwdQ := [Msg.empty] } }, Msg.empty, [], ?main⟩; case main => ((and_intros <;> (try with_reducible rfl)); all_goals first | decide +kernel | rfl),
   by refine ⟨{ n5 (st [(FLT_FWD.NODE, 9)]) with flt := { s0.flt with fwdQ := [Msg.empty] } }, Msg.empty, [], ?main⟩; case main => ((and_intros <;> (try with_reducible rfl)); all_goals first | decide +kernel | rfl),
   by refine ⟨st [(BRG_STAT.LINKUP, 1), (MGT_STAT.KPLOCK, 1)], 0x100 * 8, [0, 0, 0, 0, 0, 0, 0, 7], ?main⟩; case main => ((and_intros <;> (try with_reducible rfl)); all_goals first | decide +kernel | rfl),
   by refine ⟨st [(BRG_STAT.LINKUP, 1)], 4, [0], ?main⟩; case main => ((and_intros <;> (try with_reducible rfl)); all_goals first | decide +kernel | rfl)⟩

/-- States and operands meet the hypotheses of SwitchCoreMovesOneCell. -/
theorem witness_SwitchCoreMovesOneCell :
  (∃ (s : State) (i o : Nat) (q : QCell),
    (i < 32) ∧ (o < 16) ∧ (s.xbar.inq = []) ∧ (s.xbar.xp = [(32 * i + o, [q])]) ∧ (s.xbar.tt = []) ∧ (s.xbar.cut = []) ∧ (s.get (RINGP_STAT.SEALST (cpPort o)) ≠ 2) ∧ (s.brg.reasm = []) ∧ (q.own = none) ∧ (q.cell.cls = cCTL) ∧ (s.outOpen o = true) ∧ (s.outShut o = false)) ∧
  (∃ (s : State) (n : Fin 16) (v : Word),
    (2 ≤ wbits v 25 24)) ∧
  (∃ (s : State) (p : Fin 16) (due : Nat),
    (p.val < 4) ∧ (Tab.get none s.xbar.hold p.val = some due) ∧ (s.xbar.xp = [])) ∧
  (∃ (s : State) (v : Word),
    (v.getLsbD 13 = true) ∧ (s.get XBAR_SPARE.STATE = 0)) ∧
  (∃ (s : State),
    (s.get XBAR_SPARE.STATE = 2) ∧ (s.xbar.xp = [])) :=
  ⟨by refine ⟨{ { st [(RINGP_STAT.SUBUP 0, 15)] with kpMode := KpReg.of 4 } with xbar := { Xbar.reset with xp := [(32 * 17 + 1, [.mk (cellOf kWRITE cCTL 9 []) 0 0 none false false])] } }, 17, 1, .mk (cellOf kWRITE cCTL 9 []) 0 0 none false false, ?main⟩; case main => ((and_intros <;> (try with_reducible rfl)); all_goals first | decide +kernel | rfl),
   by refine ⟨s0, 3, word (2 ^ 25), ?main⟩; case main => ((and_intros <;> (try with_reducible rfl)); all_goals first | decide +kernel | rfl),
   by refine ⟨{ s0 with xbar := { Xbar.reset with hold := [(1, some 40)] } }, 1, 40, ?main⟩; case main => ((and_intros <;> (try with_reducible rfl)); all_goals first | decide +kernel | rfl),
   by refine ⟨s0, word (2 ^ 13 + 5 * 2 ^ 8), ?main⟩; case main => ((and_intros <;> (try with_reducible rfl)); all_goals first | decide +kernel | rfl),
   by refine ⟨st [(XBAR_SPARE.STATE, 2), (XBAR_SPARE.SERVES, 3)], ?main⟩; case main => ((and_intros <;> (try with_reducible rfl)); all_goals first | decide +kernel | rfl)⟩

/-- States and operands meet the hypotheses of DoorbellsQueueOrAreReported. -/
theorem witness_DoorbellsQueueOrAreReported :
  (∃ (s : State) (u : Bool) (v : Word) (live : Nat),
    (live = (s.tbl.doors.filter fun d => d.phase != DoorPhase.complete).length) ∧ (wbits v 15 0 < 0xFFF0) ∧ (live < 32)) ∧
  (∃ (s : State) (u : Bool) (v : Word) (live : Nat),
    (live = (s.tbl.doors.filter fun d => d.phase != DoorPhase.complete).length) ∧ (wbits v 15 0 < 0xFFF0) ∧ (32 ≤ live)) ∧
  (∃ (s : State) (u : Bool) (v : Word) (live : Nat),
    (live = (s.tbl.doors.filter fun d => d.phase != DoorPhase.complete).length) ∧ (0xFFF0 ≤ wbits v 15 0)) :=
  ⟨by refine ⟨s0, true, 3, 0, ?main⟩; case main => ((and_intros <;> (try with_reducible rfl)); all_goals first | decide +kernel | rfl),
   by refine ⟨withTbl { Tbl.reset with doors := List.replicate 32 (.mk false 3 0 0 .queued) } [], false, 3, 32, ?main⟩; case main => ((and_intros <;> (try with_reducible rfl)); all_goals first | decide +kernel | rfl),
   by refine ⟨s0, true, 0xFFF0, 0, ?main⟩; case main => ((and_intros <;> (try with_reducible rfl)); all_goals first | decide +kernel | rfl)⟩

/-- States and operands meet the hypotheses of DoorbellServiceUpdatesTheCache. -/
theorem witness_DoorbellServiceUpdatesTheCache :
  (∃ (s : State) (d : Doorbell) (ue : Bool),
    (s.tbl.doors = [d]) ∧ (s.homeSel = 0) ∧ (d.phase = .queued) ∧ ((d.update = true → rawWellFormed d.staged s.homeSize = true))) ∧
  (∃ (s : State) (d : Doorbell) (ue : Bool),
    (s.tbl.doors = [d]) ∧ (s.homeSel ≠ 0) ∧ (s.homeUp = true) ∧ (s.alive 5 = true) ∧ (s.tbl.badSlots = []) ∧ (s.tbl.weakSlots = []) ∧ ((s.tbl.lines.filter fun l => l.ch % 256 == d.ch % 256).length < 16) ∧ (d.update = false) ∧ (d.phase = .queued)) ∧
  (∃ (s : State) (d : Doorbell) (due : Nat) (first ue : Bool),
    (s.tbl.doors = [d]) ∧ (s.homeSel ≠ 0) ∧ (s.homeUp = true) ∧ (s.alive 5 = true) ∧ (s.tbl.badSlots = []) ∧ (s.tbl.weakSlots = []) ∧ ((s.tbl.lines.filter fun l => l.ch % 256 == d.ch % 256).length < 16) ∧ (d.phase = .refetch due first)) ∧
  (∃ (s : State) (d : Doorbell),
    (s.tbl.doors = [d]) ∧ (s.homeSel ≠ 0) ∧ (s.homeUp = true) ∧ (s.alive 5 = true) ∧ (s.tbl.badSlots = []) ∧ (s.tbl.weakSlots = []) ∧ ((s.tbl.lines.filter fun l => l.ch % 256 == d.ch % 256).length < 16) ∧ (d.update = true) ∧ (d.phase = .queued) ∧ (rawWellFormed d.staged s.homeSize = false)) ∧
  (∃ (s : State) (d : Doorbell),
    (s.tbl.doors = [d]) ∧ (s.homeSel ≠ 0) ∧ (s.homeUp = true) ∧ (s.alive 5 = true) ∧ (s.tbl.badSlots = []) ∧ (s.tbl.weakSlots = []) ∧ ((s.tbl.lines.filter fun l => l.ch % 256 == d.ch % 256).length < 16) ∧ (d.update = true) ∧ (d.phase = .queued) ∧ (rawWellFormed d.staged s.homeSize = true) ∧ (d.staged < 2 ^ 512) ∧ (64 ≤ s.tbl.ddrSize) ∧ (s.servesNow 5 true d.ch 131072 8 = true)) ∧
  (∃ (s : State) (d : Doorbell),
    (s.tbl.doors = [d]) ∧ (s.homeSel ≠ 0) ∧ (s.homeUp = true) ∧ (s.alive 5 = true) ∧ (s.tbl.badSlots = []) ∧ (s.tbl.weakSlots = []) ∧ ((s.tbl.lines.filter fun l => l.ch % 256 == d.ch % 256).length < 16) ∧ (d.update = true) ∧ (d.phase = .queued) ∧ (rawWellFormed d.staged s.homeSize = true) ∧ (s.servesNow 5 true d.ch 131072 8 = false)) ∧
  (∃ (s : State) (d : Doorbell) (ops acts : List Nat),
    (s.tbl.doors = [d]) ∧ (d.phase = .finished ops acts)) :=
  ⟨by refine ⟨{ belled false .queued with kpHome := KpReg.of 0 }, .mk false 3 0 0 .queued, false, ?main⟩; case main => ((and_intros <;> (try with_reducible rfl)); all_goals first | decide +kernel | rfl),
   by refine ⟨belled false .queued, .mk false 3 0 0 .queued, false, ?main⟩; case main => ((and_intros <;> (try with_reducible rfl)); all_goals first | decide +kernel | rfl),
   by refine ⟨belled false (.refetch 70 false), .mk false 3 0 0 (.refetch 70 false), 70, false, false, ?main⟩; case main => ((and_intros <;> (try with_reducible rfl)); all_goals first | decide +kernel | rfl),
   by refine ⟨{ belled true .queued with tbl := { (belled true .queued).tbl with doors := [.mk true 3 0 (2 ^ 504) .queued] } }, .mk true 3 0 (2 ^ 504) .queued, ?main⟩; case main => ((and_intros <;> (try with_reducible rfl)); all_goals first | decide +kernel | rfl),
   by refine ⟨belled true .queued, .mk true 3 0 0 .queued, ?main⟩; case main => ((and_intros <;> (try with_reducible rfl)); all_goals first | decide +kernel | rfl),
   by refine ⟨{ belled true .queued with tbl := { (belled true .queued).tbl with owner := some (.mk 1 0 0 2 false 0 false []) } }, .mk true 3 0 0 .queued, ?main⟩; case main => ((and_intros <;> (try with_reducible rfl)); all_goals first | decide +kernel | rfl),
   by refine ⟨belled false (.finished [1] []), .mk false 3 0 0 (.finished [1] []), [1], [], ?main⟩; case main => ((and_intros <;> (try with_reducible rfl)); all_goals first | decide +kernel | rfl)⟩

/-- States and operands meet the hypotheses of HomeSelectionLossAndReturn. -/
theorem witness_HomeSelectionLossAndReturn :
  (∃ (s : State) (ch : BitVec 16),
    (ch.toNat < 0xFFF0) ∧ (s.homeSel ≠ 0) ∧ (s.homeUp = true) ∧ (s.line ch.toNat = none) ∧ ((s.tbl.lines.filter fun l => l.ch % 256 == ch.toNat % 256).length < 16) ∧ (s.tbl.badSlots = []) ∧ (s.tbl.weakSlots = []) ∧ (rawWellFormed (s.rawEntry ch.toNat) s.homeSize = true)) ∧
  (∃ (s : State) (ch : BitVec 16),
    (ch.toNat < 0xFFF0) ∧ (s.homeSel ≠ 0) ∧ (s.homeUp = true) ∧ (s.line ch.toNat = none) ∧ ((s.tbl.lines.filter fun l => l.ch % 256 == ch.toNat % 256).length < 16) ∧ (s.tbl.badSlots = []) ∧ (s.tbl.weakSlots = [])) ∧
  (∃ (s : State) (v : Word),
    (s.kpLocked = false) ∧ (wbits v 1 0 ≠ 3) ∧ (wbits v 5 2 ≠ 15)) ∧
  (∃ (s : State) (c : HomeLoss),
    (s.homeUp = true) ∧ ((match c with | .pcieDown => s.homeSel = 2 | .ddrFatal _ => s.homeSel = 1))) ∧
  (∃ (s : State),
    (s.homeUp = false) ∧ (s.homeSel ≠ 0) ∧ (s.homeReachable = true)) ∧
  (∃ (s : State) (pass : Bool),
    (s.tbl.ddr0 = false) ∧ (s.tbl.ddr1 = true ∨ s.tbl.retrain0 ≤ s.tbl.retrain1)) ∧
  (∃ (s : State) (pass : Bool),
    (s.tbl.ddr1 = false) ∧ (s.tbl.ddr0 = true ∨ s.tbl.retrain1 < s.tbl.retrain0)) :=
  ⟨by refine ⟨withTbl Tbl.reset [], 3, ?main⟩; case main => ((and_intros <;> (try with_reducible rfl)); all_goals first | decide +kernel | rfl),
   by refine ⟨withTbl Tbl.reset [], 3, ?main⟩; case main => ((and_intros <;> (try with_reducible rfl)); all_goals first | decide +kernel | rfl),
   by refine ⟨s0, 1, ?main⟩; case main => ((and_intros <;> (try with_reducible rfl)); all_goals first | decide +kernel | rfl),
   by refine ⟨withTbl Tbl.reset [], .ddrFatal 1, ?main⟩; case main => ((and_intros <;> (try with_reducible rfl)); all_goals first | decide +kernel | rfl),
   by refine ⟨{ s0 with kpHome := KpReg.of 1 }, ?main⟩; case main => ((and_intros <;> (try with_reducible rfl)); all_goals first | decide +kernel | rfl),
   by refine ⟨{ s0 with tbl := { Tbl.reset with ddr0 := false } }, true, ?main⟩; case main => ((and_intros <;> (try with_reducible rfl)); all_goals first | decide +kernel | rfl),
   by refine ⟨{ s0 with tbl := { Tbl.reset with ddr1 := false } }, false, ?main⟩; case main => ((and_intros <;> (try with_reducible rfl)); all_goals first | decide +kernel | rfl)⟩

/-- States and operands meet the hypotheses of TablePortGrantsAndTransfers. -/
theorem witness_TablePortGrantsAndTransfers :
  (∃ (s : State) (o : Op) (w d : Nat),
    (s.tbl.ops = [o]) ∧ (s.tbl.owner = none) ∧ (s.tbl.restart = none) ∧ (o.req < 8) ∧ (o.ten < 16) ∧ (o.paced = false) ∧ (s.tbl.blocked = []) ∧ (s.ready o = true) ∧ (s.urgent o = false) ∧ (s.alive o.req = true) ∧ (w = s.get (TBL_WEIGHT.WEIGHT o.req)) ∧ (d = Tab.get 0 s.tbl.deficit o.req) ∧ (d < o.nextLen) ∧ (o.nextLen ≤ d + w) ∧ (w ≠ 0)) ∧
  (∃ (s : State) (b : Burst) (o p : Op),
    (s.tbl.owner = some b) ∧ (b.at_ ≤ s.now) ∧ ((s.now - b.at_) % 3 = 0) ∧ (s.now < b.slotEnd) ∧ (b.urgent = false) ∧ (s.urgentOp = some o) ∧ (o.req ≠ b.req) ∧ (s.op b.op = some p) ∧ (s.urgent p = false)) ∧
  (∃ (s : State) (b : Burst) (rest : List Burst) (o : Op) (a : Nat) (ce : BitVec 16),
    (s.tbl.flight = b :: rest) ∧ (s.op b.op = some o) ∧ (o.purpose = .move a) ∧ (o.measures = false) ∧ (s.tbl.badSlots = []) ∧ (s.tbl.blocked = []) ∧ ((∀ x ∈ s.tbl.ops, x.paced = false ∧ x.closed = false))) ∧
  (∃ (s u : State) (n : Fin 8) (b : Burst) (o : Op) (a : Nat),
    (s.tbl.staged.find? (fun x => x.req == n.val) = some b) ∧ (s.op b.op = some o) ∧ (o.purpose = .move a ∨ o.purpose = .movc a) ∧ (o.measures = false) ∧ (s.tbl.blocked = []) ∧ ((∀ x ∈ s.tbl.ops, x.paced = false ∧ x.closed = false)) ∧ (s.tbl.ops.any (fun r => o.writeWaits r ((o.beatWords b.first b.len).headD 0) (o.beatWords b.first b.len).length) = false) ∧ (u = ((o.beatWords b.first b.len).zip b.words).foldl (fun x p => x.putDataWord o.entry.dataPtr p.1 p.2) s)) :=
  ⟨by refine ⟨withTbl { Tbl.reset with ops := [op1] } [(TBL_WEIGHT.WEIGHT 0, 8), (TBL_ARB_STAT.ALIVE, 1)], op1, 8, 0, ?main⟩; case main => ((and_intros <;> (try with_reducible rfl)); all_goals first | decide +kernel | rfl),
   by refine ⟨withTbl { Tbl.reset with ops := [{ op1 with entry := { op1.entry with dclass := 1 } }, { op1 with id := 2, req := 5 }], owner := some (.mk 2 5 0 2 false 0 false []) } [(TBL_DCLASS.BUDGET 1, 5), (TBL_CFG.URGENT, 9), (TBL_ARB_STAT.ALIVE, 255)], .mk 2 5 0 2 false 0 false [], { op1 with entry := { op1.entry with dclass := 1 } }, { op1 with id := 2, req := 5 }, ?main⟩; case main => ((and_intros <;> (try with_reducible rfl)); all_goals first | decide +kernel | rfl),
   by refine ⟨withTbl { Tbl.reset with ops := [op1], flight := [.mk 1 0 0 2 false 0 false (List.replicate 16 7)] } [], .mk 1 0 0 2 false 0 false (List.replicate 16 7), [], op1, 0, ?main⟩; case main => ((and_intros <;> (try with_reducible rfl)); all_goals first | decide +kernel | rfl),
   by refine ⟨withTbl { Tbl.reset with ops := [{ op1 with write := true }], staged := [.mk 1 0 0 2 true 0 false (List.replicate 16 7)] } [], ?v7, 0, .mk 1 0 0 2 true 0 false (List.replicate 16 7), { op1 with write := true }, 0, ?main⟩; case main => ((and_intros <;> (try with_reducible rfl)); all_goals first | decide +kernel | rfl)⟩

/-- States and operands meet the hypotheses of TablePortRequestersFallRiseAndStarve. -/
theorem witness_TablePortRequestersFallRiseAndStarve :
  (∃ (s : State) (n : Fin 8),
    (s.get TBL_ARB_STAT.ALIVE < 256)) ∧
  (∃ (s : State) (n : Fin 8),
    (s.get TBL_ARB_STAT.ALIVE < 256)) ∧
  (∃ (s : State) (n : Fin 8) (since : Nat),
    (Tab.get none s.tbl.since n.val = some since)) :=
  ⟨by refine ⟨st [(TBL_ARB_STAT.ALIVE, 255)], 2, ?main⟩; case main => ((and_intros <;> (try with_reducible rfl)); all_goals first | decide +kernel | rfl),
   by refine ⟨st [(TBL_ARB_STAT.ALIVE, 3)], 2, ?main⟩; case main => ((and_intros <;> (try with_reducible rfl)); all_goals first | decide +kernel | rfl),
   by refine ⟨withTbl { Tbl.reset with since := [(3, some 7)] } [], 3, 7, ?main⟩; case main => ((and_intros <;> (try with_reducible rfl)); all_goals first | decide +kernel | rfl)⟩

/-- States and operands meet the hypotheses of PhaseRolesSourcesAndStates. -/
theorem witness_PhaseRolesSourcesAndStates :
  (∃ (s : State) (d : Fin 4) (v : Word),
    (wbits v 1 0 ≠ s.phRole d.val) ∧ (v.getLsbD 7 = false)) ∧
  (∃ (s : State) (d : Fin 4),
    (s.get (PH_CTL.AUTORES d.val) < 2) ∧ (s.phRole d.val < 4) ∧ (s.phState d.val = phSLIPPED) ∧ ((s.dom d.val).slipAt ≠ some s.now)) ∧
  (∃ (s : State) (d : Fin 4),
    (s.get (PH_CTL.AUTORES d.val) < 2) ∧ (s.phRole d.val < 4) ∧ (s.phState d.val ≠ phSLIPPED ∨ (s.dom d.val).slipAt = some s.now)) ∧
  (∃ (s : State) (d : Fin 4),
    (s.hasPhase d.val = true)) ∧
  (∃ (s : State) (d : Fin 4),
    (s.phRole d.val = 1) ∧ ((s.dom d.val).srcCycle + 3 ≤ s.cyc.ncyc) ∧ (s.get (PH_SRC.ALT d.val) ≠ 0)) :=
  ⟨by refine ⟨s0, 1, 2, ?main⟩; case main => ((and_intros <;> (try with_reducible rfl)); all_goals first | decide +kernel | rfl),
   by refine ⟨st [(PH_STAT.STATE 1, 3)], 1, ?main⟩; case main => ((and_intros <;> (try with_reducible rfl)); all_goals first | decide +kernel | rfl),
   by refine ⟨s0, 1, ?main⟩; case main => ((and_intros <;> (try with_reducible rfl)); all_goals first | decide +kernel | rfl),
   by refine ⟨tracking 5, 1, ?main⟩; case main => ((and_intros <;> (try with_reducible rfl)); all_goals first | decide +kernel | rfl),
   by refine ⟨{ st [(PH_CTL.ROLE 1, 1), (PH_SRC.ALT 1, 8)] with cyc := { Cyc.reset with ncyc := 9 } }, 1, ?main⟩; case main => ((and_intros <;> (try with_reducible rfl)); all_goals first | decide +kernel | rfl)⟩

/-- States and operands meet the hypotheses of QuadCountsEdgesByTheirOrder. -/
theorem witness_QuadCountsEdgesByTheirOrder :
  (∃ (s : State) (d : Fin 4) (a b : Bool) (p : Ph) (fwd : Bool),
    (p = s.dom d.val) ∧ (s.phReads d.val = true) ∧ (s.phKind d.val = knQUAD) ∧ ((p.a ≠ a → p.aFrom ≤ s.now)) ∧ ((p.b ≠ b → p.bFrom ≤ s.now)) ∧ ((p.a ≠ a ∧ p.b = b ∧ fwd = (a != b)) ∨ (p.a = a ∧ p.b ≠ b ∧ fwd = (a == b)))) ∧
  (∃ (s : State) (d : Fin 4) (a b : Bool) (p : Ph),
    (p = s.dom d.val) ∧ (s.phReads d.val = true) ∧ (s.phKind d.val = knQUAD) ∧ ((p.a ≠ a → p.aFrom ≤ s.now)) ∧ ((p.b ≠ b → p.bFrom ≤ s.now)) ∧ (p.a ≠ a) ∧ (p.b ≠ b)) :=
  ⟨by refine ⟨st [(PH_CTL.ROLE 1, 2), (PH_CFG.KIND 1, 1)], 1, true, false, Ph.reset, true, ?main⟩; case main => ((and_intros <;> (try with_reducible rfl)); all_goals first | decide +kernel | rfl),
   by refine ⟨st [(PH_CTL.ROLE 1, 2), (PH_CFG.KIND 1, 1)], 1, true, true, Ph.reset, ?main⟩; case main => ((and_intros <;> (try with_reducible rfl)); all_goals first | decide +kernel | rfl)⟩

/-- States and operands meet the hypotheses of EncodersMeasureThePhase. -/
theorem witness_EncodersMeasureThePhase :
  (∃ (s : State) (d : Fin 4) (p : Ph) (m : Nat),
    (p = s.dom d.val) ∧ (m = nearestMeridian (counterPhase p.counter)) ∧ (s.phReads d.val = true) ∧ (s.phKind d.val = knQUAD ∨ s.phKind d.val = knLINE) ∧ (s.get (PH_CFG.ZMODE d.val) ≠ 0) ∧ ((s.get (PH_CFG.ZMODE d.val) = 1 → p.zSeen = false)) ∧ (p.zFrom ≤ s.now) ∧ ((∀ x, p.setAt = some x → x.1 ≠ s.now))) ∧
  (∃ (s : State) (d : Fin 4) (began : Nat),
    (s.phReads d.val = true) ∧ (s.phKind d.val = knSSI) ∧ (s.ssiIsDue d.val = true) ∧ (began = s.cyc.startedAt.getD s.now) ∧ ((s.dom d.val).ssiRead = none) ∧ ((s.dom d.val).ssiTm ≤ began)) ∧
  (∃ (s : State) (d : Fin 4) (began : Nat),
    (s.phReads d.val = true) ∧ (s.phKind d.val = knSSI) ∧ (s.ssiIsDue d.val = true) ∧ (began = s.cyc.startedAt.getD s.now) ∧ ((s.dom d.val).ssiRead ≠ none ∨ began < (s.dom d.val).ssiTm)) ∧
  (∃ (s : State) (d : Fin 4) (raw : Word) (tm began mt st par v : Nat),
    ((s.dom d.val).ssiRead = some (tm, began)) ∧ (mt = s.get (PH_SSI.MT d.val)) ∧ (st = s.get (PH_SSI.BITS d.val)) ∧ (par = s.get (PH_SSI.PAR d.val)) ∧ (v = raw.toNat % 2 ^ (mt + st + par)) ∧ ((par = 1 → (List.range 48).foldl (fun x i => x != v.testBit i) false = false))) ∧
  (∃ (s : State) (d : Fin 4),
    (s.phReads d.val = true) ∧ (s.phKind d.val = knMAINS) ∧ ((s.dom d.val).mainsAt = none) ∧ ((s.dom d.val).nmeas = 0) ∧ ((s.dom d.val).aFrom ≤ s.now)) ∧
  (∃ (s : State) (d : Fin 4) (v : Word),
    (s.phReads d.val = true) ∧ (s.phKind d.val = knQUAD ∨ s.phKind d.val = knLINE)) :=
  ⟨by refine ⟨st [(PH_CTL.ROLE 1, 2), (PH_CFG.KIND 1, 1), (PH_CFG.ZMODE 1, 1)], 1, Ph.reset, 0, ?main⟩; case main => ((and_intros <;> (try with_reducible rfl)); all_goals first | decide +kernel | rfl),
   by refine ⟨st [(PH_CTL.ROLE 1, 2), (PH_CFG.KIND 1, 2)], 1, 0, ?main⟩; case main => ((and_intros <;> (try with_reducible rfl)); all_goals first | decide +kernel | rfl),
   by refine ⟨withDom { Ph.reset with ssiTm := 9 } [(PH_CTL.ROLE 1, 2), (PH_CFG.KIND 1, 2)], 1, 0, ?main⟩; case main => ((and_intros <;> (try with_reducible rfl)); all_goals first | decide +kernel | rfl),
   by refine ⟨withDom { Ph.reset with ssiRead := some (4, 6) } [(PH_CTL.ROLE 1, 2), (PH_CFG.KIND 1, 2), (PH_SSI.MT 1, 4), (PH_SSI.BITS 1, 12), (PH_SSI.PAR 1, 1)], 1, 3, 4, 6, 4, 12, 1, 3, ?main⟩; case main => ((and_intros <;> (try with_reducible rfl)); all_goals first | decide +kernel | rfl),
   by refine ⟨st [(PH_CTL.ROLE 1, 2), (PH_CFG.KIND 1, 3)], 1, ?main⟩; case main => ((and_intros <;> (try with_reducible rfl)); all_goals first | decide +kernel | rfl),
   by refine ⟨st [(PH_CTL.ROLE 1, 2), (PH_CFG.KIND 1, 4)], 1, 77, ?main⟩; case main => ((and_intros <;> (try with_reducible rfl)); all_goals first | decide +kernel | rfl)⟩

/-- States and operands meet the hypotheses of SamplesBecomeTheDomainsMotion. -/
theorem witness_SamplesBecomeTheDomainsMotion :
  (∃ (s : State) (ws : List Word) (d : Nat) (m : Model),
    (ws.length = 20) ∧ (d = wbits (ws.getD 0 0) 33 32) ∧ (m = modelOf ws) ∧ (s.phRole d = 1) ∧ (sampleOk ws = true) ∧ (m.node ≠ 0) ∧ (m.node = s.phSource d) ∧ ((s.dom d).lastKey ≠ some (m.node, m.seqno, m.ts)) ∧ (m.gen = s.gen) ∧ ((s.dom d).pend.length < 16) ∧ (0 < dt m.teff s.ticks)) ∧
  (∃ (s : State) (d : Fin 4) (m : Model) (rest : List Model),
    ((s.dom d.val).pend = m :: rest) ∧ (m.level ≠ 0) ∧ (s.phState d.val = phACQUIRE)) ∧
  (∃ (s : State) (d : Fin 4) (n : Nat),
    ((s.updateX d.val).flipIn d.val = some n) ∧ (s.on SEQ_CTL.RUN = false ∨ (s.seq.eph = [] ∧ s.seq.wheel = []))) ∧
  (∃ (s u : State) (d : Fin 4) (rev : Bool) (m : Model) (n : Nat),
    (s.hasPhase d.val = true) ∧ ((s.dom d.val).eff = some m) ∧ (crossing (!rev) false m (if rev then 2 ^ 48 - 1 else 0) (s.dom d.val).wrapAt (2 ^ 32) = some n) ∧ (u = s.waitTicks (((s.dom d.val).wrapAt + n) % 2 ^ 48))) ∧
  (∃ (s : State) (d : Fin 4) (x : Nat),
    (s.hasPhase d.val = true) ∧ (s.fwd d.val = true) ∧ (x = ((s.updateX d.val).dom d.val).x)) :=
  ⟨by refine ⟨st [(PH_CTL.ROLE 1, 1), (PH_SRC.NODE 1, 9)], sample1, 1, modelOf sample1, ?main⟩; case main => ((and_intros <;> (try with_reducible rfl)); all_goals first | decide +kernel | rfl),
   by refine ⟨withDom { Ph.reset with pend := [model1 5] } [(PH_STAT.STATE 1, 1)], 1, model1 5, [], ?main⟩; case main => ((and_intros <;> (try with_reducible rfl)); all_goals first | decide +kernel | rfl),
   by refine ⟨tracking (-(2 ^ 42)), 1, 16, ?main⟩; case main => ((and_intros <;> (try with_reducible rfl)); all_goals first | decide +kernel | rfl),
   by refine ⟨tracking (2 ^ 40), ?v8, 1, false, model1 (2 ^ 40), 100, ?main⟩; case main => ((and_intros <;> (try with_reducible rfl)); all_goals first | decide +kernel | rfl),
   by refine ⟨tracking (2 ^ 40), 1, 2 ^ 48 - 100, ?main⟩; case main => ((and_intros <;> (try with_reducible rfl)); all_goals first | decide +kernel | rfl)⟩

/-- States and operands meet the hypotheses of SweepQueuesAndDispatchCaptures. -/
theorem witness_SweepQueuesAndDispatchCaptures :
  (∃ (s : State) (e : Fin 262144),
    (s.on SEQ_CTL.RUN = true) ∧ (e.val < s.get SEQ_SCAN.LIMIT) ∧ ((s.entry e.val).state = eARMED) ∧ ((s.entry e.val).trigkind = 0) ∧ (0 < dt (s.entry e.val).trig s.ticks) ∧ (dt (s.entry e.val).trig s.ticks ≤ s.get SEQ_HORIZON.TICKS) ∧ (s.seq.wheel.length < 16384) ∧ (s.seq.sweepAt = e.val) ∧ (e.val ∉ s.seq.bad) ∧ (e.val ∉ s.seq.weak) ∧ ((s.entry e.val).act ≠ 1)) ∧
  (∃ (s : State) (f : Firing) (e : Eph),
    (s.nextWaiting = none) ∧ (s.nextLanding = none) ∧ (s.on SEQ_CTL.RUN = true) ∧ (s.seq.wheel = [f]) ∧ (e = s.entry f.entry) ∧ (e.state = eQUEUED) ∧ (e.trigkind = 0) ∧ (e.act = 0) ∧ (e.dlkind = 0) ∧ (s.bit SEQ_HOLD.TENANT e.tenant = false) ∧ (f.missed = false) ∧ (f.entry ∉ s.seq.bad) ∧ (f.entry ∉ s.seq.weak)) :=
  ⟨by refine ⟨{ withEph { Eph.free with state := eARMED, trig := 50 } [] [(SEQ_CTL.RUN, 1), (SEQ_SCAN.LIMIT, 100), (SEQ_HORIZON.TICKS, 500)] with seq := { (withEph { Eph.free with state := eARMED, trig := 50 } [] []).seq with sweepAt := 7 } }, 7, ?main⟩; case main => ((and_intros <;> (try with_reducible rfl)); all_goals first | decide +kernel | rfl),
   by refine ⟨withEph { Eph.free with state := eQUEUED, trig := 50 } [.mk 7 50 none false] [(SEQ_CTL.RUN, 1)], .mk 7 50 none false, { Eph.free with state := eQUEUED, trig := 50 }, ?main⟩; case main => ((and_intros <;> (try with_reducible rfl)); all_goals first | decide +kernel | rfl)⟩

/-- States and operands meet the hypotheses of ActionsHaveTheirEffects. -/
theorem witness_ActionsHaveTheirEffects :
  (∃ (s : State) (k : Fin 8) (a : Act),
    (s.laneFree k.val = true) ∧ (s.seq.acts.find? (s.laneTakes k.val) = some a)) ∧
  (∃ (s : State) (k : Fin 8),
    (s.get (SEQ_LANE.STATE k.val) ≠ 0) ∧ ((s.engine k.val).runmax ≠ 0)) ∧
  (∃ (s u : State) (c : Timed),
    (s.seq.timed = [c]) ∧ (u = s.advance (dt c.instant s.ticks).toNat)) ∧
  (∃ (s : State) (o : Op) (id : Nat),
    (o.purpose = .move id) ∧ (s.tbl.ops.find? (fun x => x.closed && !x.failed && (match x.purpose with | .move _ => true | .alone => true | _ => false)) = some o)) ∧
  (∃ (s : State) (a : Act) (n : Nat),
    (s.seq.acts = [a]) ∧ (s.seq.wheel = []) ∧ (s.missIn a = some n) ∧ (a.e.policy < 4) ∧ (a.entry < 2 ^ 18) ∧ (a.e.tenant < 16) ∧ (s.get SEQ_HOLD.TENANT < 2 ^ 16)) ∧
  (∃ (s : State) (v : Word),
    (s.get SEQ_HOLD.TENANT < 2 ^ 16)) :=
  ⟨by refine ⟨acting (act7 { Eph.free with arg := 9, param := 1 } true) [(SEQ_CTL.LANE_EN, 1)], 0, act7 { Eph.free with arg := 9, param := 1 } true, ?main⟩; case main => ((and_intros <;> (try with_reducible rfl)); all_goals first | decide +kernel | rfl),
   by refine ⟨(st [(SEQ_LANE.STATE 0, 1)]).setEngine 0 { Eng.reset with runmax := 40 }, 0, ?main⟩; case main => ((and_intros <;> (try with_reducible rfl)); all_goals first | decide +kernel | rfl),
   by refine ⟨{ s0 with seq := { Seq.reset with timed := [.mk 0 7 30 2 5 4] } }, ?v9, .mk 0 7 30 2 5 4, ?main⟩; case main => ((and_intros <;> (try with_reducible rfl)); all_goals first | decide +kernel | rfl),
   by refine ⟨withTbl { Tbl.reset with ops := [{ op1 with closed := true }] } [], { op1 with closed := true }, 0, ?main⟩; case main => ((and_intros <;> (try with_reducible rfl)); all_goals first | decide +kernel | rfl),
   by refine ⟨acting (act7 { Eph.free with dlkind := 1, dlval := 1, policy := 2, tenant := 3 } false) [], act7 { Eph.free with dlkind := 1, dlval := 1, policy := 2, tenant := 3 } false, 17, ?main⟩; case main => ((and_intros <;> (try with_reducible rfl)); all_goals first | decide +kernel | rfl),
   by refine ⟨st [(SEQ_HOLD.TENANT, 6)], 2, ?main⟩; case main => ((and_intros <;> (try with_reducible rfl)); all_goals first | decide +kernel | rfl)⟩

/-- States and operands meet the hypotheses of ControlFlowMovesTheProgramCounter. -/
theorem witness_ControlFlowMovesTheProgramCounter :
  (∃ (s u : State) (g : Engine) (w : Nat),
    (s.executes g 0x18 w u) ∧ ((u.engine (engKey g)).stack.length < (if isLane g then 4 else 2))) ∧
  (∃ (s u : State) (g : Engine) (w : Nat),
    (s.executes g 0x18 w u) ∧ ((u.engine (engKey g)).stack.length < (if isLane g then 4 else 2))) ∧
  (∃ (s u : State) (g : Engine) (w pc : Nat) (rest : List Nat),
    (s.executes g 0x19 w u) ∧ ((u.engine (engKey g)).stack = pc :: rest) ∧ (pc < (if isLane g then 16384 else 256))) ∧
  (∃ (s u : State) (g : Engine) (w : Nat),
    (s.executes g 0x1B w u) ∧ ((isLane g = true → u.pc g + 1 < 16384))) ∧
  (∃ (s u : State) (g : Engine) (w : Nat),
    (s.executes g 0x1E w u) ∧ ((isLane g = true → (u.reg g (fRA w)).toNat < 16384))) ∧
  (∃ (s u : State) (k : Fin 8) (w : Nat),
    (s.executes (.lane k) 0x01 w u)) ∧
  (∃ (s u : State) (b : Fin 32) (n : Fin 5) (w : Nat),
    (s.executes (.tenon b n) 0x01 w u)) :=
  ⟨by refine ⟨laneOn (op_ 0x18 9) Eng.reset s0, issued l0 (op_ 0x18 9) (laneOn (op_ 0x18 9) Eng.reset s0), l0, op_ 0x18 9, ?main⟩; case main => ((and_intros <;> (try with_reducible rfl)); all_goals first | decide +kernel | rfl),
   by refine ⟨tenOn (op_ 0x18 9) { Eng.reset with stack := [3] } s0, issued t0 (op_ 0x18 9) (tenOn (op_ 0x18 9) { Eng.reset with stack := [3] } s0), t0, op_ 0x18 9, ?main⟩; case main => ((and_intros <;> (try with_reducible rfl)); all_goals first | decide +kernel | rfl),
   by refine ⟨laneOn (op_ 0x19 0) { Eng.reset with stack := [3, 4] } s0, issued l0 (op_ 0x19 0) (laneOn (op_ 0x19 0) { Eng.reset with stack := [3, 4] } s0), l0, op_ 0x19 0, 3, [4], ?main⟩; case main => ((and_intros <;> (try with_reducible rfl)); all_goals first | decide +kernel | rfl),
   by refine ⟨tenOn (op_ 0x1B 5) Eng.reset s0, issued t0 (op_ 0x1B 5) (tenOn (op_ 0x1B 5) Eng.reset s0), t0, op_ 0x1B 5, ?main⟩; case main => ((and_intros <;> (try with_reducible rfl)); all_goals first | decide +kernel | rfl),
   by refine ⟨laneOn (op_ 0x1E (2 ^ 24)) { Eng.reset with regs := [(1, 77)] } s0, issued l0 (op_ 0x1E (2 ^ 24)) (laneOn (op_ 0x1E (2 ^ 24)) { Eng.reset with regs := [(1, 77)] } s0), l0, op_ 0x1E (2 ^ 24), ?main⟩; case main => ((and_intros <;> (try with_reducible rfl)); all_goals first | decide +kernel | rfl),
   by refine ⟨laneOn (op_ 0x01 0) Eng.reset s0, issued l0 (op_ 0x01 0) (laneOn (op_ 0x01 0) Eng.reset s0), 0, op_ 0x01 0, ?main⟩; case main => ((and_intros <;> (try with_reducible rfl)); all_goals first | decide +kernel | rfl),
   by refine ⟨tenOn (op_ 0x01 0) Eng.reset s0, issued t0 (op_ 0x01 0) (tenOn (op_ 0x01 0) Eng.reset s0), 0, 0, op_ 0x01 0, ?main⟩; case main => ((and_intros <;> (try with_reducible rfl)); all_goals first | decide +kernel | rfl)⟩

/-- States and operands meet the hypotheses of ReturnStackLimitsAndReservedEncodings. -/
theorem witness_ReturnStackLimitsAndReservedEncodings :
  (∃ (s u : State) (g : Engine) (w : Nat) (r : Result) (cause : Nat),
    ((s.executes g 0x18 w u ∧ (if isLane g then 4 else 2) ≤ (u.engine (engKey g)).stack.length ∧ r = exec (.call g) s ∧ cause = 4) ∨ (s.executes g 0x19 w u ∧ (u.engine (engKey g)).stack = [] ∧ r = exec (.ret g) s ∧ cause = 5) ∨ (s.runs g = true ∧ s.fetchWord g = (w, false) ∧ legalWord (isLane g) w = false ∧ u = (s.issue g).countFetch g ∧ (r = exec (.nop g) s ∨ r = exec (.call g) s ∨ r = exec (.ret g) s) ∧ cause = 2))) ∧
  (∃ (s u : State) (g : Engine) (w : Nat) (r : Result) (cause : Nat),
    ((s.executes g 0x18 w u ∧ (if isLane g then 4 else 2) ≤ (u.engine (engKey g)).stack.length ∧ r = exec (.call g) s ∧ cause = 4) ∨ (s.executes g 0x19 w u ∧ (u.engine (engKey g)).stack = [] ∧ r = exec (.ret g) s ∧ cause = 5) ∨ (s.runs g = true ∧ s.fetchWord g = (w, false) ∧ legalWord (isLane g) w = false ∧ u = (s.issue g).countFetch g ∧ (r = exec (.nop g) s ∨ r = exec (.call g) s ∨ r = exec (.ret g) s) ∧ cause = 2))) ∧
  (∃ (s u : State) (g : Engine) (w : Nat) (r : Result) (cause : Nat),
    ((s.executes g 0x18 w u ∧ (if isLane g then 4 else 2) ≤ (u.engine (engKey g)).stack.length ∧ r = exec (.call g) s ∧ cause = 4) ∨ (s.executes g 0x19 w u ∧ (u.engine (engKey g)).stack = [] ∧ r = exec (.ret g) s ∧ cause = 5) ∨ (s.runs g = true ∧ s.fetchWord g = (w, false) ∧ legalWord (isLane g) w = false ∧ u = (s.issue g).countFetch g ∧ (r = exec (.nop g) s ∨ r = exec (.call g) s ∨ r = exec (.ret g) s) ∧ cause = 2))) :=
  ⟨by refine ⟨tenOn (op_ 0x18 9) { Eng.reset with stack := [3, 4] } s0, issued t0 (op_ 0x18 9) (tenOn (op_ 0x18 9) { Eng.reset with stack := [3, 4] } s0), t0, op_ 0x18 9, exec (.call t0) (tenOn (op_ 0x18 9) { Eng.reset with stack := [3, 4] } s0), 4 , ?main⟩; case main => ((and_intros <;> (try with_reducible rfl)); all_goals first | ((left; and_intros <;> first | rfl | decide +kernel)) | decide +kernel | rfl),
   by refine ⟨laneOn (op_ 0x19 0) Eng.reset s0, issued l0 (op_ 0x19 0) (laneOn (op_ 0x19 0) Eng.reset s0), l0, op_ 0x19 0, exec (.ret l0) (laneOn (op_ 0x19 0) Eng.reset s0), 5 , ?main⟩; case main => ((and_intros <;> (try with_reducible rfl)); all_goals first | ((right; left; and_intros <;> first | rfl | decide +kernel)) | decide +kernel | rfl),
   by refine ⟨laneOn (op_ 0x30 0) Eng.reset s0, ((laneOn (op_ 0x30 0) Eng.reset s0).issue l0).countFetch l0, l0, op_ 0x30 0, exec (.nop l0) (laneOn (op_ 0x30 0) Eng.reset s0), 2 , ?main⟩; case main => ((and_intros <;> (try with_reducible rfl)); all_goals first | ((right; right; exact ⟨by decide +kernel, by decide +kernel, by decide +kernel, rfl, Or.inl rfl, rfl⟩)) | decide +kernel | rfl)⟩

/-- States and operands meet the hypotheses of ShiftAmountsOfTheWidthAndMore. -/
theorem witness_ShiftAmountsOfTheWidthAndMore :
  (∃ (s u : State) (g : Engine) (w : Nat) (a b : Word),
    (a = u.reg g (fRA w)) ∧ (b = u.reg g (fRB w)) ∧ (48 ≤ b.toNat % 64) ∧ ((isLane g = true → u.pc g + 1 < 16384)) ∧ (s.executes g 0x0A w u)) ∧
  (∃ (s u : State) (g : Engine) (w : Nat) (a b : Word),
    (a = u.reg g (fRA w)) ∧ (b = u.reg g (fRB w)) ∧ (48 ≤ b.toNat % 64) ∧ ((isLane g = true → u.pc g + 1 < 16384)) ∧ (s.executes g 0x0B w u)) ∧
  (∃ (s u : State) (g : Engine) (w : Nat) (a b : Word),
    (a = u.reg g (fRA w)) ∧ (b = u.reg g (fRB w)) ∧ (48 ≤ b.toNat % 64) ∧ ((isLane g = true → u.pc g + 1 < 16384)) ∧ (s.executes g 0x0C w u)) ∧
  (∃ (w : Nat) (lane : Bool),
    ((opcode w = 0x11 ∨ opcode w = 0x12 ∨ opcode w = 0x13) ∧ (48 ≤ bits w 5 0 ∨ bits w 23 6 ≠ 0) ∨ (opcode w = 0x1C ∨ opcode w = 0x1D) ∧ 47 < fLSB w + fWM1 w)) ∧
  (∃ (w : Nat) (lane : Bool),
    ((opcode w = 0x11 ∨ opcode w = 0x12 ∨ opcode w = 0x13) ∧ (48 ≤ bits w 5 0 ∨ bits w 23 6 ≠ 0) ∨ (opcode w = 0x1C ∨ opcode w = 0x1D) ∧ 47 < fLSB w + fWM1 w)) ∧
  (∃ (w : Nat) (lane : Bool) (s : State) (g : Engine) (c : Instr),
    (c ∈ [Instr.shli g, .shri g, .sari g, .ext g, .ins g]) ∧ ((opcode w = 0x11 ∨ opcode w = 0x12 ∨ opcode w = 0x13) ∧ (48 ≤ bits w 5 0 ∨ bits w 23 6 ≠ 0) ∨ (opcode w = 0x1C ∨ opcode w = 0x1D) ∧ 47 < fLSB w + fWM1 w) ∧ (isLane g = lane) ∧ (s.runs g = true) ∧ (s.fetchWord g = (w, false))) :=
  ⟨by refine ⟨laneOn (op_ 0x0A (2 ^ 20)) { Eng.reset with regs := [(1, 50)] } s0, issued l0 (op_ 0x0A (2 ^ 20)) (laneOn (op_ 0x0A (2 ^ 20)) { Eng.reset with regs := [(1, 50)] } s0), l0, op_ 0x0A (2 ^ 20), 0, 50, ?main⟩; case main => ((and_intros <;> (try with_reducible rfl)); all_goals first | decide +kernel | rfl),
   by refine ⟨tenOn (op_ 0x0B (2 ^ 20)) { Eng.reset with regs := [(0, 9), (1, 48)] } s0, issued t0 (op_ 0x0B (2 ^ 20)) (tenOn (op_ 0x0B (2 ^ 20)) { Eng.reset with regs := [(0, 9), (1, 48)] } s0), t0, op_ 0x0B (2 ^ 20), 9, 48, ?main⟩; case main => ((and_intros <;> (try with_reducible rfl)); all_goals first | decide +kernel | rfl),
   by refine ⟨laneOn (op_ 0x0C (2 ^ 20)) { Eng.reset with regs := [(0, 2 ^ 47), (1, 63)] } s0, issued l0 (op_ 0x0C (2 ^ 20)) (laneOn (op_ 0x0C (2 ^ 20)) { Eng.reset with regs := [(0, 2 ^ 47), (1, 63)] } s0), l0, op_ 0x0C (2 ^ 20), 2 ^ 47, 63, ?main⟩; case main => ((and_intros <;> (try with_reducible rfl)); all_goals first | decide +kernel | rfl),
   by refine ⟨op_ 0x11 48, true, ?main⟩; case main => ((and_intros <;> (try with_reducible rfl)); all_goals first | decide +kernel | rfl),
   by refine ⟨op_ 0x1C (40 * 64 + 8), false, ?main⟩; case main => ((and_intros <;> (try with_reducible rfl)); all_goals first | decide +kernel | rfl),
   by refine ⟨op_ 0x12 64, true, laneOn (op_ 0x12 64) Eng.reset s0, l0, .shri l0, ?main⟩; case main => ((and_intros <;> (try with_reducible rfl)); all_goals first | decide +kernel | rfl)⟩

/-- States and operands meet the hypotheses of LanesAccessChannels. -/
theorem witness_LanesAccessChannels :
  (∃ (s x u v : State) (k : Fin 8) (w ch i : Nat) (c : Entry) (g : Engine) (lost : Bool),
    (g = .lane k) ∧ (ch = (x.reg g (fRA w)).toNat % 2 ^ 16) ∧ (u = x.lowerWords k ch) ∧ (i = (u.reg g (fRB w)).toNat % 2 ^ 16) ∧ (u.pc g + 1 < 16384) ∧ (ch < 0xFFF0) ∧ (u.lookup ch = some (v, c)) ∧ (channelOk ch (u.engine k.val).tenant c = true) ∧ (lost = (!v.homeUp || !v.alive 0)) ∧ (s.executes g 0x40 w x) ∧ (i < c.extent) ∧ (lost = false) ∧ (v.servesNow 0 false ch i 1 = true) ∧ (v.homeBad (64 * c.dataPtr + 8 * i) 8 = false)) ∧
  (∃ (s x u v : State) (k : Fin 8) (w ch i : Nat) (c : Entry) (g : Engine) (lost : Bool),
    (g = .lane k) ∧ (ch = (x.reg g (fRA w)).toNat % 2 ^ 16) ∧ (u = x.lowerWords k ch) ∧ (i = (u.reg g (fRB w)).toNat % 2 ^ 16) ∧ (u.pc g + 1 < 16384) ∧ (ch < 0xFFF0) ∧ (u.lookup ch = some (v, c)) ∧ (channelOk ch (u.engine k.val).tenant c = true) ∧ (lost = (!v.homeUp || !v.alive 0)) ∧ (s.executes g 0x40 w x) ∧ (i < c.extent) ∧ (lost = false) ∧ (v.servesNow 0 false ch i 1 = true)) ∧
  (∃ (s x u v : State) (k : Fin 8) (w ch i : Nat) (c : Entry) (g : Engine) (lost : Bool) (ue : Bool),
    (g = .lane k) ∧ (ch = (x.reg g (fRA w)).toNat % 2 ^ 16) ∧ (u = x.lowerWords k ch) ∧ (i = (u.reg g (fRB w)).toNat % 2 ^ 16) ∧ (u.pc g + 1 < 16384) ∧ (ch < 0xFFF0) ∧ (u.lookup ch = some (v, c)) ∧ (channelOk ch (u.engine k.val).tenant c = true) ∧ (lost = (!v.homeUp || !v.alive 0)) ∧ (s.executes g 0x40 w x) ∧ (i < c.extent) ∧ (lost = false) ∧ (v.servesNow 0 false ch i 1 = false)) ∧
  (∃ (s x u v : State) (k : Fin 8) (w ch i : Nat) (c : Entry) (g : Engine) (lost : Bool),
    (g = .lane k) ∧ (ch = (x.reg g (fRA w)).toNat % 2 ^ 16) ∧ (u = x.lowerWords k ch) ∧ (i = (u.reg g (fRB w)).toNat % 2 ^ 16) ∧ (u.pc g + 1 < 16384) ∧ (ch < 0xFFF0) ∧ (u.lookup ch = some (v, c)) ∧ (channelOk ch (u.engine k.val).tenant c = true) ∧ (lost = (!v.homeUp || !v.alive 0)) ∧ (s.executes g 0x41 w x) ∧ (i < c.extent)) ∧
  (∃ (s x u v : State) (k : Fin 8) (w ch i : Nat) (c : Entry) (g : Engine) (lost : Bool),
    (g = .lane k) ∧ (ch = (x.reg g (fRA w)).toNat % 2 ^ 16) ∧ (u = x.lowerWords k ch) ∧ (i = (u.reg g (fRB w)).toNat % 2 ^ 16) ∧ (u.pc g + 1 < 16384) ∧ (ch < 0xFFF0) ∧ (u.lookup ch = some (v, c)) ∧ (channelOk ch (u.engine k.val).tenant c = true) ∧ (lost = (!v.homeUp || !v.alive 0)) ∧ (s.executes g 0x42 w x) ∧ (c.type = tCHAIN ∨ c.type = tSTREAM ∨ c.type = tMBUS ∨ c.type = tTUNNEL)) ∧
  (∃ (s x u v : State) (k : Fin 8) (w ch i : Nat) (c : Entry) (g : Engine) (lost : Bool),
    (g = .lane k) ∧ (ch = (x.reg g (fRA w)).toNat % 2 ^ 16) ∧ (u = x.lowerWords k ch) ∧ (i = (u.reg g (fRB w)).toNat % 2 ^ 16) ∧ (u.pc g + 1 < 16384) ∧ (ch < 0xFFF0) ∧ (u.lookup ch = some (v, c)) ∧ (channelOk ch (u.engine k.val).tenant c = true) ∧ (lost = (!v.homeUp || !v.alive 0)) ∧ (s.executes g 0x48 w x) ∧ (s.openActs < 32) ∧ (v.voteOk ch c = true)) ∧
  (∃ (s u : State) (k : Fin 8) (id : Nat) (g : Engine),
    (g = .lane k) ∧ ((s.engine k.val).wait = .movc id) ∧ (s.pc g + 1 < 16384) ∧ (u = s.setEngine k.val { s.engine k.val with wait := .none, ready := s.now * 64 }) ∧ (s.op id = none)) ∧
  (∃ (s u : State) (k : Fin 8) (id : Nat) (g : Engine) (o : Op),
    (g = .lane k) ∧ ((s.engine k.val).wait = .movc id) ∧ (s.pc g + 1 < 16384) ∧ (u = s.setEngine k.val { s.engine k.val with wait := .none, ready := s.now * 64 }) ∧ (s.op id = some o) ∧ (o.closed = true)) ∧
  (∃ (s u : State) (k : Fin 8) (w f : Nat) (g : Engine),
    (g = .lane k) ∧ (s.executes g 0x49 w u) ∧ (s.openActs < 32) ∧ (u.pc g + 1 < 16384) ∧ (f = bits w 12 8)) :=
  ⟨by refine ⟨lane0 (op_ 0x40 0), issued l0 (op_ 0x40 0) (lane0 (op_ 0x40 0)), ?v10, found (op_ 0x40 0) (lane0 (op_ 0x40 0)), 0, op_ 0x40 0, 0, 0, stream4, l0, false, ?main⟩; case main => ((and_intros <;> (try with_reducible rfl)); all_goals first | decide +kernel | rfl),
   by refine ⟨lane0 (op_ 0x40 0), issued l0 (op_ 0x40 0) (lane0 (op_ 0x40 0)), ?v11, found (op_ 0x40 0) (lane0 (op_ 0x40 0)), 0, op_ 0x40 0, 0, 0, stream4, l0, false, ?main⟩; case main => ((and_intros <;> (try with_reducible rfl)); all_goals first | decide +kernel | rfl),
   by refine ⟨busy (lane0 (op_ 0x40 0)), issued l0 (op_ 0x40 0) (busy (lane0 (op_ 0x40 0))), ?v12, found (op_ 0x40 0) (busy (lane0 (op_ 0x40 0))), 0, op_ 0x40 0, 0, 0, stream4, l0, false, false, ?main⟩; case main => ((and_intros <;> (try with_reducible rfl)); all_goals first | decide +kernel | rfl),
   by refine ⟨lane0 (op_ 0x41 0), issued l0 (op_ 0x41 0) (lane0 (op_ 0x41 0)), ?v13, found (op_ 0x41 0) (lane0 (op_ 0x41 0)), 0, op_ 0x41 0, 0, 0, stream4, l0, false, ?main⟩; case main => ((and_intros <;> (try with_reducible rfl)); all_goals first | decide +kernel | rfl),
   by refine ⟨lane0 (op_ 0x42 0), issued l0 (op_ 0x42 0) (lane0 (op_ 0x42 0)), ?v14, found (op_ 0x42 0) (lane0 (op_ 0x42 0)), 0, op_ 0x42 0, 0, 0, stream4, l0, false, ?main⟩; case main => ((and_intros <;> (try with_reducible rfl)); all_goals first | decide +kernel | rfl),
   by refine ⟨lane0 (op_ 0x48 0), issued l0 (op_ 0x48 0) (lane0 (op_ 0x48 0)), ?v15, found (op_ 0x48 0) (lane0 (op_ 0x48 0)), 0, op_ 0x48 0, 0, 0, stream4, l0, false, ?main⟩; case main => ((and_intros <;> (try with_reducible rfl)); all_goals first | decide +kernel | rfl),
   by refine ⟨s0.setEngine 0 { Eng.reset with wait := .movc 1 }, ?v16, 0, 1, l0, ?main⟩; case main => ((and_intros <;> (try with_reducible rfl)); all_goals first | decide +kernel | rfl),
   by refine ⟨(withTbl { Tbl.reset with ops := [{ op1 with closed := true, purpose := .movc 0 }] } []).setEngine 0 { Eng.reset with wait := .movc 1 }, ?v17, 0, 1, l0, { op1 with closed := true, purpose := .movc 0 }, ?main⟩; case main => ((and_intros <;> (try with_reducible rfl)); all_goals first | decide +kernel | rfl),
   by refine ⟨laneOn (op_ 0x49 (5 * 256 + 2)) Eng.reset s0, issued l0 (op_ 0x49 (5 * 256 + 2)) (laneOn (op_ 0x49 (5 * 256 + 2)) Eng.reset s0), 0, op_ 0x49 (5 * 256 + 2), 5, l0, ?main⟩; case main => ((and_intros <;> (try with_reducible rfl)); all_goals first | decide +kernel | rfl)⟩

/-- States and operands meet the hypotheses of LanesActOnEntries. -/
theorem witness_LanesActOnEntries :
  (∃ (s u v : State) (k : Fin 8) (w i : Nat) (ue : Bool) (g : Engine) (e : Eph) (op : Nat) (c : Instr),
    (g = .lane k) ∧ (v.pc g + 1 < 16384) ∧ (i = (u.reg g (fRA w)).toNat % 2 ^ 18) ∧ (v = ((u.dispatchDueOf (fun j => j == i) 1).touchEntry i ue).lowerEntries k i) ∧ (e = v.entry i) ∧ ((v.engine k.val).tenant ≠ 0) ∧ (e.tenant ≠ (v.engine k.val).tenant) ∧ (s.executes g op w u) ∧ (op = 0x43 ∧ c = .fire k ue ∨ op = 0x44 ∧ c = .arm k ue ∨ op = 0x45 ∧ c = .disarm k ue)) ∧
  (∃ (s u v : State) (k : Fin 8) (w i : Nat) (ue : Bool) (g : Engine) (e : Eph),
    (g = .lane k) ∧ (v.pc g + 1 < 16384) ∧ (i = (u.reg g (fRA w)).toNat % 2 ^ 18) ∧ (v = ((u.dispatchDueOf (fun j => j == i) 1).touchEntry i ue).lowerEntries k i) ∧ (e = v.entry i) ∧ ((v.engine k.val).tenant = 0 ∨ e.tenant = (v.engine k.val).tenant) ∧ (Tab.get 0 v.seq.owner i = (if e.state = eFREE then 0 else e.tenant + 1)) ∧ (s.executes g 0x43 w u)) ∧
  (∃ (s u v : State) (k : Fin 8) (w i : Nat) (ue : Bool) (g : Engine) (e : Eph),
    (g = .lane k) ∧ (v.pc g + 1 < 16384) ∧ (i = (u.reg g (fRA w)).toNat % 2 ^ 18) ∧ (v = ((u.dispatchDueOf (fun j => j == i) 1).touchEntry i ue).lowerEntries k i) ∧ (e = v.entry i) ∧ ((v.engine k.val).tenant = 0 ∨ e.tenant = (v.engine k.val).tenant) ∧ (Tab.get 0 v.seq.owner i = (if e.state = eFREE then 0 else e.tenant + 1)) ∧ (s.executes g 0x43 w u)) ∧
  (∃ (s u v : State) (k : Fin 8) (w i : Nat) (ue : Bool) (g : Engine) (e : Eph),
    (g = .lane k) ∧ (v.pc g + 1 < 16384) ∧ (i = (u.reg g (fRA w)).toNat % 2 ^ 18) ∧ (v = ((u.dispatchDueOf (fun j => j == i) 1).touchEntry i ue).lowerEntries k i) ∧ (e = v.entry i) ∧ ((v.engine k.val).tenant = 0 ∨ e.tenant = (v.engine k.val).tenant) ∧ (Tab.get 0 v.seq.owner i = (if e.state = eFREE then 0 else e.tenant + 1)) ∧ (s.executes g 0x44 w u)) ∧
  (∃ (s u v : State) (k : Fin 8) (w i : Nat) (ue : Bool) (g : Engine) (e : Eph),
    (g = .lane k) ∧ (v.pc g + 1 < 16384) ∧ (i = (u.reg g (fRA w)).toNat % 2 ^ 18) ∧ (v = ((u.dispatchDueOf (fun j => j == i) 1).touchEntry i ue).lowerEntries k i) ∧ (e = v.entry i) ∧ ((v.engine k.val).tenant = 0 ∨ e.tenant = (v.engine k.val).tenant) ∧ (Tab.get 0 v.seq.owner i = (if e.state = eFREE then 0 else e.tenant + 1)) ∧ (s.executes g 0x45 w u)) :=
  ⟨by refine ⟨laneEph (op_ 0x43 0) { Eph.free with state := eIDLE, tenant := 2 } 1, issued l0 (op_ 0x43 0) (laneEph (op_ 0x43 0) { Eph.free with state := eIDLE, tenant := 2 } 1), ?v18, 0, op_ 0x43 0, 0, false, l0, { Eph.free with state := eIDLE, tenant := 2 }, 0x43, .fire 0 false, ?main⟩; case main => ((and_intros <;> (try with_reducible rfl)); all_goals first | decide +kernel | rfl),
   by refine ⟨laneEph (op_ 0x43 0) { Eph.free with state := eIDLE } 0, issued l0 (op_ 0x43 0) (laneEph (op_ 0x43 0) { Eph.free with state := eIDLE } 0), ?v19, 0, op_ 0x43 0, 0, false, l0, { Eph.free with state := eIDLE }, ?main⟩; case main => ((and_intros <;> (try with_reducible rfl)); all_goals first | decide +kernel | rfl),
   by refine ⟨laneEph (op_ 0x43 0) Eph.free 0, issued l0 (op_ 0x43 0) (laneEph (op_ 0x43 0) Eph.free 0), ?v20, 0, op_ 0x43 0, 0, false, l0, Eph.free, ?main⟩; case main => ((and_intros <;> (try with_reducible rfl)); all_goals first | decide +kernel | rfl),
   by refine ⟨laneEph (op_ 0x44 0) { Eph.free with state := eIDLE, trig := 90 } 0, issued l0 (op_ 0x44 0) (laneEph (op_ 0x44 0) { Eph.free with state := eIDLE, trig := 90 } 0), ?v21, 0, op_ 0x44 0, 0, false, l0, { Eph.free with state := eIDLE, trig := 90 }, ?main⟩; case main => ((and_intros <;> (try with_reducible rfl)); all_goals first | decide +kernel | rfl),
   by refine ⟨laneEph (op_ 0x45 0) { Eph.free with state := eARMED } 0, issued l0 (op_ 0x45 0) (laneEph (op_ 0x45 0) { Eph.free with state := eARMED } 0), ?v22, 0, op_ 0x45 0, 0, false, l0, { Eph.free with state := eARMED }, ?main⟩; case main => ((and_intros <;> (try with_reducible rfl)); all_goals first | decide +kernel | rfl)⟩

/-- States and operands meet the hypotheses of LanesWaitForPhaseAndTime. -/
theorem witness_LanesWaitForPhaseAndTime :
  (∃ (s u : State) (k : Fin 8) (w : Nat) (g : Engine) (d target : Nat) (fwd : Bool),
    (g = .lane k) ∧ (u.pc g + 1 < 16384) ∧ (s.executes g 0x46 w u) ∧ (d = bits w 1 0) ∧ (fwd = (if bits w 3 2 = 3 then u.fwd d else decide (bits w 3 2 = 1))) ∧ (target = (u.reg g (fRA w)).toNat) ∧ (u.phState d ≠ phTRACK ∨ (u.dom d).eff = none)) ∧
  (∃ (s u : State) (k : Fin 8) (w : Nat) (g : Engine) (d target : Nat) (fwd : Bool) (m : Model),
    (g = .lane k) ∧ (u.pc g + 1 < 16384) ∧ (s.executes g 0x46 w u) ∧ (d = bits w 1 0) ∧ (fwd = (if bits w 3 2 = 3 then u.fwd d else decide (bits w 3 2 = 1))) ∧ (target = (u.reg g (fRA w)).toNat) ∧ (u.phState d = phTRACK) ∧ ((u.dom d).eff = some m) ∧ (reached fwd m target u.ticks = true)) ∧
  (∃ (s u : State) (k : Fin 8) (w : Nat) (g : Engine) (d target : Nat) (fwd : Bool) (m : Model),
    (g = .lane k) ∧ (u.pc g + 1 < 16384) ∧ (s.executes g 0x46 w u) ∧ (d = bits w 1 0) ∧ (fwd = (if bits w 3 2 = 3 then u.fwd d else decide (bits w 3 2 = 1))) ∧ (target = (u.reg g (fRA w)).toNat) ∧ (u.phState d = phTRACK) ∧ ((u.dom d).eff = some m) ∧ (reached fwd m target u.ticks = false)) ∧
  (∃ (s u : State) (k : Fin 8) (w : Nat) (g : Engine),
    (g = .lane k) ∧ (u.pc g + 1 < 16384) ∧ (s.executes g 0x47 w u)) ∧
  (∃ (s u : State) (k : Fin 8) (c : Instr) (val rd : Nat),
    (s.pc (.lane k) + 1 < 16384) ∧ ((c = .phaseWaitEnd k ∧ (s.engine k.val).wait = .phaseOut val rd ∧ u = s) ∨ (∃ d target fwd m n, c = .phaseWaitEnd k ∧ (s.engine k.val).wait = .phase d target fwd rd ∧ (s.dom d).eff = some m ∧ val = 0 ∧ (reached fwd m target s.ticks = true ∧ u = s ∨ reached fwd m target s.ticks = false ∧ cross fwd m target s.ticks (2 ^ 46) = some n ∧ u = s.advance n)) ∨ (∃ tick, c = .timeWaitEnd k ∧ (s.engine k.val).wait = .time tick rd ∧ u = s.advance (dt tick s.ticks).toNat ∧ val = 0))) ∧
  (∃ (s u : State) (k : Fin 8) (c : Instr) (val rd : Nat),
    (s.pc (.lane k) + 1 < 16384) ∧ ((c = .phaseWaitEnd k ∧ (s.engine k.val).wait = .phaseOut val rd ∧ u = s) ∨ (∃ d target fwd m n, c = .phaseWaitEnd k ∧ (s.engine k.val).wait = .phase d target fwd rd ∧ (s.dom d).eff = some m ∧ val = 0 ∧ (reached fwd m target s.ticks = true ∧ u = s ∨ reached fwd m target s.ticks = false ∧ cross fwd m target s.ticks (2 ^ 46) = some n ∧ u = s.advance n)) ∨ (∃ tick, c = .timeWaitEnd k ∧ (s.engine k.val).wait = .time tick rd ∧ u = s.advance (dt tick s.ticks).toNat ∧ val = 0))) ∧
  (∃ (s u : State) (k : Fin 8) (c : Instr) (val rd : Nat),
    (s.pc (.lane k) + 1 < 16384) ∧ ((c = .phaseWaitEnd k ∧ (s.engine k.val).wait = .phaseOut val rd ∧ u = s) ∨ (∃ d target fwd m n, c = .phaseWaitEnd k ∧ (s.engine k.val).wait = .phase d target fwd rd ∧ (s.dom d).eff = some m ∧ val = 0 ∧ (reached fwd m target s.ticks = true ∧ u = s ∨ reached fwd m target s.ticks = false ∧ cross fwd m target s.ticks (2 ^ 46) = some n ∧ u = s.advance n)) ∨ (∃ tick, c = .timeWaitEnd k ∧ (s.engine k.val).wait = .time tick rd ∧ u = s.advance (dt tick s.ticks).toNat ∧ val = 0))) :=
  ⟨by refine ⟨laneAt (op_ 0x46 4), issued l0 (op_ 0x46 4) (laneAt (op_ 0x46 4)), 0, op_ 0x46 4, l0, 0, 0, true, ?main⟩; case main => ((and_intros <;> (try with_reducible rfl)); all_goals first | decide +kernel | rfl),
   by refine ⟨laneAt (op_ 0x46 9), issued l0 (op_ 0x46 9) (laneAt (op_ 0x46 9)), 0, op_ 0x46 9, l0, 1, 0, false, model1 (2 ^ 40), ?main⟩; case main => ((and_intros <;> (try with_reducible rfl)); all_goals first | decide +kernel | rfl),
   by refine ⟨laneAt (op_ 0x46 5), issued l0 (op_ 0x46 5) (laneAt (op_ 0x46 5)), 0, op_ 0x46 5, l0, 1, 0, true, model1 (2 ^ 40), ?main⟩; case main => ((and_intros <;> (try with_reducible rfl)); all_goals first | decide +kernel | rfl),
   by refine ⟨laneAt (op_ 0x47 0), issued l0 (op_ 0x47 0) (laneAt (op_ 0x47 0)), 0, op_ 0x47 0, l0, ?main⟩; case main => ((and_intros <;> (try with_reducible rfl)); all_goals first | decide +kernel | rfl),
   by refine ⟨s0.setEngine 0 { Eng.reset with wait := .phaseOut 3 2 }, s0.setEngine 0 { Eng.reset with wait := .phaseOut 3 2 }, 0, .phaseWaitEnd 0, 3, 2 , ?main⟩; case main => ((and_intros <;> (try with_reducible rfl)); all_goals first | ((left; exact ⟨rfl, rfl, rfl⟩)) | decide +kernel | rfl),
   by refine ⟨(tracking (2 ^ 40)).setEngine 0 { Eng.reset with wait := .phase 1 0 true 2 }, ((tracking (2 ^ 40)).setEngine 0 { Eng.reset with wait := .phase 1 0 true 2 }).advance 100, 0, .phaseWaitEnd 0, 0, 2 , ?main⟩; case main => ((and_intros <;> (try with_reducible rfl)); all_goals first | ((right; left; exact ⟨1, 0, true, model1 (2 ^ 40), 100, rfl, rfl, rfl, rfl, Or.inr ⟨by decide, by decide +kernel, rfl⟩⟩)) | decide +kernel | rfl),
   by refine ⟨s0.setEngine 0 { Eng.reset with wait := .time 60 2 }, (s0.setEngine 0 { Eng.reset with wait := .time 60 2 }).advance 60, 0, .timeWaitEnd 0, 0, 2 , ?main⟩; case main => ((and_intros <;> (try with_reducible rfl)); all_goals first | ((right; right; exact ⟨60, rfl, rfl, rfl, rfl⟩)) | decide +kernel | rfl)⟩

/-- States and operands meet the hypotheses of LanesReadTimeAndPhase. -/
theorem witness_LanesReadTimeAndPhase :
  (∃ (s u : State) (k : Fin 8) (w : Nat) (g : Engine),
    (g = .lane k) ∧ (u.pc g + 1 < 16384) ∧ (s.executes g 0x4B w u)) ∧
  (∃ (s u : State) (k : Fin 8) (w : Nat) (g : Engine),
    (g = .lane k) ∧ (u.pc g + 1 < 16384) ∧ (s.executes g 0x4C w u)) :=
  ⟨by refine ⟨laneAt (op_ 0x4B 0), issued l0 (op_ 0x4B 0) (laneAt (op_ 0x4B 0)), 0, op_ 0x4B 0, l0, ?main⟩; case main => ((and_intros <;> (try with_reducible rfl)); all_goals first | decide +kernel | rfl),
   by refine ⟨laneAt (op_ 0x4C 1), issued l0 (op_ 0x4C 1) (laneAt (op_ 0x4C 1)), 0, op_ 0x4C 1, l0, ?main⟩; case main => ((and_intros <;> (try with_reducible rfl)); all_goals first | decide +kernel | rfl)⟩

/-- States and operands meet the hypotheses of SignalReportsAProgramsMessage. -/
theorem witness_SignalReportsAProgramsMessage :
  (∃ (s u : State) (k : Fin 8) (w : Nat) (g : Engine),
    (g = .lane k) ∧ (s.executes g 0x4A w u) ∧ (bits w 7 6 ≠ 3 ∨ (u.engine k.val).tenant = 0) ∧ (u.pc g + 1 < 16384)) ∧
  (∃ (s u : State) (k : Fin 8) (w : Nat) (g : Engine),
    (g = .lane k) ∧ (s.executes g 0x4A w u) ∧ (bits w 7 6 = 3) ∧ ((u.engine k.val).tenant ≠ 0)) :=
  ⟨by refine ⟨laneAt (op_ 0x4A 0), issued l0 (op_ 0x4A 0) (laneAt (op_ 0x4A 0)), 0, op_ 0x4A 0, l0, ?main⟩; case main => ((and_intros <;> (try with_reducible rfl)); all_goals first | decide +kernel | rfl),
   by refine ⟨laneOn (op_ 0x4A 192) { Eng.reset with tenant := 4 } s0, issued l0 (op_ 0x4A 192) (laneOn (op_ 0x4A 192) { Eng.reset with tenant := 4 } s0), 0, op_ 0x4A 192, l0, ?main⟩; case main => ((and_intros <;> (try with_reducible rfl)); all_goals first | decide +kernel | rfl)⟩

/-- States and operands meet the hypotheses of TenonsShiftOnTheirClock. -/
theorem witness_TenonsShiftOnTheirClock :
  (∃ (s u : State) (b : Fin 32) (n : Fin 5) (w c : Nat) (g : Engine) (own : Bool) (samples : List (BitVec 16)) (shift : Instr) (taken : List (BitVec 16)),
    (g = .tenon b n) ∧ (c = (u.engine (engKey g)).ready / 250) ∧ (own = u.ownClock b.val n.val) ∧ (s.executes g 0x80 w u ∨ s.executes g 0x81 w u) ∧ (opcode w = 0x80 ∧ shift = .shifto b n ∧ taken = [] ∨ opcode w = 0x81 ∧ shift = .shifti b n samples ∧ taken = samples) ∧ (u.genStopped b.val n.val = true)) ∧
  (∃ (s u : State) (b : Fin 32) (n : Fin 5) (w c : Nat) (g : Engine) (own : Bool) (samples : List (BitVec 16)) (shift : Instr) (taken : List (BitVec 16)),
    (g = .tenon b n) ∧ (c = (u.engine (engKey g)).ready / 250) ∧ (own = u.ownClock b.val n.val) ∧ (s.executes g 0x80 w u ∨ s.executes g 0x81 w u) ∧ (opcode w = 0x80 ∧ shift = .shifto b n ∧ taken = [] ∨ opcode w = 0x81 ∧ shift = .shifti b n samples ∧ taken = samples) ∧ (u.genStopped b.val n.val = false) ∧ (opcode w = 0x81 ∨ w.testBit 17 = false) ∧ (u.on (TEN_CFG.TGT b.val n.val) = true)) ∧
  (∃ (s u : State) (b : Fin 32) (n : Fin 5) (w c : Nat) (g : Engine) (own : Bool) (samples : List (BitVec 16)) (shift : Instr) (taken : List (BitVec 16)),
    (g = .tenon b n) ∧ (c = (u.engine (engKey g)).ready / 250) ∧ (own = u.ownClock b.val n.val) ∧ (s.executes g 0x80 w u ∨ s.executes g 0x81 w u) ∧ (opcode w = 0x80 ∧ shift = .shifto b n ∧ taken = [] ∨ opcode w = 0x81 ∧ shift = .shifti b n samples ∧ taken = samples) ∧ (u.genStopped b.val n.val = false) ∧ (opcode w = 0x81 ∨ w.testBit 17 = false) ∧ (u.on (TEN_CFG.TGT b.val n.val) = false)) ∧
  (∃ (s : State) (b : Fin 32) (n : Fin 5) (w pins d p : Nat) (sr : Word),
    (sr = Tab.get 0 (s.engine (tenKey b.val n.val)).regs 4) ∧ (d = shWidth w) ∧ (p = bits w 23 20)) ∧
  (∃ (s : State) (b : Fin 32) (n : Fin 5) (w pins d p : Nat) (sr : Word) (k : _),
    (sr = Tab.get 0 (s.engine (tenKey b.val n.val)).regs 4) ∧ (d = shWidth w) ∧ (p = bits w 23 20) ∧ (k ≠ tenKey b.val n.val)) ∧
  (∃ (s : State) (b : Fin 32) (n : Fin 5) (w pins d p : Nat) (sr : Word),
    (sr = Tab.get 0 (s.engine (tenKey b.val n.val)).regs 4) ∧ (d = shWidth w) ∧ (p = bits w 23 20)) ∧
  (∃ (s : State) (b : Fin 32) (n : Fin 5) (x : Shift),
    (s.tenState b.val n.val = tnRUNNING) ∧ (s.ownClock b.val n.val = true) ∧ ((s.engine (tenKey b.val n.val)).wait = .shift x) ∧ (shSteps x.word ≤ 48)) ∧
  (∃ (s u v : State) (b : Fin 32) (n : Fin 5) (edges m N : Nat) (g : Engine) (sr : Word) (x : Shift) (samples : List (BitVec 16)),
    (g = .tenon b n) ∧ (u = s.frameSteps b.val n.val edges samples) ∧ (v = u.resumeNow b n) ∧ (N = shSteps x.word) ∧ ((s.engine (engKey g)).wait = .select sr x (some m)) ∧ (shPushes x.word = false)) ∧
  (∃ (s : State) (b : Fin 32) (n : Fin 5) (edges : Nat) (g : Engine) (sr : Word) (x : Shift) (samples : List (BitVec 16)),
    (g = .tenon b n) ∧ ((s.engine (engKey g)).wait = .select sr x none)) ∧
  (∃ (s u : State) (b : Fin 32) (n : Fin 5) (w : Nat) (g : Engine),
    (g = .tenon b n) ∧ (s.executes g 0x8A w u)) ∧
  (∃ (s u : State) (b : Fin 32) (n : Fin 5) (w : Nat) (g : Engine),
    (g = .tenon b n) ∧ (s.executes g 0x82 w u)) ∧
  (∃ (s u : State) (b : Fin 32) (n : Fin 5) (w : Nat) (g : Engine),
    (g = .tenon b n) ∧ (s.executes g 0x84 w u)) :=
  ⟨by refine ⟨ten0 (op_ 0x80 0) 0 [], issued t0 (op_ 0x80 0) (ten0 (op_ 0x80 0) 0 []), 0, 0, op_ 0x80 0, 0, t0, true, [], .shifto 0 0, [] , ?main⟩; case main => ((and_intros <;> (try with_reducible rfl)); all_goals first | ((first | exact Or.inl (by and_intros <;> first | rfl | decide +kernel) | exact Or.inr (by and_intros <;> first | rfl | decide +kernel))) | decide +kernel | rfl),
   by refine ⟨ten0 (op_ 0x81 (7 * 2 ^ 24)) 1 [(TEN_CFG.TGT 0 0, 1)], issued t0 (op_ 0x81 (7 * 2 ^ 24)) (ten0 (op_ 0x81 (7 * 2 ^ 24)) 1 [(TEN_CFG.TGT 0 0, 1)]), 0, 0, op_ 0x81 (7 * 2 ^ 24), 0, t0, true, [1, 0, 1], .shifti 0 0 [1, 0, 1], [1, 0, 1], ?main⟩; case main => and_intros <;> first | (with_reducible rfl) | decide | decide +kernel | (unfold State.kpFine; decide) | (intro x h; exact absurd h (by decide)) | (intro h; exact absurd h.1 (by decide)) | (left; and_intros <;> first | rfl | decide +kernel) | (right; and_intros <;> first | rfl | decide +kernel),
   by refine ⟨ten0 (op_ 0x81 (7 * 2 ^ 24)) 1 [], issued t0 (op_ 0x81 (7 * 2 ^ 24)) (ten0 (op_ 0x81 (7 * 2 ^ 24)) 1 []), 0, 0, op_ 0x81 (7 * 2 ^ 24), 0, t0, true, [1, 0, 1], .shifti 0 0 [1, 0, 1], [1, 0, 1], ?main⟩; case main => and_intros <;> first | (with_reducible rfl) | decide | decide +kernel | (unfold State.kpFine; decide) | (intro x h; exact absurd h (by decide)) | (intro h; exact absurd h.1 (by decide)) | (left; and_intros <;> first | rfl | decide +kernel) | (right; and_intros <;> first | rfl | decide +kernel),
   by refine ⟨ten0 (op_ 0x80 (7 * 2 ^ 24)) 1 [], 0, 0, op_ 0x80 (7 * 2 ^ 24), 5, ?v23, ?v24, ?v25, ?main⟩; case main => and_intros <;> first | (with_reducible rfl) | decide | decide +kernel | (unfold State.kpFine; decide) | (intro x h; exact absurd h (by decide)) | (intro h; exact absurd h.1 (by decide)) | (left; and_intros <;> first | rfl | decide +kernel) | (right; and_intros <;> first | rfl | decide +kernel),
   by refine ⟨ten0 (op_ 0x80 (7 * 2 ^ 24)) 1 [], 0, 0, op_ 0x80 (7 * 2 ^ 24), 5, ?v26, ?v27, ?v28, 0, ?main⟩; case main => and_intros <;> first | (with_reducible rfl) | decide | decide +kernel | (unfold State.kpFine; decide) | (intro x h; exact absurd h (by decide)) | (intro h; exact absurd h.1 (by decide)) | (left; and_intros <;> first | rfl | decide +kernel) | (right; and_intros <;> first | rfl | decide +kernel),
   by refine ⟨ten0 (op_ 0x80 (7 * 2 ^ 24)) 1 [], 0, 0, op_ 0x80 (7 * 2 ^ 24), 5, ?v29, ?v30, ?v31, ?main⟩; case main => and_intros <;> first | (with_reducible rfl) | decide | decide +kernel | (unfold State.kpFine; decide) | (intro x h; exact absurd h (by decide)) | (intro h; exact absurd h.1 (by decide)) | (left; and_intros <;> first | rfl | decide +kernel) | (right; and_intros <;> first | rfl | decide +kernel),
   by refine ⟨tenWait 0 (.shift (.mk (op_ 0x80 (7 * 2 ^ 24)) 0 0 true [])) Queues.empty, 0, 0, .mk (op_ 0x80 (7 * 2 ^ 24)) 0 0 true [], ?main⟩; case main => and_intros <;> first | (with_reducible rfl) | decide | decide +kernel | (unfold State.kpFine; decide) | (intro x h; exact absurd h (by decide)) | (intro h; exact absurd h.1 (by decide)) | (left; and_intros <;> first | rfl | decide +kernel) | (right; and_intros <;> first | rfl | decide +kernel),
   by refine ⟨tenWait (op_ 0x80 (7 * 2 ^ 24)) (.select 9 (.mk (op_ 0x80 (7 * 2 ^ 24)) 0 0 true []) (some 0)) Queues.empty, ?v32, ?v33, 0, 0, 4, 0, 8, t0, 9, .mk (op_ 0x80 (7 * 2 ^ 24)) 0 0 true [], [], ?main⟩; case main => and_intros <;> first | (with_reducible rfl) | decide | decide +kernel | (unfold State.kpFine; decide) | (intro x h; exact absurd h (by decide)) | (intro h; exact absurd h.1 (by decide)) | (left; and_intros <;> first | rfl | decide +kernel) | (right; and_intros <;> first | rfl | decide +kernel),
   by refine ⟨tenWait (op_ 0x80 (7 * 2 ^ 24)) (.select 9 (.mk (op_ 0x80 (7 * 2 ^ 24)) 0 0 true []) none) Queues.empty, 0, 0, 4, t0, 9, .mk (op_ 0x80 (7 * 2 ^ 24)) 0 0 true [], [], ?main⟩; case main => and_intros <;> first | (with_reducible rfl) | decide | decide +kernel | (unfold State.kpFine; decide) | (intro x h; exact absurd h (by decide)) | (intro h; exact absurd h.1 (by decide)) | (left; and_intros <;> first | rfl | decide +kernel) | (right; and_intros <;> first | rfl | decide +kernel),
   by refine ⟨ten0 (op_ 0x8A 2) 0 [], issued t0 (op_ 0x8A 2) (ten0 (op_ 0x8A 2) 0 []), 0, 0, op_ 0x8A 2, t0, ?main⟩; case main => and_intros <;> first | (with_reducible rfl) | decide | decide +kernel | (unfold State.kpFine; decide) | (intro x h; exact absurd h (by decide)) | (intro h; exact absurd h.1 (by decide)) | (left; and_intros <;> first | rfl | decide +kernel) | (right; and_intros <;> first | rfl | decide +kernel),
   by refine ⟨ten0 (op_ 0x82 4) 1 [], issued t0 (op_ 0x82 4) (ten0 (op_ 0x82 4) 1 []), 0, 0, op_ 0x82 4, t0, ?main⟩; case main => and_intros <;> first | (with_reducible rfl) | decide | decide +kernel | (unfold State.kpFine; decide) | (intro x h; exact absurd h (by decide)) | (intro h; exact absurd h.1 (by decide)) | (left; and_intros <;> first | rfl | decide +kernel) | (right; and_intros <;> first | rfl | decide +kernel),
   by refine ⟨ten0 (op_ 0x84 0) 1 [], issued t0 (op_ 0x84 0) (ten0 (op_ 0x84 0) 1 []), 0, 0, op_ 0x84 0, t0, ?main⟩; case main => and_intros <;> first | (with_reducible rfl) | decide | decide +kernel | (unfold State.kpFine; decide) | (intro x h; exact absurd h (by decide)) | (intro h; exact absurd h.1 (by decide)) | (left; and_intros <;> first | rfl | decide +kernel) | (right; and_intros <;> first | rfl | decide +kernel)⟩

/-- States and operands meet the hypotheses of TenonsExchangeItemsAndAwaitPins. -/
theorem witness_TenonsExchangeItemsAndAwaitPins :
  (∃ (s u : State) (b : Fin 32) (n : Fin 5) (w l : Nat) (g : Engine) (q : Queues),
    (g = .tenon b n) ∧ (l = (u.logical b.val n.val).getD 0) ∧ (q = u.queues b.val l) ∧ (s.executes g 0x85 w u)) ∧
  (∃ (s u : State) (b : Fin 32) (n : Fin 5) (w l : Nat) (g : Engine) (q : Queues),
    (g = .tenon b n) ∧ (l = (u.logical b.val n.val).getD 0) ∧ (q = u.queues b.val l) ∧ (s.executes g 0x86 w u)) ∧
  (∃ (s u : State) (b : Fin 32) (n : Fin 5) (w l : Nat) (g : Engine) (q : Queues) (c : Instr) (f : Queues → Queues),
    (g = .tenon b n) ∧ (l = (u.logical b.val n.val).getD 0) ∧ (q = u.queues b.val l) ∧ (s.executes g 0x87 w u ∧ c = .mark b n ∧ f = (fun q => q.mark u.bayClock) ∨ s.executes g 0x88 w u ∧ c = .rewind b n ∧ f = Queues.rewind ∨ s.executes g 0x89 w u ∧ c = .release b n ∧ f = Queues.release)) ∧
  (∃ (s u : State) (b : Fin 32) (n : Fin 5) (w l : Nat) (g : Engine) (q : Queues),
    (g = .tenon b n) ∧ (l = (u.logical b.val n.val).getD 0) ∧ (q = u.queues b.val l) ∧ (s.executes g 0x83 w u)) ∧
  (∃ (q r : Queues) (v : Word) (c d : Nat),
    ((q.inq.map Item.seqno).Nodup) ∧ ((q.mark c).pop d = some (v, r))) ∧
  (∃ (s v u : State) (b : Fin 32) (n : Fin 5) (pins : BitVec 16) (w l : Nat) (g : Engine) (p : _),
    (g = .tenon b n) ∧ (v = s.seePins b pins) ∧ (w = (v.fetchWord g).1) ∧ (l = (v.logical b.val n.val).getD 0) ∧ (u = v.resumeNow b n) ∧ (s.driversOn b.val = false) ∧ (p < 16)) ∧
  (∃ (s v u : State) (b : Fin 32) (n : Fin 5) (pins : BitVec 16) (w l : Nat) (g : Engine) (x : Word) (q : Queues),
    (g = .tenon b n) ∧ (v = s.seePins b pins) ∧ (w = (v.fetchWord g).1) ∧ (l = (v.logical b.val n.val).getD 0) ∧ (u = v.resumeNow b n) ∧ ((v.engine (engKey g)).wait = .pop) ∧ (v.qcap b.val l ≠ 0) ∧ ((v.queues b.val l).pop v.bayClock = some (x, q)) ∧ (opcode w = 0x85)) ∧
  (∃ (s v u : State) (b : Fin 32) (n : Fin 5) (pins : BitVec 16) (w l : Nat) (g : Engine) (x : Word) (q : Queues),
    (g = .tenon b n) ∧ (v = s.seePins b pins) ∧ (w = (v.fetchWord g).1) ∧ (l = (v.logical b.val n.val).getD 0) ∧ (u = v.resumeNow b n) ∧ ((v.engine (engKey g)).wait = .pop) ∧ (v.qcap b.val l ≠ 0) ∧ ((v.queues b.val l).pop v.bayClock = some (x, q)) ∧ (opcode w = 0x80)) ∧
  (∃ (s v u : State) (b : Fin 32) (n : Fin 5) (pins : BitVec 16) (w l : Nat) (g : Engine),
    (g = .tenon b n) ∧ (v = s.seePins b pins) ∧ (w = (v.fetchWord g).1) ∧ (l = (v.logical b.val n.val).getD 0) ∧ (u = v.resumeNow b n) ∧ ((v.engine (engKey g)).wait = .push) ∧ ((v.queues b.val l).outq.length < v.qcap b.val l)) ∧
  (∃ (s v u : State) (b : Fin 32) (n : Fin 5) (pins : BitVec 16) (w l : Nat) (g : Engine),
    (g = .tenon b n) ∧ (v = s.seePins b pins) ∧ (w = (v.fetchWord g).1) ∧ (l = (v.logical b.val n.val).getD 0) ∧ (u = v.resumeNow b n) ∧ ((v.engine (engKey g)).wait = .pin) ∧ (v.bit (BAY_PIN.IN b.val) (fRA w) = w.testBit 0)) ∧
  (∃ (s v u : State) (b : Fin 32) (n : Fin 5) (pins : BitVec 16) (w l : Nat) (g : Engine) (x : Shift),
    (g = .tenon b n) ∧ (v = s.seePins b pins) ∧ (w = (v.fetchWord g).1) ∧ (l = (v.logical b.val n.val).getD 0) ∧ (u = v.resumeNow b n) ∧ ((v.engine (engKey g)).wait = .shift x) ∧ (v.ownClock b.val n.val = true) ∧ (x.timed = false)) :=
  ⟨by refine ⟨ten0 (op_ 0x85 0) 1 [], issued t0 (op_ 0x85 0) (ten0 (op_ 0x85 0) 1 []), 0, 0, op_ 0x85 0, 0, t0, Queues.empty, ?main⟩; case main => and_intros <;> first | (with_reducible rfl) | decide | decide +kernel | (unfold State.kpFine; decide) | (intro x h; exact absurd h (by decide)) | (intro h; exact absurd h.1 (by decide)) | (left; and_intros <;> first | rfl | decide +kernel) | (right; and_intros <;> first | rfl | decide +kernel),
   by refine ⟨ten0 (op_ 0x86 0) 1 [], issued t0 (op_ 0x86 0) (ten0 (op_ 0x86 0) 1 []), 0, 0, op_ 0x86 0, 0, t0, Queues.empty, ?main⟩; case main => and_intros <;> first | (with_reducible rfl) | decide | decide +kernel | (unfold State.kpFine; decide) | (intro x h; exact absurd h (by decide)) | (intro h; exact absurd h.1 (by decide)) | (left; and_intros <;> first | rfl | decide +kernel) | (right; and_intros <;> first | rfl | decide +kernel),
   by refine ⟨ten0 (op_ 0x87 0) 1 [], issued t0 (op_ 0x87 0) (ten0 (op_ 0x87 0) 1 []), 0, 0, op_ 0x87 0, 0, t0, Queues.empty, .mark 0 0, fun q => q.mark ((issued t0 (op_ 0x87 0) (ten0 (op_ 0x87 0) 1 [])).bayClock) , ?main⟩; case main => ((and_intros <;> (try with_reducible rfl)); all_goals first | (exact Or.inl (by and_intros <;> first | rfl | decide +kernel)) | decide +kernel | rfl),
   by refine ⟨ten0 (op_ 0x83 1) 1 [], issued t0 (op_ 0x83 1) (ten0 (op_ 0x83 1) 1 []), 0, 0, op_ 0x83 1, 0, t0, Queues.empty, ?main⟩; case main => and_intros <;> first | (with_reducible rfl) | decide | decide +kernel | (unfold State.kpFine; decide) | (intro x h; exact absurd h (by decide)) | (intro h; exact absurd h.1 (by decide)) | (left; and_intros <;> first | rfl | decide +kernel) | (right; and_intros <;> first | rfl | decide +kernel),
   by refine ⟨{ Queues.empty with inq := [item5] }, .mk [.mk 5 1 0 0 false true false true] [] true 0 (0, 0, 0), 5, 9, 9, ?main⟩; case main => and_intros <;> first | (with_reducible rfl) | decide | decide +kernel | (unfold State.kpFine; decide) | (intro x h; exact absurd h (by decide)) | (intro h; exact absurd h.1 (by decide)) | (left; and_intros <;> first | rfl | decide +kernel) | (right; and_intros <;> first | rfl | decide +kernel),
   by refine ⟨later (tenWait (op_ 0x85 0) .pop { Queues.empty with inq := [item5] }), ?v34, ?v35, 0, 0, 3, ?v36, 0, t0, 1, ?main⟩; case main => and_intros <;> first | (with_reducible rfl) | decide | decide +kernel | (unfold State.kpFine; decide) | (intro x h; exact absurd h (by decide)) | (intro h; exact absurd h.1 (by decide)) | (left; and_intros <;> first | rfl | decide +kernel) | (right; and_intros <;> first | rfl | decide +kernel),
   by refine ⟨later (tenWait (op_ 0x85 0) .pop { Queues.empty with inq := [item5] }), ?v37, ?v38, 0, 0, 3, ?v39, 0, t0, 5, ((((later (tenWait (op_ 0x85 0) .pop { Queues.empty with inq := [item5] })).seePins 0 3).queues 0 0).pop ((later (tenWait (op_ 0x85 0) .pop { Queues.empty with inq := [item5] })).seePins 0 3).bayClock |>.getD (0, Queues.empty)).2, ?main⟩; case main => and_intros <;> first | (with_reducible rfl) | decide | decide +kernel | (unfold State.kpFine; decide) | (intro x h; exact absurd h (by decide)) | (intro h; exact absurd h.1 (by decide)) | (left; and_intros <;> first | rfl | decide +kernel) | (right; and_intros <;> first | rfl | decide +kernel),
   by refine ⟨later (tenWait (op_ 0x80 (2 ^ 17)) .pop { Queues.empty with inq := [item5] }), ?v40, ?v41, 0, 0, 3, ?v42, 0, t0, 5, ((((later (tenWait (op_ 0x80 (2 ^ 17)) .pop { Queues.empty with inq := [item5] })).seePins 0 3).queues 0 0).pop ((later (tenWait (op_ 0x80 (2 ^ 17)) .pop { Queues.empty with inq := [item5] })).seePins 0 3).bayClock |>.getD (0, Queues.empty)).2, ?main⟩; case main => and_intros <;> first | (with_reducible rfl) | decide | decide +kernel | (unfold State.kpFine; decide) | (intro x h; exact absurd h (by decide)) | (intro h; exact absurd h.1 (by decide)) | (left; and_intros <;> first | rfl | decide +kernel) | (right; and_intros <;> first | rfl | decide +kernel),
   by refine ⟨tenWait (op_ 0x86 0) .push Queues.empty, ?v43, ?v44, 0, 0, 3, op_ 0x86 0, 0, t0, ?main⟩; case main => and_intros <;> first | (with_reducible rfl) | decide | decide +kernel | (unfold State.kpFine; decide) | (intro x h; exact absurd h (by decide)) | (intro h; exact absurd h.1 (by decide)) | (left; and_intros <;> first | rfl | decide +kernel) | (right; and_intros <;> first | rfl | decide +kernel),
   by refine ⟨(tenWait (op_ 0x83 1) .pin Queues.empty).setBit (BAY_PIN.IN 0) 0 true, ?v45, ?v46, 0, 0, 1, op_ 0x83 1, 0, t0, ?main⟩; case main => and_intros <;> first | (with_reducible rfl) | decide | decide +kernel | (unfold State.kpFine; decide) | (intro x h; exact absurd h (by decide)) | (intro h; exact absurd h.1 (by decide)) | (left; and_intros <;> first | rfl | decide +kernel) | (right; and_intros <;> first | rfl | decide +kernel),
   by refine ⟨tenWait (op_ 0x81 (7 * 2 ^ 24)) (.shift (.mk (op_ 0x81 (7 * 2 ^ 24)) 0 0 false [])) Queues.empty, ?v47, ?v48, 0, 0, 3, ?v49, 0, t0, .mk (op_ 0x81 (7 * 2 ^ 24)) 0 0 false [], ?main⟩; case main => and_intros <;> first | (with_reducible rfl) | decide | decide +kernel | (unfold State.kpFine; decide) | (intro x h; exact absurd h (by decide)) | (intro h; exact absurd h.1 (by decide)) | (left; and_intros <;> first | rfl | decide +kernel) | (right; and_intros <;> first | rfl | decide +kernel)⟩

/-- States and operands meet the hypotheses of StoresTakeWordsAndCountersCount. -/
theorem witness_StoresTakeWordsAndCountersCount :
  (∃ (s : State) (w : BitVec 16) (v : Word),
    (w.toNat < 16384)) ∧
  (∃ (s : State) (w : BitVec 16) (v : Word) (b n : Nat),
    (w.toNat < 40960) ∧ (b = w.toNat / 1280) ∧ (n = w.toNat % 1280 / 256) ∧ (s.tenState b n ≠ tnRUNNING ∧ s.tenState b n ≠ tnSELFTEST ∧ (∀ x, (s.bayRec b).swap = some x → x.old ≠ n ∧ x.new ≠ n))) ∧
  (∃ (s : State) (w : BitVec 16) (v : Word) (b n : Nat),
    (w.toNat < 40960) ∧ (b = w.toNat / 1280) ∧ (n = w.toNat % 1280 / 256) ∧ (¬ (s.tenState b n ≠ tnRUNNING ∧ s.tenState b n ≠ tnSELFTEST ∧ (∀ x, (s.bayRec b).swap = some x → x.old ≠ n ∧ x.new ≠ n)))) ∧
  (∃ (s u : State) (b : Fin 32) (pin : Fin 16) (rising : Bool),
    (u = (s.settleBay b.val).setBit (BAY_PIN.IN b.val) pin.val rising) ∧ ((∀ n : Fin 5, u.tenState b.val n.val = tnRUNNING → (u.engine (tenKey b.val n.val)).wait ∈ [Wait.none, .clocks, .wclk, .pop, .push]))) :=
  ⟨by refine ⟨s0, 16383, 7, ?main⟩; case main => ((and_intros <;> (try with_reducible rfl)); all_goals first | decide +kernel | rfl),
   by refine ⟨s0, 40959, 7, 31, 4, ?main⟩; case main => ((and_intros <;> (try with_reducible rfl)); all_goals first | decide +kernel | rfl),
   by refine ⟨ten0 0 1 [], 3, 7, 0, 0, ?main⟩; case main => ((and_intros <;> (try with_reducible rfl)); all_goals first | decide +kernel | rfl),
   by refine ⟨st [(TEN_CFG.CSRC 0 0, 2), (TEN_CFG.CPIN 0 0, 15)], ?v50, 0, 15, true, ?main⟩; case main => ((and_intros <;> (try with_reducible rfl)); all_goals first | decide +kernel | rfl)⟩

/-- States and operands meet the hypotheses of BanksAndTenonsChangeState. -/
theorem witness_BanksAndTenonsChangeState :
  (∃ (s u : State) (b : Fin 32),
    (u = s.settleBay b.val) ∧ (s.on (BAY_CTL.BANKOK b.val) = true)) ∧
  (∃ (s u : State) (b : Fin 32),
    (u = s.settleBay b.val) ∧ (s.on (BAY_CTL.BANK b.val) = true)) ∧
  (∃ (s : State) (b : Fin 32) (n : Fin 5) (v : Word) (g : Engine),
    (g = .tenon b n) ∧ (v.getLsbD 9 = false) ∧ (s.tenState b.val n.val = tnSTOPPED) ∧ (s.startOk b.val n.val = true)) ∧
  (∃ (s : State) (b : Fin 32) (n : Fin 5) (v : Word) (g : Engine),
    (g = .tenon b n) ∧ (v.getLsbD 9 = false) ∧ (s.tenState b.val n.val = tnSTOPPED) ∧ (s.startOk b.val n.val = false)) ∧
  (∃ (s u : State) (b : Fin 32) (n : Fin 5) (g : Engine),
    (g = .tenon b n) ∧ (s.get (TEN_CTL.ENTRY b.val n.val) < 256) ∧ (u = s.settleTen b.val n.val) ∧ (s.tenState b.val n.val = tnRUNNING)) ∧
  (∃ (s u : State) (b : Fin 32) (n : Fin 5) (g : Engine),
    (g = .tenon b n) ∧ (s.get (TEN_CTL.ENTRY b.val n.val) < 256) ∧ (u = s.settleTen b.val n.val) ∧ (s.tenState b.val n.val = tnSTOPPED ∨ s.tenState b.val n.val = tnFAILED)) ∧
  (∃ (s : State) (b : Fin 32) (sp : Fin 5),
    (s.get (BAY_MAP.SPARE b.val) = sp.val) ∧ (s.tenState b.val sp.val = tnSTANDBY) ∧ ((∀ k, (s.bayRec b.val).tested = some k → s.get (BAY_SPARE.TINT b.val) ≠ 0 ∧ k + s.get (BAY_SPARE.TINT b.val) ≤ s.cyc.ncyc))) ∧
  (∃ (s : State) (b : Fin 32) (n : Fin 5) (given pass : Bool) (ce : BitVec 8) (back : Nat),
    (pass = (given && (inStore s.tenUe b.val n.val).isEmpty)) ∧ (s.tenState b.val n.val = tnSELFTEST) ∧ ((s.engine (tenKey b.val n.val)).testOf = some back) ∧ (back < 8)) :=
  ⟨by refine ⟨st [(BAY_CTL.BANKOK 3, 1)], ?v51, 3, ?main⟩; case main => ((and_intros <;> (try with_reducible rfl)); all_goals first | decide +kernel | rfl),
   by refine ⟨st [(BAY_CTL.BANK 3, 1)], ?v52, 3, ?main⟩; case main => ((and_intros <;> (try with_reducible rfl)); all_goals first | decide +kernel | rfl),
   by refine ⟨st [(BAY_CTL.BANKOK 0, 1)], 0, 0, 0, t0, ?main⟩; case main => ((and_intros <;> (try with_reducible rfl)); all_goals first | decide +kernel | rfl),
   by refine ⟨s0, 0, 0, 0, t0, ?main⟩; case main => ((and_intros <;> (try with_reducible rfl)); all_goals first | decide +kernel | rfl),
   by refine ⟨ten0 0 1 [], ?v53, 0, 0, t0, ?main⟩; case main => ((and_intros <;> (try with_reducible rfl)); all_goals first | decide +kernel | rfl),
   by refine ⟨s0, ?v54, 0, 0, t0, ?main⟩; case main => ((and_intros <;> (try with_reducible rfl)); all_goals first | decide +kernel | rfl),
   by refine ⟨st [(TEN_STAT.STATE 0 4, 2)], 0, 4, ?main⟩; case main => ((and_intros <;> (try with_reducible rfl)); all_goals first | decide +kernel | rfl),
   by refine ⟨(st [(TEN_STAT.STATE 0 0, 3)]).setEngine 8 { Eng.reset with testOf := some 0, testEnd := 900 }, 0, 0, true, true, 3, 0, ?main⟩; case main => ((and_intros <;> (try with_reducible rfl)); all_goals first | decide +kernel | rfl)⟩

/-- States and operands meet the hypotheses of QueuesAndStreamsOfABay. -/
theorem witness_QueuesAndStreamsOfABay :
  (∃ (s : State) (b : Fin 32) (v : Word),
    (wbits v 14 12 ≠ s.get (BAY_CTL.QLINK b.val)) ∧ (∀ l : Fin 4, s.tenState b.val (s.physical b.val l.val) ≠ tnRUNNING ∧ (s.queues b.val l.val).inq = [] ∧ (s.queues b.val l.val).outq = [])) ∧
  (∃ (s : State) (b : Fin 32) (v : Word),
    (wbits v 14 12 ≠ s.get (BAY_CTL.QLINK b.val)) ∧ (¬ (∀ l : Fin 4, s.tenState b.val (s.physical b.val l.val) ≠ tnRUNNING ∧ (s.queues b.val l.val).inq = [] ∧ (s.queues b.val l.val).outq = []))) ∧
  (∃ (s : State) (b : Fin 32) (l : Fin 4) (v : Word) (q : Queues),
    (q = s.queues b.val l.val) ∧ (q.inq.length < s.qcap b.val l.val)) ∧
  (∃ (s : State) (b : Fin 32) (l : Fin 4) (v : Word) (q : Queues),
    (q = s.queues b.val l.val) ∧ (s.qcap b.val l.val ≤ q.inq.length)) ∧
  (∃ (s : State) (b : Fin 32) (l : Fin 4) (v : Word) (q : Queues),
    (q = s.queues b.val l.val) ∧ (s.tenState b.val (s.physical b.val l.val) = tnRUNNING ∨ ∃ o ∈ s.tbl.ops, o.streams b.val l.val = true)) ∧
  (∃ (s : State) (b : Fin 32) (l : Fin 4) (v : Word) (q : Queues),
    (q = s.queues b.val l.val) ∧ (¬ (s.tenState b.val (s.physical b.val l.val) = tnRUNNING ∨ ∃ o ∈ s.tbl.ops, o.streams b.val l.val = true))) ∧
  (∃ (s v : State) (b : Fin 32) (l : Fin 4) (c : Entry) (ch p most cp : Nat) (g : Field) (n : Nat),
    (g = BAY_STREAM.WPTR b.val l.val) ∧ (cp = bayPort b.val) ∧ (s.autoOp b.val l.val = none) ∧ (s.on (BAY_STREAM.AUTO b.val l.val) = true) ∧ (ch = s.get (BAY_STREAM.CH b.val l.val)) ∧ (s.lookup ch = some (v, c)) ∧ (c.valid = true ∧ c.type = tSTREAM ∧ c.bay = b.val ∧ c.tenon = l.val) ∧ (v.homeUp = true) ∧ (v.alive (accessReq cp) = true) ∧ (p = (if s.get g < c.points then s.get g else 0)) ∧ (c.points ≤ 65536) ∧ (most = min 8 (c.points - p)) ∧ (s.on (BAY_STREAM.DIR b.val l.val) = false) ∧ (n = min most (s.qcap b.val l.val - (s.queues b.val l.val).inq.length)) ∧ (n ≠ 0) ∧ (v.servesNow (accessReq cp) false ch p n = true) ∧ (v.homeBad (64 * c.dataPtr + 8 * p) (8 * n) = false)) ∧
  (∃ (s v : State) (b : Fin 32) (l : Fin 4) (c : Entry) (ch p most cp : Nat) (g : Field) (n : Nat),
    (g = BAY_STREAM.WPTR b.val l.val) ∧ (cp = bayPort b.val) ∧ (s.autoOp b.val l.val = none) ∧ (s.on (BAY_STREAM.AUTO b.val l.val) = true) ∧ (ch = s.get (BAY_STREAM.CH b.val l.val)) ∧ (s.lookup ch = some (v, c)) ∧ (c.valid = true ∧ c.type = tSTREAM ∧ c.bay = b.val ∧ c.tenon = l.val) ∧ (v.homeUp = true) ∧ (v.alive (accessReq cp) = true) ∧ (p = (if s.get g < c.points then s.get g else 0)) ∧ (c.points ≤ 65536) ∧ (most = min 8 (c.points - p)) ∧ (s.on (BAY_STREAM.DIR b.val l.val) = false) ∧ (n = min most (s.qcap b.val l.val - (s.queues b.val l.val).inq.length)) ∧ (n ≠ 0) ∧ (v.servesNow (accessReq cp) false ch p n = false)) ∧
  (∃ (s v : State) (b : Fin 32) (l : Fin 4) (c : Entry) (ch p most cp : Nat) (g : Field) (r : State) (ws : List Word),
    (g = BAY_STREAM.WPTR b.val l.val) ∧ (cp = bayPort b.val) ∧ (s.autoOp b.val l.val = none) ∧ (s.on (BAY_STREAM.AUTO b.val l.val) = true) ∧ (ch = s.get (BAY_STREAM.CH b.val l.val)) ∧ (s.lookup ch = some (v, c)) ∧ (c.valid = true ∧ c.type = tSTREAM ∧ c.bay = b.val ∧ c.tenon = l.val) ∧ (v.homeUp = true) ∧ (v.alive (accessReq cp) = true) ∧ (p = (if s.get g < c.points then s.get g else 0)) ∧ (c.points ≤ 65536) ∧ (most = min 8 (c.points - p)) ∧ (s.on (BAY_STREAM.DIR b.val l.val) = true) ∧ (v.takeItems b.val l.val most = (r, ws)) ∧ (ws ≠ [])) ∧
  (∃ (s v : State) (b : Fin 32) (l : Fin 4) (c : Entry) (ch p most cp : Nat) (g : Field),
    (g = BAY_STREAM.WPTR b.val l.val) ∧ (cp = bayPort b.val) ∧ (s.autoOp b.val l.val = none) ∧ (s.on (BAY_STREAM.AUTO b.val l.val) = true) ∧ (ch = s.get (BAY_STREAM.CH b.val l.val)) ∧ (s.lookup ch = some (v, c)) ∧ (¬ (c.valid = true ∧ c.type = tSTREAM ∧ c.bay = b.val ∧ c.tenon = l.val))) ∧
  (∃ (s : State) (b : Fin 32) (l : Fin 4) (o : Op) (g : Field),
    (g = BAY_STREAM.WPTR b.val l.val) ∧ (s.autoOp b.val l.val = some o) ∧ (o.closed = true) ∧ (o.first + o.count ≤ 65536) ∧ ((s.queues b.val l.val).inq.length + o.count ≤ s.qcap b.val l.val)) ∧
  (∃ (s : State) (b : Fin 32) (l : Fin 4) (t0 k : Nat),
    (s.stalledSince b.val l.val = some t0) ∧ (k = s.get (BAY_STREAM.STALL b.val l.val)) ∧ (k ≠ 0)) :=
  ⟨by refine ⟨s0, 0, 0x1000, ?main⟩; case main => ((and_intros <;> (try with_reducible rfl)); all_goals first | decide +kernel | rfl),
   by refine ⟨ten0 0 1 [], 0, 0x1000, ?main⟩; case main => ((and_intros <;> (try with_reducible rfl)); all_goals first | decide +kernel | rfl),
   by refine ⟨s0, 0, 3, 77, Queues.empty, ?main⟩; case main => ((and_intros <;> (try with_reducible rfl)); all_goals first | decide +kernel | rfl),
   by refine ⟨s0.setQueues 0 0 (.mk (List.replicate 8 item5) [] false 0 (0, 0, 0)), 0, 0, 77, .mk (List.replicate 8 item5) [] false 0 (0, 0, 0), ?main⟩; case main => ((and_intros <;> (try with_reducible rfl)); all_goals first | decide +kernel | rfl),
   by refine ⟨ten0 0 1 [], 0, 0, 0, Queues.empty, ?main⟩; case main => ((and_intros <;> (try with_reducible rfl)); all_goals first | decide +kernel | rfl),
   by refine ⟨s0.setQueues 0 0 (.mk [item5] [] false 0 (0, 0, 0)), 0, 0, 0, .mk [item5] [] false 0 (0, 0, 0), ?main⟩; case main => ((and_intros <;> (try with_reducible rfl)); all_goals first | decide +kernel | rfl),
   by refine ⟨streaming 0 Queues.empty, streamFound (streaming 0 Queues.empty), 0, 0, stream4, 0, 0, 4, bayPort 0, BAY_STREAM.WPTR 0 0, 4, ?main⟩; case main => ((and_intros <;> (try with_reducible rfl)); all_goals first | decide +kernel | rfl),
   by refine ⟨busy (streaming 0 Queues.empty), streamFound (busy (streaming 0 Queues.empty)), 0, 0, stream4, 0, 0, 4, bayPort 0, BAY_STREAM.WPTR 0 0, 4, ?main⟩; case main => ((and_intros <;> (try with_reducible rfl)); all_goals first | decide +kernel | rfl),
   by refine ⟨streaming 1 (.mk [] [item5] false 0 (0, 0, 0)), streamFound (streaming 1 (.mk [] [item5] false 0 (0, 0, 0))), 0, 0, stream4, 0, 0, 4, bayPort 0, BAY_STREAM.WPTR 0 0, ((streamFound (streaming 1 (.mk [] [item5] false 0 (0, 0, 0)))).takeItems 0 0 4).1, [5], ?main⟩; case main => ((and_intros <;> (try with_reducible rfl)); all_goals first | decide +kernel | rfl),
   by refine ⟨streaming 0 Queues.empty, streamFound (streaming 0 Queues.empty), 1, 0, stream4, 0, 0, 4, bayPort 1, BAY_STREAM.WPTR 1 0, ?main⟩; case main => ((and_intros <;> (try with_reducible rfl)); all_goals first | decide +kernel | rfl),
   by refine ⟨landing, 0, 0, read4, BAY_STREAM.WPTR 0 0, ?main⟩; case main => ((and_intros <;> (try with_reducible rfl)); all_goals first | decide +kernel | rfl),
   by refine ⟨bay0 { Bay.reset with autoAt := [(0, some 5)] } [(BAY_STREAM.AUTO 0 0, 1), (BAY_STREAM.STALL 0 0, 2)], 0, 0, 5, 2, ?main⟩; case main => ((and_intros <;> (try with_reducible rfl)); all_goals first | decide +kernel | rfl)⟩

/-- States and operands meet the hypotheses of SubstitutionOfATenon. -/
theorem witness_SubstitutionOfATenon :
  (∃ (s : State) (b : Fin 32) (v : Word) (l p sp : Nat),
    (v.getLsbD 5 = false) ∧ (l = wbits v 1 0) ∧ (p = s.physical b.val l) ∧ (sp = s.get (BAY_MAP.SPARE b.val))) ∧
  (∃ (s : State) (b : Fin 32) (w : Swap) (k : Nat) (c : Instr),
    ((s.bayRec b.val).swap = some w) ∧ (c = .tenonSwapCancel b ∧ k = 2 ∨ (∃ ue, c = .storeCopyComplete b ue ∧ w.copied = false ∧ k = 0 ∧ (ue = true ∨ inStore s.tenUe b.val w.old ≠ [])))) ∧
  (∃ (s : State) (b : Fin 32) (w : Swap) (k : Nat) (c : Instr),
    ((s.bayRec b.val).swap = some w) ∧ (c = .tenonSwapCancel b ∧ k = 2 ∨ (∃ ue, c = .storeCopyComplete b ue ∧ w.copied = false ∧ k = 0 ∧ (ue = true ∨ inStore s.tenUe b.val w.old ≠ [])))) ∧
  (∃ (s : State) (b : Fin 32) (w : Swap) (k : Nat),
    ((s.bayRec b.val).swap = some w) ∧ (w.copied = false) ∧ (inStore s.tenUe b.val w.old = [])) ∧
  (∃ (s : State) (b : Fin 32) (w : Swap) (k : Nat) (o n : Fin 5) (u : State),
    ((s.bayRec b.val).swap = some w) ∧ (w.old = o.val) ∧ (w.new = n.val) ∧ (o ≠ n) ∧ (s.get (BAY_SWAP.STATE b.val) = 2) ∧ (w.cycle = s.cycKey) ∧ (s.swapPoint b.val o.val = true) ∧ ((∀ f ∈ tenConfigFields b.val o.val, s.get f < 2 ^ f.width)) ∧ (u = s.settleBay b.val)) :=
  ⟨by refine ⟨s0, 0, 0, 0, 0, 4, ?main⟩; case main => ((and_intros <;> (try with_reducible rfl)); all_goals first | decide +kernel | rfl),
   by refine ⟨bay0 { Bay.reset with swap := some (swap04 false) } [(BAY_SWAP.STATE 0, 1)], 0, swap04 false, 2, .tenonSwapCancel 0, ?main⟩; case main => ((and_intros <;> (try with_reducible rfl)); all_goals first | decide +kernel | rfl),
   by refine ⟨bay0 { Bay.reset with swap := some (swap04 false) } [(BAY_SWAP.STATE 0, 1)], 0, swap04 false, 0, .storeCopyComplete 0 true, ?main⟩; case main => ((and_intros <;> (try with_reducible rfl)); all_goals first | decide +kernel | rfl),
   by refine ⟨bay0 { Bay.reset with swap := some (swap04 false) } [(BAY_SWAP.STATE 0, 1)], 0, swap04 false, 0, ?main⟩; case main => ((and_intros <;> (try with_reducible rfl)); all_goals first | decide +kernel | rfl),
   by refine ⟨bay0 { Bay.reset with swap := some (swap04 true) } [(BAY_SWAP.STATE 0, 2)], 0, swap04 true, 0, 0, 4, ?v55, ?main⟩; case main => ((and_intros <;> (try with_reducible rfl)); all_goals first | decide +kernel | rfl)⟩

/-- States and operands meet the hypotheses of ChainPortsRunTheirFrames. -/
theorem witness_ChainPortsRunTheirFrames :
  (∃ (s : State) (p : Fin 64) (v : Word) (r : Chp),
    (r = s.port p.val)) ∧
  (∃ (s : State) (p : Fin 64),
    (s.chSends p.val = true ∧ s.get (CHP_REFRESH.PERIOD p.val) ≠ 0 ∧ (s.port p.val).frame = none)) ∧
  (∃ (s : State) (p : Fin 64),
    (¬ (s.chSends p.val = true ∧ s.get (CHP_REFRESH.PERIOD p.val) ≠ 0 ∧ (s.port p.val).frame = none))) ∧
  (∃ (s u : State) (p : Fin 64) (r : Chp),
    (u = (if s.holdLike = true then s.dropLatches p.val else s)) ∧ (r = u.port p.val) ∧ (u.chOn p.val = false ∨ u.mode = mRecovery)) ∧
  (∃ (s u : State) (p : Fin 64) (r : Chp) (l : Latch) (rest : List Latch) (start cur image : Nat),
    (u = (if s.holdLike = true then s.dropLatches p.val else s)) ∧ (r = u.port p.val) ∧ (u.chOn p.val = true) ∧ (u.mode ≠ mRecovery) ∧ (r.frame = none) ∧ (r.latches = l :: rest) ∧ (start = u.latchStart p.val l) ∧ (¬(r.repDue = true ∧ u.chSends p.val = true ∧ max u.now r.gapEnd < start)) ∧ (cur = (if r.fresh then r.pending else r.current)) ∧ (image = cur % 2 ^ u.chPoints p.val)) ∧
  (∃ (s u : State) (p : Fin 64) (r : Chp) (image : Nat),
    (u = (if s.holdLike = true then s.dropLatches p.val else s)) ∧ (r = u.port p.val) ∧ (u.chOn p.val = true) ∧ (u.mode ≠ mRecovery) ∧ (r.frame = none) ∧ (u.chSends p.val = true) ∧ ((r.latches = [] ∧ (r.repDue = true ∨ r.takeover = true) ∨ r.repDue = true ∧ ∃ l rest, r.latches = l :: rest ∧ max u.now r.gapEnd < u.latchStart p.val l)) ∧ (image = r.current % 2 ^ u.chPoints p.val)) ∧
  (∃ (s u : State) (p : Fin 64) (r : Chp),
    (u = (if s.holdLike = true then s.dropLatches p.val else s)) ∧ (r = u.port p.val) ∧ (u.chOn p.val = true) ∧ (u.mode ≠ mRecovery) ∧ (r.frame = none) ∧ (r.latches = []) ∧ (¬((r.repDue = true ∨ r.takeover = true) ∧ u.chSends p.val = true))) ∧
  (∃ (s u : State) (p : Fin 64) (r : Chp) (f : ChFrame) (l : Latch) (rest : List Latch),
    (u = (if s.holdLike = true then s.dropLatches p.val else s)) ∧ (r = u.port p.val) ∧ (u.chOn p.val = true) ∧ (u.mode ≠ mRecovery) ∧ (r.frame = some f) ∧ (r.latches = l :: rest) ∧ (f.isNew = false) ∧ (u.latchStart p.val l < f.latAt + u.latGap p.val)) ∧
  (∃ (s u : State) (p : Fin 64) (r : Chp) (f : ChFrame),
    (u = (if s.holdLike = true then s.dropLatches p.val else s)) ∧ (r = u.port p.val) ∧ (u.chOn p.val = true) ∧ (u.mode ≠ mRecovery) ∧ (r.frame = some f) ∧ ((∀ l rest, r.latches = l :: rest → f.isNew = true ∨ f.latAt + u.latGap p.val ≤ u.latchStart p.val l))) ∧
  (∃ (s : State) (p : Fin 64) (r : Chp),
    (r = s.port p.val) ∧ (r.frame = none)) ∧
  (∃ (s : State) (p : Fin 64) (r : Chp) (f : ChFrame) (late : Bool),
    (r = s.port p.val) ∧ (r.frame = some f) ∧ (late = (f.redrive && decide (s.get (CHP_VERIFY.BUDGET p.val) ≠ 0 ∧ r.firstLat.getD f.latAt + s.get (CHP_VERIFY.BUDGET p.val) < f.latAt)))) :=
  ⟨by refine ⟨s0, 0, 1, Chp.reset, ?main⟩; case main => ((and_intros <;> (try with_reducible rfl)); all_goals first | decide +kernel | rfl),
   by refine ⟨port0 Chp.reset [(CHP_REFRESH.PERIOD 0, 90)], 0, ?main⟩; case main => ((and_intros <;> (try with_reducible rfl)); all_goals first | decide +kernel | rfl),
   by refine ⟨s0, 0, ?main⟩; case main => ((and_intros <;> (try with_reducible rfl)); all_goals first | decide +kernel | rfl),
   by refine ⟨recovering, recovering, 0, ?v56, ?main⟩; case main => ((and_intros <;> (try with_reducible rfl)); all_goals first | decide +kernel | rfl),
   by refine ⟨port0 { Chp.reset with latches := [latch50] } [], ?v57, 0, ?v58, latch50, [], ?v59, ?v60, ?v61, ?main⟩; case main => ((and_intros <;> (try with_reducible rfl)); all_goals first | decide +kernel | rfl),
   by refine ⟨port0 { Chp.reset with repDue := true } [], ?v62, 0, ?v63, ?v64 , ?main⟩; case main => ((and_intros <;> (try with_reducible rfl)); all_goals first | ((exact Or.inl ⟨by decide +kernel, by decide +kernel⟩)) | decide +kernel | rfl),
   by refine ⟨port0 Chp.reset [], ?v65, 0, ?v66, ?main⟩; case main => ((and_intros <;> (try with_reducible rfl)); all_goals first | decide +kernel | rfl),
   by refine ⟨port0 { Chp.reset with latches := [latch50], frame := some frame0 } [], ?v67, 0, ?v68, frame0, latch50, [], ?main⟩; case main => ((and_intros <;> (try with_reducible rfl)); all_goals first | decide +kernel | rfl),
   by refine ⟨port0 { Chp.reset with frame := some frame0 } [], ?v69, 0, ?v70, frame0 , ?main⟩; case main => ((and_intros <;> (try with_reducible rfl)); all_goals first | ((intro l rest h; have h0 : ([] : List Latch) = l :: rest := h; simp at h0)) | decide +kernel | rfl),
   by refine ⟨s0, 0, ?v71, ?main⟩; case main => ((and_intros <;> (try with_reducible rfl)); all_goals first | decide +kernel | rfl),
   by refine ⟨port0 { Chp.reset with frame := some frame0 } [], 0, ?v72, frame0, false, ?main⟩; case main => ((and_intros <;> (try with_reducible rfl)); all_goals first | decide +kernel | rfl)⟩

/-- States and operands meet the hypotheses of ReadbackIsJudgedAndHeadsDecide. -/
theorem witness_ReadbackIsJudgedAndHeadsDecide :
  (∃ (s : State) (p : Fin 64) (r : Chp) (f : ChFrame) (sq : Nat) (st : BitVec 24) (lane : Nat) (crc : BitVec 16) (good : Bool),
    (r = s.port p.val) ∧ (r.frame = some f) ∧ (f.judged = false) ∧ (f.sent = true) ∧ (sq = r.prev.getD 0) ∧ (good = statusParity st)) ∧
  (∃ (s : State) (p : Fin 64) (r : Chp) (f : ChFrame) (sq : Nat) (st : BitVec 24) (lane : Nat) (crc : BitVec 16) (good : Bool),
    (r = s.port p.val) ∧ (r.frame = some f) ∧ (f.judged = false) ∧ (f.sent = true) ∧ (sq = r.prev.getD 0) ∧ (good = statusParity st)) ∧
  (∃ (s : State) (h : Fin 64) (x : Head) (side : Bool) (f : HeadFrame) (d res : Nat),
    (s.head h.val = some x) ∧ (d = ceilDiv x.size 4) ∧ (res = (if f.clocks ≠ 40 + d then 5 else if f.preamble ≠ 0xA5C35A3C96F0 then 4 else if wbits f.header 13 0 ≠ x.size - 1 then 3 else if f.crc ≠ frameCrc f.header f.points d then 1 else if wbits f.header 47 40 < x.claim then 2 else 0))) ∧
  (∃ (s : State) (h : Fin 64) (x : Head) (side : Bool) (f : HeadFrame) (d res : Nat),
    (s.head h.val = some x) ∧ (d = ceilDiv x.size 4) ∧ (res = (if f.clocks ≠ 40 + d then 5 else if f.preamble ≠ 0xA5C35A3C96F0 then 4 else if wbits f.header 13 0 ≠ x.size - 1 then 3 else if f.crc ≠ frameCrc f.header f.points d then 1 else if wbits f.header 47 40 < x.claim then 2 else 0))) ∧
  (∃ (s : State) (h : Fin 64) (x : Head) (f g : HeadFrame) (c d : Instr),
    (s.head h.val = some x) ∧ ((if wbits f.header 47 40 < wbits g.header 47 40 then c = .headFrameDecision h none (some g) ∧ d = .headFrameDecision h (some f) none else c = .headFrameDecision h (some f) none ∧ d = .headFrameDecision h none (some g)))) ∧
  (∃ (s : State) (h : Fin 64) (x y : Head) (c : Instr),
    (s.head h.val = some x) ∧ ((c = .claimHoldExpiry h ∧ x.chtRuns = true ∧ y = { x with claim := 0, chtRuns := false }) ∨ (c = .safeTimeout h ∧ x.tsRuns = true ∧ y = { x with claim := 0, safe := true, tsRuns := false }))) ∧
  (∃ (s : State) (h : Fin 64) (x y : Head) (c : Instr),
    (s.head h.val = some x) ∧ ((c = .claimHoldExpiry h ∧ x.chtRuns = true ∧ y = { x with claim := 0, chtRuns := false }) ∨ (c = .safeTimeout h ∧ x.tsRuns = true ∧ y = { x with claim := 0, safe := true, tsRuns := false }))) ∧
  (∃ (s : State) (h : Fin 64) (size : Nat),
    (0 < size) ∧ (size ≤ 16384)) :=
  ⟨by refine ⟨port0 { Chp.reset with frame := some frame0, prev := some 3 } [], 0, ?v73, frame0, 3, 1, 0, 0, true, ?main⟩; case main => ((and_intros <;> (try with_reducible rfl)); all_goals first | decide +kernel | rfl),
   by refine ⟨port0 { Chp.reset with frame := some frame0, prev := some 3 } [], 0, ?v74, frame0, 3, 0, 0, 0, false, ?main⟩; case main => ((and_intros <;> (try with_reducible rfl)); all_goals first | decide +kernel | rfl),
   by refine ⟨s0.setHead 0 head16, 0, head16, false, seen16 9, 4, 0, ?main⟩; case main => ((and_intros <;> (try with_reducible rfl)); all_goals first | decide +kernel | rfl),
   by refine ⟨s0.setHead 0 head16, 0, head16, true, { seen16 9 with clocks := 43 }, 4, 5, ?main⟩; case main => ((and_intros <;> (try with_reducible rfl)); all_goals first | decide +kernel | rfl),
   by refine ⟨s0.setHead 0 head16, 0, head16, seen16 9, seen16 10, .headFrameDecision 0 none (some (seen16 10)), .headFrameDecision 0 (some (seen16 9)) none, ?main⟩; case main => ((and_intros <;> (try with_reducible rfl)); all_goals first | decide +kernel | rfl),
   by refine ⟨s0.setHead 0 head16, 0, head16, { head16 with claim := 0, chtRuns := false }, .claimHoldExpiry 0, ?main⟩; case main => ((and_intros <;> (try with_reducible rfl)); all_goals first | decide +kernel | rfl),
   by refine ⟨s0.setHead 0 head16, 0, head16, { head16 with claim := 0, safe := true, tsRuns := false }, .safeTimeout 0, ?main⟩; case main => ((and_intros <;> (try with_reducible rfl)); all_goals first | decide +kernel | rfl),
   by refine ⟨s0, 63, 16, ?main⟩; case main => ((and_intros <;> (try with_reducible rfl)); all_goals first | decide +kernel | rfl)⟩

/-- States and operands meet the hypotheses of BusControllersReceiveAndChangeMode. -/
theorem witness_BusControllersReceiveAndChangeMode :
  (∃ (s : State) (c : Fin 16) (v : Word) (bad : Bool),
    (wbits v 3 2 ≠ 3) ∧ (bad = ((wbits v 1 0 == mbSLEEP && !s.on (MB_CFG.G1 c.val)) || (s.get (MB_CTL.MODE c.val) == mbOFF && wbits v 1 0 != mbOFF && !s.mbTimingOk c.val)))) ∧
  (∃ (s : State) (c : Fin 16) (v : Word) (bad : Bool),
    (wbits v 3 2 ≠ 3) ∧ (bad = ((wbits v 1 0 == mbSLEEP && !s.on (MB_CFG.G1 c.val)) || (s.get (MB_CTL.MODE c.val) == mbOFF && wbits v 1 0 != mbOFF && !s.mbTimingOk c.val)))) ∧
  (∃ (s : State) (c : Fin 16),
    ((s.mbus c.val).onBus ≠ none)) ∧
  (∃ (s : State) (c : Fin 16),
    ((s.mbus c.val).onBus = none) ∧ ((s.mbus c.val).newMode = none)) ∧
  (∃ (s : State) (c : Fin 16) (m : _),
    ((s.mbus c.val).onBus = none) ∧ ((s.mbus c.val).newMode = some m) ∧ (m < 4)) ∧
  (∃ (s : State) (c : Fin 16) (v : Word) (o : Nat),
    (o = s.get (MB_FSEL.OBJ c.val))) ∧
  (∃ (s : State) (c : Fin 16) (f : BusFrame) (ago : Nat),
    ((Instr.mbFrameReceived c (.mk f ago)).wf = true) ∧ (s.mbTakesPart c.val = true) ∧ ((f.fdf = true → s.on (MB_CFG.FDEN c.val) = true ∧ f.rtr = false))) ∧
  (∃ (s : State) (c : Fin 16) (o : Fin 512) (x : MbObj) (t0 : Nat),
    (x = s.mbObj c.val o.val) ∧ (x.locked = some t0) ∧ (s.get (MB_CFG.LOCKTO c.val) ≠ 0)) ∧
  (∃ (s : State) (c : Fin 16) (src : WakeSource),
    (s.mbMode c.val = mbSLEEP) ∧ ((match src with | .dominant n => 40 ≤ n ∧ s.get (MB_CTL.WAKESRC c.val) ≠ 1 | .frame f _ => (s.mbObj c.val (s.get (MB_CFG.WAKEOBJ c.val))).accepts f = true ∧ s.get (MB_CTL.WAKESRC c.val) ≠ 0 ∧ (f.fdf = true → s.on (MB_CFG.FDEN c.val) = true ∧ f.rtr = false) | .txRequest => s.get (MB_TXSTAT.PEND c.val) ≠ 0 ∨ (s.mbus c.val).tunQ ≠ []))) ∧
  (∃ (s : State) (c : Fin 16) (src : WakeSource),
    (s.mbMode c.val = mbSLEEP) ∧ ((match src with | .dominant n => 40 ≤ n ∧ s.get (MB_CTL.WAKESRC c.val) ≠ 1 | .frame f _ => (s.mbObj c.val (s.get (MB_CFG.WAKEOBJ c.val))).accepts f = true ∧ s.get (MB_CTL.WAKESRC c.val) ≠ 0 ∧ (f.fdf = true → s.on (MB_CFG.FDEN c.val) = true ∧ f.rtr = false) | .txRequest => s.get (MB_TXSTAT.PEND c.val) ≠ 0 ∨ (s.mbus c.val).tunQ ≠ []))) ∧
  (∃ (s : State) (c : Fin 16) (src : WakeSource),
    (s.mbMode c.val = mbSLEEP) ∧ ((match src with | .dominant n => 40 ≤ n ∧ s.get (MB_CTL.WAKESRC c.val) ≠ 1 | .frame f _ => (s.mbObj c.val (s.get (MB_CFG.WAKEOBJ c.val))).accepts f = true ∧ s.get (MB_CTL.WAKESRC c.val) ≠ 0 ∧ (f.fdf = true → s.on (MB_CFG.FDEN c.val) = true ∧ f.rtr = false) | .txRequest => s.get (MB_TXSTAT.PEND c.val) ≠ 0 ∨ (s.mbus c.val).tunQ ≠ []))) :=
  ⟨by refine ⟨s0, 0, 3, true, ?main⟩; case main => ((and_intros <;> (try with_reducible rfl)); all_goals first | decide +kernel | rfl),
   by refine ⟨bus0 Mb.reset [], 0, 4, false, ?main⟩; case main => ((and_intros <;> (try with_reducible rfl)); all_goals first | decide +kernel | rfl),
   by refine ⟨bus0 onBus3 [], 0, ?main⟩; case main => ((and_intros <;> (try with_reducible rfl)); all_goals first | decide +kernel | rfl),
   by refine ⟨bus0 { Mb.reset with busy := true } [], 0, ?main⟩; case main => ((and_intros <;> (try with_reducible rfl)); all_goals first | decide +kernel | rfl),
   by refine ⟨bus0 { Mb.reset with newMode := some 2 } [], 0, 2, ?main⟩; case main => ((and_intros <;> (try with_reducible rfl)); all_goals first | decide +kernel | rfl),
   by refine ⟨st [(MB_FSEL.OBJ 0, 511)], 0, 9, 511, ?main⟩; case main => ((and_intros <;> (try with_reducible rfl)); all_goals first | decide +kernel | rfl),
   by refine ⟨bus0 Mb.reset [], 0, busFrame, 100, ?main⟩; case main => ((and_intros <;> (try with_reducible rfl)); all_goals first | decide +kernel | rfl),
   by refine ⟨(bus0 Mb.reset [(MB_CFG.LOCKTO 0, 30)]).setMbObj 0 4 { MbObj.reset with locked := some 7 }, 0, 4, { MbObj.reset with locked := some 7 }, 7, ?main⟩; case main => ((and_intros <;> (try with_reducible rfl)); all_goals first | decide +kernel | rfl),
   by refine ⟨st [(MB_CTL.MODE 0, 3)], 0, .dominant 40, ?main⟩; case main => ((and_intros <;> (try with_reducible rfl)); all_goals first | decide +kernel | rfl),
   by refine ⟨(st [(MB_CTL.MODE 0, 3), (MB_CTL.WAKESRC 0, 1)]).setMbObj 0 0 { MbObj.reset with fid := 2 ^ 47 + 5 }, 0, .frame busFrame 100, ?main⟩; case main => ((and_intros <;> (try with_reducible rfl)); all_goals first | decide +kernel | rfl),
   by refine ⟨st [(MB_CTL.MODE 0, 3), (MB_TXSTAT.PEND 0, 1)], 0, .txRequest, ?main⟩; case main => ((and_intros <;> (try with_reducible rfl)); all_goals first | decide +kernel | rfl)⟩

/-- States and operands meet the hypotheses of BusControllersSendAndConfineErrors. -/
theorem witness_BusControllersSendAndConfineErrors :
  (∃ (s : State) (c : Fin 16) (v : Word),
    (s.mode ≠ mHold)) ∧
  (∃ (s : State) (c : Fin 16) (v : Word) (b : Nat),
    (b < 32) ∧ (v.toNat % 2 ^ 32 = 2 ^ b) ∧ (s.mode = mHold)) ∧
  (∃ (s : State) (c : Fin 16) (v : Word) (b : Nat),
    (b < 32) ∧ (v.toNat % 2 ^ 32 = 2 ^ b) ∧ (s.bit (MB_TXSTAT.PEND c.val) b = true) ∧ ((s.mbus c.val).onBus.map MbSend.src = some (.buf b))) ∧
  (∃ (s : State) (c : Fin 16) (v : Word) (b : Nat),
    (b < 32) ∧ (v.toNat % 2 ^ 32 = 2 ^ b) ∧ (s.bit (MB_TXSTAT.PEND c.val) b = true) ∧ (¬ ((s.mbus c.val).onBus.map MbSend.src = some (.buf b)))) ∧
  (∃ (s : State) (c : Fin 16) (v : Word) (b : Nat),
    (b < 32) ∧ (v.toNat % 2 ^ 32 = 2 ^ b) ∧ (s.bit (MB_TXSTAT.PEND c.val) b = false)) ∧
  (∃ (s : State) (c : Fin 16) (r : TxEnd) (b : Nat) (m : MbSend) (x : MbBuf) (res : Option Nat) (code : Nat),
    ((s.mbus c.val).onBus = some m) ∧ (m.src = .buf b) ∧ (b < 32) ∧ (x = s.mbBuf c.val b) ∧ (code = (match r with | .lostArbitration => 0 | .collision _ => 5 | _ => 4)) ∧ (res = (if r = .sent then some (if x.cancel then 2 else 1) else if x.cancel ∨ s.mode = mHold then some 3 else if s.mbMode c.val = mbRESTRICTED ∧ code ≠ 0 then some code else if (m.words.getD 0 0).getLsbD 46 then some 4 else if x.again then some 3 else none))) ∧
  (∃ (s : State) (c : Fin 16) (r : TxEnd) (b : Nat) (m : MbSend) (x : MbBuf) (res : Option Nat) (code : Nat),
    ((s.mbus c.val).onBus = some m) ∧ (m.src = .buf b) ∧ (b < 32) ∧ (x = s.mbBuf c.val b) ∧ (code = (match r with | .lostArbitration => 0 | .collision _ => 5 | _ => 4)) ∧ (res = (if r = .sent then some (if x.cancel then 2 else 1) else if x.cancel ∨ s.mode = mHold then some 3 else if s.mbMode c.val = mbRESTRICTED ∧ code ≠ 0 then some code else if (m.words.getD 0 0).getLsbD 46 then some 4 else if x.again then some 3 else none))) ∧
  (∃ (s : State) (c : Fin 16) (err : BusError) (tec rec : Nat),
    (s.mbTakesPart c.val = true) ∧ (((s.mbus c.val).onBus ≠ none ∨ err = .receiving ∨ err = .dominantAfterFlag true ∨ err = .dominantAfterFlag false)) ∧ (tec = s.get (MB_ERR.TEC c.val) + (match err with | .collision _ => 8 | .transmitting => 8 | .noAck => if s.get (MB_ERR.STATE c.val) = mbErrPassive then 0 else 8 | .arbitrationStuff => 0 | .receiving => 0 | .dominantAfterFlag own => if own then 8 else 0)) ∧ (rec = s.get (MB_ERR.REC c.val) + (match err with | .receiving => 1 | .dominantAfterFlag own => if own then 0 else 8 | _ => 0))) ∧
  (∃ (s : State) (c : Fin 16) (err : BusError) (tec rec : Nat),
    (s.mbTakesPart c.val = true) ∧ (((s.mbus c.val).onBus ≠ none ∨ err = .receiving ∨ err = .dominantAfterFlag true ∨ err = .dominantAfterFlag false)) ∧ (tec = s.get (MB_ERR.TEC c.val) + (match err with | .collision _ => 8 | .transmitting => 8 | .noAck => if s.get (MB_ERR.STATE c.val) = mbErrPassive then 0 else 8 | .arbitrationStuff => 0 | .receiving => 0 | .dominantAfterFlag own => if own then 8 else 0)) ∧ (rec = s.get (MB_ERR.REC c.val) + (match err with | .receiving => 1 | .dominantAfterFlag own => if own then 0 else 8 | _ => 0))) ∧
  (∃ (s : State) (c : Fin 16) (err : BusError) (tec rec : Nat),
    (s.mbTakesPart c.val = true) ∧ (((s.mbus c.val).onBus ≠ none ∨ err = .receiving ∨ err = .dominantAfterFlag true ∨ err = .dominantAfterFlag false)) ∧ (tec = s.get (MB_ERR.TEC c.val) + (match err with | .collision _ => 8 | .transmitting => 8 | .noAck => if s.get (MB_ERR.STATE c.val) = mbErrPassive then 0 else 8 | .arbitrationStuff => 0 | .receiving => 0 | .dominantAfterFlag own => if own then 8 else 0)) ∧ (rec = s.get (MB_ERR.REC c.val) + (match err with | .receiving => 1 | .dominantAfterFlag own => if own then 0 else 8 | _ => 0))) ∧
  (∃ (s : State) (c : Fin 16) (err : BusError) (tec rec : Nat),
    (s.mbTakesPart c.val = true) ∧ (((s.mbus c.val).onBus ≠ none ∨ err = .receiving ∨ err = .dominantAfterFlag true ∨ err = .dominantAfterFlag false)) ∧ (tec = s.get (MB_ERR.TEC c.val) + (match err with | .collision _ => 8 | .transmitting => 8 | .noAck => if s.get (MB_ERR.STATE c.val) = mbErrPassive then 0 else 8 | .arbitrationStuff => 0 | .receiving => 0 | .dominantAfterFlag own => if own then 8 else 0)) ∧ (rec = s.get (MB_ERR.REC c.val) + (match err with | .receiving => 1 | .dominantAfterFlag own => if own then 0 else 8 | _ => 0))) ∧
  (∃ (s : State) (c : Fin 16),
    (s.get (MB_ERR.STATE c.val) = mbBusOff)) :=
  ⟨by refine ⟨bus0 Mb.reset [], 0, 2 ^ 31, ?main⟩; case main => ((and_intros <;> (try with_reducible rfl)); all_goals first | decide +kernel | rfl),
   by refine ⟨{ s0 with kpMode := KpReg.of 6 }, 0, 2 ^ 31, 31, ?main⟩; case main => ((and_intros <;> (try with_reducible rfl)); all_goals first | decide +kernel | rfl),
   by refine ⟨bus0 onBus3 [(MB_TXSTAT.PEND 0, 8)], 0, 8, 3, ?main⟩; case main => ((and_intros <;> (try with_reducible rfl)); all_goals first | decide +kernel | rfl),
   by refine ⟨bus0 onBus3 [(MB_TXSTAT.PEND 0, 16)], 0, 16, 4, ?main⟩; case main => ((and_intros <;> (try with_reducible rfl)); all_goals first | decide +kernel | rfl),
   by refine ⟨bus0 onBus3 [], 0, 16, 4, ?main⟩; case main => ((and_intros <;> (try with_reducible rfl)); all_goals first | decide +kernel | rfl),
   by refine ⟨bus0 onBus3 [(MB_TXSTAT.PEND 0, 8)], 0, .sent, 3, sending, MbBuf.reset, some 1, 4, ?main⟩; case main => ((and_intros <;> (try with_reducible rfl)); all_goals first | decide +kernel | rfl),
   by refine ⟨bus0 onBus3 [(MB_TXSTAT.PEND 0, 8)], 0, .lostArbitration, 3, sending, MbBuf.reset, none, 0, ?main⟩; case main => ((and_intros <;> (try with_reducible rfl)); all_goals first | decide +kernel | rfl),
   by refine ⟨bus0 onBus3 [], 0, .receiving, 0, 1, ?main⟩; case main => ((and_intros <;> (try with_reducible rfl)); all_goals first | decide +kernel | rfl),
   by refine ⟨bus0 onBus3 [(MB_ERR.TEC 0, 250)], 0, .collision 4, 258, 0, ?main⟩; case main => ((and_intros <;> (try with_reducible rfl)); all_goals first | decide +kernel | rfl),
   by refine ⟨bus0 onBus3 [(MB_ERR.STATE 0, 1)], 0, .noAck, 0, 0, ?main⟩; case main => ((and_intros <;> (try with_reducible rfl)); all_goals first | decide +kernel | rfl),
   by refine ⟨bus0 onBus3 [], 0, .dominantAfterFlag false, 0, 8, ?main⟩; case main => ((and_intros <;> (try with_reducible rfl)); all_goals first | decide +kernel | rfl),
   by refine ⟨bus0 Mb.reset [(MB_ERR.STATE 0, 2)], 0, ?main⟩; case main => ((and_intros <;> (try with_reducible rfl)); all_goals first | decide +kernel | rfl)⟩

/-- States and operands meet the hypotheses of RingLanesLockFailAndSwap. -/
theorem witness_RingLanesLockFailAndSwap :
  (∃ (s : State) (p : Fin 4) (l : Fin 9) (eye : BitVec 8) (x : RLane) (g : Field) (w : Codeword),
    (x = s.rlane p.val l.val) ∧ (g = RINGP_LANE.STATE p.val l.val) ∧ (s.on (RINGP_CTL.EN p.val) = true) ∧ (s.mode ≠ mRecovery)) ∧
  (∃ (s : State) (p : Fin 4) (l : Fin 9) (eye : BitVec 8) (x : RLane) (g : Field),
    (x = s.rlane p.val l.val) ∧ (g = RINGP_LANE.STATE p.val l.val) ∧ (s.on (RINGP_CTL.EN p.val) = true) ∧ (s.mode ≠ mRecovery)) ∧
  (∃ (s : State) (p : Fin 4) (l : Fin 9) (eye : BitVec 8) (x : RLane) (g : Field) (n c : Nat) (side lw : BitVec 20),
    (x = s.rlane p.val l.val) ∧ (g = RINGP_LANE.STATE p.val l.val) ∧ (s.on (RINGP_CTL.EN p.val) = true) ∧ (s.mode ≠ mRecovery) ∧ ((∀ i, i < 20 → lw.getLsbD (19 - i) = side.getLsbD i)) ∧ (c < 33) ∧ (bits lw.toNat 19 14 = (c + 1) % 33) ∧ (x.cseq = some c) ∧ (3 ≤ x.good)) ∧
  (∃ (s : State) (p : Fin 4) (l : Fin 9),
    (s.locked p.val l.val = true)) ∧
  (∃ (s : State) (p : Fin 4) (l : Fin 9) (r : RPort),
    (r = s.rport p.val) ∧ (s.on (RINGP_CTL.EN p.val) = true) ∧ (s.locked p.val l.val = false) ∧ (l.val ∉ r.failed) ∧ (Tab.get 0 r.trainAt l.val + s.get RING_CFG.TRAINTO ≤ s.cyc.ncyc)) ∧
  (∃ (s : State) (p : Fin 4) (f : Nat),
    (s.get (RINGP_SWAP.STATE p.val) = 1) ∧ (s.locked p.val 8 = true) ∧ ((s.rlane p.val 8).acted = some f) ∧ (lwPos f = (s.rport p.val).swapPos) ∧ (lwState f = 3)) ∧
  (∃ (s : State) (p : Fin 4),
    (s.get (RINGP_SWAP.STATE p.val) = 1) ∧ ((s.rport p.val).swapAt + s.get RING_CFG.TRAINTO ≤ s.cyc.ncyc)) ∧
  (∃ (s : State) (p : Fin 4),
    (s.get (RINGP_SWAP.STATE p.val) = 1 ∨ s.get (RINGP_SWAP.STATE p.val) = 2)) ∧
  (∃ (s : State) (p : Fin 4),
    (s.get (RINGP_SWAP.STATE p.val) = 3)) ∧
  (∃ (s : State) (p : Fin 4) (ws : List Word) (r : RPort) (peer : Nat × Nat),
    (ws.length = 20) ∧ (r = s.rport p.val) ∧ (s.on (RINGP_CTL.SEAL p.val) = true) ∧ (wordAt ws 0 / 2 ^ 40 = 3) ∧ (peer = (wordAt ws 0 % 2 ^ 16, wordAt ws 1 * 2 ^ 48 + wordAt ws 2)) ∧ (r.peer ≠ some peer)) ∧
  (∃ (s : State) (p : Fin 4) (r : RPort) (c : Nat),
    (r = s.rport p.val) ∧ (r.readyAt = some c) ∧ (s.on (RINGP_CTL.SEAL p.val) = true) ∧ (s.get (RINGP_STAT.SEALST p.val) = 1) ∧ (r.sealSaid = false) ∧ (c + s.get RING_CFG.TRAINTO ≤ s.cyc.ncyc)) :=
  ⟨by refine ⟨ring0 RPort.reset [], 0, 3, 9, ?v75, ?v76, .good 2 5, ?main⟩; case main => ((and_intros <;> (try with_reducible rfl)); all_goals first | decide +kernel | rfl),
   by refine ⟨ring0 RPort.reset [], 0, 3, 9, ?v77, ?v78, ?main⟩; case main => ((and_intros <;> (try with_reducible rfl)); all_goals first | decide +kernel | rfl),
   by refine ⟨ring0 { RPort.reset with lanes := [(3, { RLane.reset with cseq := some 32, good := 3 })] } [], 0, 3, 9, { RLane.reset with cseq := some 32, good := 3 }, RINGP_LANE.STATE 0 3, 1, 32, 0, 0 , ?main⟩; case main => ((and_intros <;> (try with_reducible rfl)); all_goals first | ((intro _ _; simp)) | decide +kernel | rfl),
   by refine ⟨ring0 RPort.reset [(RINGP_LANE.STATE 0 2, 1)], 0, 2, ?main⟩; case main => ((and_intros <;> (try with_reducible rfl)); all_goals first | decide +kernel | rfl),
   by refine ⟨ring0 RPort.reset [], 0, 2, ?v79, ?main⟩; case main => ((and_intros <;> (try with_reducible rfl)); all_goals first | decide +kernel | rfl),
   by refine ⟨ring0 { RPort.reset with lanes := [(8, { RLane.reset with acted := some 768 })] } [(RINGP_SWAP.STATE 0, 1), (RINGP_LANE.STATE 0 8, 1)], 0, 768, ?main⟩; case main => ((and_intros <;> (try with_reducible rfl)); all_goals first | decide +kernel | rfl),
   by refine ⟨ring0 RPort.reset [(RINGP_SWAP.STATE 0, 1)], 0, ?main⟩; case main => ((and_intros <;> (try with_reducible rfl)); all_goals first | decide +kernel | rfl),
   by refine ⟨ring0 RPort.reset [(RINGP_SWAP.STATE 0, 2)], 0, ?main⟩; case main => ((and_intros <;> (try with_reducible rfl)); all_goals first | decide +kernel | rfl),
   by refine ⟨ring0 RPort.reset [(RINGP_SWAP.STATE 0, 3)], 0, ?main⟩; case main => ((and_intros <;> (try with_reducible rfl)); all_goals first | decide +kernel | rfl),
   by refine ⟨ring0 RPort.reset [(RINGP_CTL.SEAL 0, 1)], 0, pad20 [word (3 * 2 ^ 40 + 7), 2, 3], RPort.reset, (7, 2 ^ 49 + 3), ?main⟩; case main => ((and_intros <;> (try with_reducible rfl)); all_goals first | decide +kernel | rfl),
   by refine ⟨ring0 { RPort.reset with readyAt := some 5 } [(RINGP_CTL.SEAL 0, 1), (RINGP_STAT.SEALST 0, 1)], 0, { RPort.reset with readyAt := some 5 }, 5, ?main⟩; case main => ((and_intros <;> (try with_reducible rfl)); all_goals first | decide +kernel | rfl)⟩

/-- States and operands meet the hypotheses of CycleStartsAndMatrixBoundaries. -/
theorem witness_CycleStartsAndMatrixBoundaries :
  (∃ (s : State),
    (s.cyc.started ≠ some s.cycKey)) ∧
  (∃ (s : State),
    (s.cyc.started = some s.cycKey) ∧ (s.cyc.slew = 0) ∧ (s.cyc.slewWin = 0) ∧ (s.cyc.rtSlew = 0) ∧ (s.cyc.frac.natAbs < 256) ∧ (s.cyc.offset < s.bc) ∧ (s.cycNow < s.matrixLen) ∧ (s.matrixLen ≤ 64)) ∧
  (∃ (s : State),
    (s.cycNow = 0) ∧ (s.cyc.bnd ≠ some s.mseq) ∧ (s.sstate ≠ ssLISTEN)) ∧
  (∃ (s : State) (v : Word),
    (s.mode = mCommission ∧ cycCfgReserved v = false)) ∧
  (∃ (s : State) (v : Word),
    (¬ (s.mode = mCommission ∧ cycCfgReserved v = false))) ∧
  (∃ (s : State) (v : Word),
    (s.on CYC_CTL.STEER = true ∧ s.on CYC_CTL.SYNC = true)) ∧
  (∃ (s : State) (v : Word),
    (¬ (s.on CYC_CTL.STEER = true ∧ s.on CYC_CTL.SYNC = true))) :=
  ⟨by refine ⟨s0, ?main⟩; case main => ((and_intros <;> (try with_reducible rfl)); all_goals first | decide +kernel | rfl),
   by refine ⟨synced { Cyc.reset with started := some 0, offset := 100 } [], ?main⟩; case main => ((and_intros <;> (try with_reducible rfl)); all_goals first | decide +kernel | rfl),
   by refine ⟨synced { Cyc.reset with steer := some (.mk 1 (-5) 0), csum := 700 } [], ?main⟩; case main => ((and_intros <;> (try with_reducible rfl)); all_goals first | decide +kernel | rfl),
   by refine ⟨s0, word (16 * 2 ^ 32 + 16 * 2 ^ 24 + 3 * 2 ^ 17 + 32000), ?main⟩; case main => ((and_intros <;> (try with_reducible rfl)); all_goals first | decide +kernel | rfl),
   by refine ⟨s0, 0, ?main⟩; case main => ((and_intros <;> (try with_reducible rfl)); all_goals first | decide +kernel | rfl),
   by refine ⟨st [(CYC_CTL.STEER, 1), (CYC_CTL.SYNC, 1)], word (2 ^ 47 + 9), ?main⟩; case main => ((and_intros <;> (try with_reducible rfl)); all_goals first | decide +kernel | rfl),
   by refine ⟨s0, 9, ?main⟩; case main => ((and_intros <;> (try with_reducible rfl)); all_goals first | decide +kernel | rfl)⟩

/-- States and operands meet the hypotheses of WindowsSyncCellsAndCorrections. -/
theorem witness_WindowsSyncCellsAndCorrections :
  (∃ (s : State) (row : Fin 4096) (busy : BitVec 14) (c : Cell) (r : Row) (u : State),
    (s.ownRows.find? (fun x => x.idx == row.val) = some r) ∧ (s.cyc.offset ≤ r.start) ∧ (s.cellsLeave = true) ∧ (s.cyc.stopped = false) ∧ (r.hb = false) ∧ (r.src ≠ 27) ∧ (r.src ≠ 29) ∧ (c.words.length = 20) ∧ (1 ≤ r.cells) ∧ (c.kind ≠ kORPHAN) ∧ (u = s.advance (r.start - s.cyc.offset)) ∧ ((if c.kind = kBWRITE then r.dest = 0xFFFF else c.node.toNat = r.dest ∧ r.dest ≠ 0))) ∧
  (∃ (s : State) (row : Fin 4096) (busy : BitVec 14) (c : Cell) (r : Row) (u : State),
    (s.ownRows.find? (fun x => x.idx == row.val) = some r) ∧ (s.cyc.offset ≤ r.start) ∧ (s.cellsLeave = true) ∧ (s.cyc.stopped = false) ∧ (r.hb = false) ∧ (r.src ≠ 27) ∧ (r.src ≠ 29) ∧ (c.words.length = 20) ∧ (1 ≤ r.cells) ∧ (c.kind ≠ kORPHAN) ∧ (u = s.advance (r.start - s.cyc.offset)) ∧ ((if c.kind = kBWRITE then r.dest = 0xFFFF else c.node.toNat = r.dest ∧ r.dest ≠ 0))) ∧
  (∃ (s : State) (row : Fin 4096) (busy : BitVec 14) (c : Cell) (r : Row) (u : State),
    (s.ownRows.find? (fun x => x.idx == row.val) = some r) ∧ (s.cyc.offset ≤ r.start) ∧ (s.cellsLeave = true) ∧ (s.cyc.stopped = false) ∧ (r.hb = false) ∧ (r.src ≠ 27) ∧ (r.src ≠ 29) ∧ (c.words.length = 20) ∧ (1 ≤ r.cells) ∧ (c.kind ≠ kORPHAN) ∧ (u = s.advance (r.start - s.cyc.offset)) ∧ ((if c.kind = kBWRITE then r.dest = 0xFFFF else c.node.toNat = r.dest ∧ r.dest ≠ 0))) ∧
  (∃ (s : State) (row : Fin 4096) (busy : BitVec 14) (c : Cell) (r : Row) (u : State),
    (s.ownRows.find? (fun x => x.idx == row.val) = some r) ∧ (s.cyc.offset ≤ r.start) ∧ (s.cellsLeave = true) ∧ (s.cyc.stopped = false) ∧ (r.hb = false) ∧ (r.src ≠ 27) ∧ (r.src ≠ 29) ∧ (c.words.length = 20) ∧ (1 ≤ r.cells) ∧ (c.kind ≠ kORPHAN) ∧ (u = s.advance (r.start - s.cyc.offset)) ∧ ((if c.kind = kBWRITE then r.dest = 0xFFFF else c.node.toNat = r.dest ∧ r.dest ≠ 0))) ∧
  (∃ (s : State) (cp : Nat) (c : Cell),
    (c.words.length = 20) ∧ (s.ttOpen (cpPort cp) (cpSub cp) = true)) ∧
  (∃ (s : State) (cp : Nat) (c : Cell),
    (c.words.length = 20) ∧ (¬ (s.ttOpen (cpPort cp) (cpSub cp) = true))) ∧
  (∃ (s : State) (p k : Fin 4) (c : Cell) (arrival : BitVec 48),
    (c.words.length = 20) ∧ (c.f1.toNat = s.node) ∧ (c.wrap.toNat ≠ 1)) ∧
  (∃ (s : State) (p k : Fin 4) (c : Cell) (arrival : BitVec 48),
    (c.words.length = 20) ∧ (c.wrap.toNat = 1)) ∧
  (∃ (s : State) (p k : Fin 4) (c : Cell) (arrival : BitVec 48) (x : SyncCell) (delay : Int),
    (c.words.length = 20) ∧ (c.wrap.toNat ≠ 1) ∧ (c.f1.toNat ≠ s.node) ∧ (x = syncOf c.words) ∧ (delay = x.corr + s.get (CYC_LINKDLY.DELAY p.val)) ∧ ((if pathB p.val then s.cyc.seenB else s.cyc.seenA).contains x.slot = true)) ∧
  (∃ (s : State) (p k : Fin 4) (c : Cell) (arrival : BitVec 48) (x : SyncCell) (delay : Int),
    (c.words.length = 20) ∧ (c.wrap.toNat ≠ 1) ∧ (c.f1.toNat ≠ s.node) ∧ (x = syncOf c.words) ∧ (delay = x.corr + s.get (CYC_LINKDLY.DELAY p.val)) ∧ (¬ ((if pathB p.val then s.cyc.seenB else s.cyc.seenA).contains x.slot = true)) ∧ (s.cyc.seenA.contains x.slot = false) ∧ (s.cyc.seenB.contains x.slot = false) ∧ ((s.sstate = ssCOLDSTART → s.mode = mJoin))) ∧
  (∃ (s : State) (p k : Fin 4) (c : Cell) (arrival : BitVec 48) (x : SyncCell) (delay : Int),
    (c.words.length = 20) ∧ (c.wrap.toNat ≠ 1) ∧ (c.f1.toNat ≠ s.node) ∧ (x = syncOf c.words) ∧ (delay = x.corr + s.get (CYC_LINKDLY.DELAY p.val)) ∧ (¬ ((if pathB p.val then s.cyc.seenB else s.cyc.seenA).contains x.slot = true)) ∧ (s.cyc.seenA.contains x.slot = false) ∧ (s.cyc.seenB.contains x.slot = false) ∧ ((s.sstate = ssCOLDSTART → s.mode = mJoin))) ∧
  (∃ (s u : State) (ds : List Int) (avg : Int),
    (s.cyc.corrected = false) ∧ (s.sstate ≠ ssLISTEN) ∧ (u = s.advance (16 * s.sslot + s.span - s.cyc.offset)) ∧ (ds = s.cyc.devs.map (fun d => d.2) ++ (if s.on CYC_CTL.SYNC then [0] else [])) ∧ (ds ≠ []) ∧ (avg = trimmedMean ds) ∧ (s.cyc.noSync = 0)) ∧
  (∃ (s : State) (p : Fin 4) (ws : List Word) (arrival : BitVec 48),
    (ws.length = 20) ∧ (bits (wordAt ws 0) 47 40 = 5) ∧ ((wordAt ws 0).testBit 39 = false) ∧ (s.linkOpen p.val = true) ∧ (s.sealOpen p.val = true) ∧ (s.xbar.ctlUsed < s.get XBAR_CTLCAP.CELLS)) ∧
  (∃ (s : State) (p : Fin 4) (ws : List Word) (arrival : BitVec 48) (x : LinkDelay) (rs : List Int),
    (ws.length = 20) ∧ (bits (wordAt ws 0) 47 40 = 5) ∧ (¬ ((wordAt ws 0).testBit 39 = false)) ∧ (x = s.linkDelay p.val) ∧ (rs = ((halfRange 48 arrival.toNat (wordAt ws 1) - halfRange 48 (wordAt ws 3) (wordAt ws 2)).tdiv 2 :: x.results).take 8)) :=
  ⟨by refine ⟨synced { Cyc.reset with active := table1 } [(RINGP_STAT.SUBUP 0, 15), (RINGP_STAT.SUBUP 3, 15)], 0, 0, bcell, row0, ?v80, ?main⟩; case main => ((and_intros <;> (try with_reducible rfl)); all_goals first | decide +kernel | rfl),
   by refine ⟨synced { Cyc.reset with active := table1, grdNode := 9 } [(RINGP_STAT.SUBUP 0, 15), (RINGP_STAT.SUBUP 3, 15)], 0, 0, bcell, row0, ?v81, ?main⟩; case main => ((and_intros <;> (try with_reducible rfl)); all_goals first | decide +kernel | rfl),
   by refine ⟨synced { Cyc.reset with active := table1 } [(RINGP_STAT.SUBUP 0, 15), (RINGP_STAT.SUBUP 3, 15)], 0, 3, bcell, row0, ?v82, ?main⟩; case main => ((and_intros <;> (try with_reducible rfl)); all_goals first | decide +kernel | rfl),
   by refine ⟨synced { Cyc.reset with active := [(0, 2 ^ 47 + 7), (1, 2), (2, 400)] } [(RINGP_STAT.SUBUP 0, 15), (RINGP_STAT.SUBUP 3, 15)], 0, 0, cellOf kWRITE cTT 7 [], { row0 with dest := 7 }, ?v83, ?main⟩; case main => ((and_intros <;> (try with_reducible rfl)); all_goals first | decide +kernel | rfl),
   by refine ⟨synced { Cyc.reset with active := table1 } [(RINGP_STAT.SUBUP 0, 15), (RINGP_STAT.SUBUP 3, 15)], 0, bcell, ?main⟩; case main => ((and_intros <;> (try with_reducible rfl)); all_goals first | decide +kernel | rfl),
   by refine ⟨s0, 0, bcell, ?main⟩; case main => ((and_intros <;> (try with_reducible rfl)); all_goals first | decide +kernel | rfl),
   by refine ⟨n5 (synced Cyc.reset []), 0, 0, { bcell with f1 := 5 }, 900, ?main⟩; case main => ((and_intros <;> (try with_reducible rfl)); all_goals first | decide +kernel | rfl),
   by refine ⟨n5 (synced Cyc.reset []), 0, 0, { bcell with wrap := 1 }, 900, ?main⟩; case main => ((and_intros <;> (try with_reducible rfl)); all_goals first | decide +kernel | rfl),
   by refine ⟨n5 (synced { Cyc.reset with seenA := [0] } []), 0, 0, bcell, 900, ?v84, ?v85, ?main⟩; case main => ((and_intros <;> (try with_reducible rfl)); all_goals first | decide +kernel | rfl),
   by refine ⟨n5 (synced Cyc.reset []), 0, 0, bcell, 900, syncOf (pad20 []), 0, ?main⟩; case main => ((and_intros <;> (try with_reducible rfl)); all_goals first | decide +kernel | rfl),
   by refine ⟨n5 { st [(CYC_STAT.SSTATE, 1)] with kpMode := KpReg.of 2 }, 1, 0, cellOf kBWRITE cTT 0xFFFF [word (2 ^ 39), word (3 * 2 ^ 16)], 900, syncOf (pad20 [word (2 ^ 39), word (3 * 2 ^ 16)]), 0, ?main⟩; case main => ((and_intros <;> (try with_reducible rfl)); all_goals first | decide +kernel | rfl),
   by refine ⟨synced { Cyc.reset with devs := [(1, 300), (2, -20)] } [], ?v86, [300, -20], 140, ?main⟩; case main => ((and_intros <;> (try with_reducible rfl)); all_goals first | decide +kernel | rfl),
   by refine ⟨link0, 0, pad20 [word (5 * 2 ^ 40 + 9), 7, 0, 0], 1000, ?main⟩; case main => ((and_intros <;> (try with_reducible rfl)); all_goals first | decide +kernel | rfl),
   by refine ⟨{ s0 with cyc := { Cyc.reset with links := [(0, .mk 0 (some 7) [])] } }, 0, pad20 [word (5 * 2 ^ 40 + 2 ^ 39), 7, 20, 30], 900, .mk 0 (some 7) [], [441], ?main⟩; case main => ((and_intros <;> (try with_reducible rfl)); all_goals first | decide +kernel | rfl)⟩

/-- States and operands meet the hypotheses of OutboundRequestsBecomeCells. -/
theorem witness_OutboundRequestsBecomeCells :
  (∃ (s : State) (fn : Fin 16) (offset n o i j z : Nat) (pk di : Bool) (bytes : List Byte) (cells : List OutCell),
    (1 ≤ bytes.length) ∧ (bytes.length ≤ 512) ∧ (offset + bytes.length ≤ 2 ^ 25) ∧ (offset % 4096 + bytes.length ≤ 4096) ∧ (n = offset / 524288) ∧ (o = offset % 524288) ∧ (pk = s.on (BRG_OWINB.PACK n)) ∧ (di = s.on (BRG_OWINB.RULE n)) ∧ (z = wordSize pk) ∧ (i = o / z) ∧ (j = (o + bytes.length - 1) / z) ∧ (s.outStalled) ∧ (cells = (chunks 512 0 (j + 1 - i)).map (fun c => OutCell.mk fn.val none 0 (s.fnCell fn.val true (s.get (BRG_OWINA.NODE n)) (s.get (BRG_OWINA.CH n)) (s.get (BRG_OWINA.WORD n) + i + c.1) c.2 (((hostWords pk di (j + 1 - i) (List.replicate (o % z) 0 ++ bytes ++ List.replicate 8 0)).drop c.1).take c.2))))) ∧
  (∃ (s : State) (fn : Fin 16) (offset n o i j z : Nat) (pk di : Bool) (bytes : List Byte) (cells : List OutCell),
    (1 ≤ bytes.length) ∧ (bytes.length ≤ 512) ∧ (offset + bytes.length ≤ 2 ^ 25) ∧ (offset % 4096 + bytes.length ≤ 4096) ∧ (n = offset / 524288) ∧ (o = offset % 524288) ∧ (pk = s.on (BRG_OWINB.PACK n)) ∧ (di = s.on (BRG_OWINB.RULE n)) ∧ (z = wordSize pk) ∧ (i = o / z) ∧ (j = (o + bytes.length - 1) / z) ∧ (s.outStalled) ∧ (cells = (chunks 512 0 (j + 1 - i)).map (fun c => OutCell.mk fn.val none 0 (s.fnCell fn.val true (s.get (BRG_OWINA.NODE n)) (s.get (BRG_OWINA.CH n)) (s.get (BRG_OWINA.WORD n) + i + c.1) c.2 (((hostWords pk di (j + 1 - i) (List.replicate (o % z) 0 ++ bytes ++ List.replicate 8 0)).drop c.1).take c.2))))) ∧
  (∃ (s : State) (fn : Fin 16) (offset n o i j z : Nat) (pk di : Bool) (bytes : List Byte) (cells : List OutCell),
    (1 ≤ bytes.length) ∧ (bytes.length ≤ 512) ∧ (offset + bytes.length ≤ 2 ^ 25) ∧ (offset % 4096 + bytes.length ≤ 4096) ∧ (n = offset / 524288) ∧ (o = offset % 524288) ∧ (pk = s.on (BRG_OWINB.PACK n)) ∧ (di = s.on (BRG_OWINB.RULE n)) ∧ (z = wordSize pk) ∧ (i = o / z) ∧ (j = (o + bytes.length - 1) / z) ∧ (s.outStalled) ∧ (cells = (chunks 512 0 (j + 1 - i)).map (fun c => OutCell.mk fn.val none 0 (s.fnCell fn.val true (s.get (BRG_OWINA.NODE n)) (s.get (BRG_OWINA.CH n)) (s.get (BRG_OWINA.WORD n) + i + c.1) c.2 (((hostWords pk di (j + 1 - i) (List.replicate (o % z) 0 ++ bytes ++ List.replicate 8 0)).drop c.1).take c.2))))) ∧
  (∃ (s : State) (fn : Fin 16) (offset len n o i j z : Nat) (pk : Bool) (cells : List OutCell),
    (1 ≤ len) ∧ (len ≤ 4096) ∧ (offset + len ≤ 2 ^ 25) ∧ (offset % 4096 + len ≤ 4096) ∧ (n = offset / 524288) ∧ (o = offset % 524288) ∧ (pk = s.on (BRG_OWINB.PACK n)) ∧ (z = wordSize pk) ∧ (i = o / z) ∧ (j = (o + len - 1) / z) ∧ (s.outStalled) ∧ (cells = (chunks 1024 0 (j + 1 - i)).map (fun c => OutCell.mk fn.val (some s.brg.nextReq) c.1 (s.fnCell fn.val false (s.get (BRG_OWINA.NODE n)) (s.get (BRG_OWINA.CH n)) (s.get (BRG_OWINA.WORD n) + i + c.1) c.2 [])))) ∧
  (∃ (s : State) (fn : Fin 16) (offset len n o i j z : Nat) (pk : Bool) (cells : List OutCell),
    (1 ≤ len) ∧ (len ≤ 4096) ∧ (offset + len ≤ 2 ^ 25) ∧ (offset % 4096 + len ≤ 4096) ∧ (n = offset / 524288) ∧ (o = offset % 524288) ∧ (pk = s.on (BRG_OWINB.PACK n)) ∧ (z = wordSize pk) ∧ (i = o / z) ∧ (j = (o + len - 1) / z) ∧ (s.outStalled) ∧ (cells = (chunks 1024 0 (j + 1 - i)).map (fun c => OutCell.mk fn.val (some s.brg.nextReq) c.1 (s.fnCell fn.val false (s.get (BRG_OWINA.NODE n)) (s.get (BRG_OWINA.CH n)) (s.get (BRG_OWINA.WORD n) + i + c.1) c.2 [])))) ∧
  (∃ (s : State),
    (s.outStalled)) ∧
  (∃ (s : State) (c : Cell),
    (c.words.length = 20)) ∧
  (∃ (s : State) (c : Cell),
    (c.words.length = 20)) :=
  ⟨by refine ⟨host0 Brg.reset [], 2, 524312, 1, 24, 3, 3, 8, false, false, [1, 2, 3, 4, 5, 6, 7, 8], ?v87 , ?main⟩; case main => ((and_intros <;> (try with_reducible rfl)); all_goals first | ((intro pre c post h; have h0 : ([] : List OutCell) = pre ++ c :: post := h; simp at h0)) | decide +kernel | rfl),
   by refine ⟨host0 Brg.reset [], 2, 524311, 1, 23, 2, 3, 8, false, false, [1, 2, 3, 4, 5, 6, 7, 8], ?v88 , ?main⟩; case main => ((and_intros <;> (try with_reducible rfl)); all_goals first | ((intro pre c post h; have h0 : ([] : List OutCell) = pre ++ c :: post := h; simp at h0)) | decide +kernel | rfl),
   by refine ⟨host0 Brg.reset [(BRG_OWINB.PACK 1, 1)], 3, 524306, 1, 18, 3, 4, 6, true, false, [1, 2, 3, 4, 5, 6, 7, 8], ?v89 , ?main⟩; case main => ((and_intros <;> (try with_reducible rfl)); all_goals first | ((intro pre c post h; have h0 : ([] : List OutCell) = pre ++ c :: post := h; simp at h0)) | decide +kernel | rfl),
   by refine ⟨n5 (host0 Brg.reset []), 2, 524312, 16, 1, 24, 3, 4, 8, false, ?v90 , ?main⟩; case main => ((and_intros <;> (try with_reducible rfl)); all_goals first | ((intro pre c post h; have h0 : ([] : List OutCell) = pre ++ c :: post := h; simp at h0)) | decide +kernel | rfl),
   by refine ⟨host0 Brg.reset [], 3, 524312, 16, 1, 24, 3, 4, 8, false, ?v91 , ?main⟩; case main => ((and_intros <;> (try with_reducible rfl)); all_goals first | ((intro pre c post h; have h0 : ([] : List OutCell) = pre ++ c :: post := h; simp at h0)) | decide +kernel | rfl),
   by refine ⟨host0 Brg.reset [] , ?main⟩; case main => ((and_intros <;> (try with_reducible rfl)); all_goals first | ((intro pre c post h; have h0 : ([] : List OutCell) = pre ++ c :: post := h; simp at h0)) | decide +kernel | rfl),
   by refine ⟨host0 { Brg.reset with tags := [(19, .busy 7 0 1 500)], reads := [out2] } [], { cellOf kRESP cBULK 0 [77] with f2 := 19 }, ?main⟩; case main => ((and_intros <;> (try with_reducible rfl)); all_goals first | decide +kernel | rfl),
   by refine ⟨host0 Brg.reset [], { cellOf kRESP cBULK 0 [77] with f2 := 1024 }, ?main⟩; case main => ((and_intros <;> (try with_reducible rfl)); all_goals first | decide +kernel | rfl)⟩

/-- States and operands meet the hypotheses of InboundAccessesAndTunnels. -/
theorem witness_InboundAccessesAndTunnels :
  (∃ (s v : State) (c : Cell) (e : Entry) (k n : Nat) (pk di : Bool),
    (c.words.length = 20) ∧ (c.nm1.toNat ≤ 19) ∧ (n = c.nm1.toNat + 1) ∧ (e.iwin = some k) ∧ (pk = v.on (BRG_IWINB.PACK k)) ∧ (di = v.on (BRG_IWINB.RULE k)) ∧ (c.kind = kWRITE ∨ c.kind = kBWRITE) ∧ (s.decode (c.kind == kBWRITE) c.ten.toNat c.f1.toNat c.f2.toNat n (some (c.words.take n)) = (v, .channel e))) ∧
  (∃ (s v : State) (c : Cell) (e : Entry) (k n : Nat) (pk di : Bool),
    (c.words.length = 20) ∧ (c.nm1.toNat ≤ 19) ∧ (n = c.nm1.toNat + 1) ∧ (e.iwin = some k) ∧ (pk = v.on (BRG_IWINB.PACK k)) ∧ (di = v.on (BRG_IWINB.RULE k)) ∧ (c.kind = kREAD) ∧ (s.decode false c.ten.toNat c.f1.toNat c.f2.toNat n none = (v, .channel e))) ∧
  (∃ (s : State) (id n : Nat) (r : HostRead) (c : Cell) (pk di : Bool) (ws : List Word),
    (s.brg.host.find? (fun (r : HostRead) => r.id == id) = some r) ∧ (r.use = .window c) ∧ (s.brg.inNp = []) ∧ (pk = s.on (BRG_IWINB.PACK r.win)) ∧ (di = s.on (BRG_IWINB.RULE r.win)) ∧ (n = c.nm1.toNat + 1) ∧ (ws.length = n)) ∧
  (∃ (s : State) (id n : Nat) (r : HostRead) (c : Cell) (pk di : Bool) (x : HostAnswer),
    (s.brg.host.find? (fun (r : HostRead) => r.id == id) = some r) ∧ (r.use = .window c) ∧ (s.brg.inNp = []) ∧ (pk = s.on (BRG_IWINB.PACK r.win)) ∧ (di = s.on (BRG_IWINB.RULE r.win)) ∧ (n = c.nm1.toNat + 1) ∧ ((∀ bs : List Byte, x ≠ .data bs))) ∧
  (∃ (s : State) (id n : Nat) (r : HostRead) (c : Cell) (pk di : Bool),
    (s.brg.host.find? (fun (r : HostRead) => r.id == id) = some r) ∧ (r.use = .window c) ∧ (s.brg.inNp = []) ∧ (pk = s.on (BRG_IWINB.PACK r.win)) ∧ (di = s.on (BRG_IWINB.RULE r.win)) ∧ (n = c.nm1.toNat + 1)) ∧
  (∃ (s : State) (m : Fin 12) (f : TunFrame) (rest : List TunFrame),
    ((s.macRec m.val).rxq = f :: rest) ∧ (f.stun < 256) ∧ (s.on (BRG_TUN.EN f.stun) = false)) ∧
  (∃ (s : State) (m : Fin 12) (f : TunFrame) (rest : List TunFrame),
    ((s.macRec m.val).rxq = f :: rest) ∧ (f.stun < 256) ∧ (s.on (BRG_TUN.EN f.stun) = true) ∧ (0 < f.bytes.length) ∧ (f.bytes.length ≤ 16384) ∧ (s.tunBusy f.stun = false)) ∧
  (∃ (s v : State) (c : Cell) (e : Entry) (k i len q : Nat) (h : Word) (f : TunFrame),
    (c.words.length = 20) ∧ (h = c.words.getD 0 0) ∧ (s.decode false c.ten.toNat c.f1.toNat 0 1 (some []) = (v, .channel e)) ∧ (e.type = tTUNNEL) ∧ (e.index = k) ∧ (k < 256) ∧ (i = c.f2.toNat) ∧ (len = wbits h 29 15) ∧ (q = wbits h 47 40) ∧ (i = 0) ∧ (1 ≤ len) ∧ (len ≤ 16384) ∧ (v.brg.reasm = []) ∧ (f = .mk (wbits h 7 0) (h.getLsbD 39) (wbits h 38 37) (wbits h 36 35) (wordAt c.words 1 % 2 ^ 16) (wordAt c.words 2) ((wordBytes (c.words.drop 3)).take (min len 102))) ∧ (102 < len)) ∧
  (∃ (s v : State) (c : Cell) (e : Entry) (k i len q : Nat) (h : Word) (f : TunFrame) (m : Nat),
    (c.words.length = 20) ∧ (h = c.words.getD 0 0) ∧ (s.decode false c.ten.toNat c.f1.toNat 0 1 (some []) = (v, .channel e)) ∧ (e.type = tTUNNEL) ∧ (e.index = k) ∧ (k < 256) ∧ (i = c.f2.toNat) ∧ (len = wbits h 29 15) ∧ (q = wbits h 47 40) ∧ (i = 0) ∧ (1 ≤ len) ∧ (len ≤ 16384) ∧ (v.brg.reasm = []) ∧ (f = .mk (wbits h 7 0) (h.getLsbD 39) (wbits h 38 37) (wbits h 36 35) (wordAt c.words 1 % 2 ^ 16) (wordAt c.words 2) ((wordBytes (c.words.drop 3)).take (min len 102))) ∧ (len ≤ 102) ∧ (v.get (BRG_TUN.SINK k) = 1) ∧ (m = v.get (BRG_TUN.SIDX k)) ∧ (f.mbus = false) ∧ (m < 12) ∧ (v.mode ≠ mShadow) ∧ (64 ≤ len) ∧ (len ≤ v.get (MAC_CFG.MAXLEN m)) ∧ ((v.macRec m).txBytes + len ≤ 32768)) ∧
  (∃ (s v : State) (c : Cell) (e : Entry) (k i len q : Nat) (h : Word) (r : Reasm),
    (c.words.length = 20) ∧ (h = c.words.getD 0 0) ∧ (s.decode false c.ten.toNat c.f1.toNat 0 1 (some []) = (v, .channel e)) ∧ (e.type = tTUNNEL) ∧ (e.index = k) ∧ (k < 256) ∧ (i = c.f2.toNat) ∧ (len = wbits h 29 15) ∧ (q = wbits h 47 40) ∧ (i ≠ 0) ∧ (v.brg.reasm = [r]) ∧ (r.tun = k) ∧ (r.frame.bytes.length + 114 < r.len) ∧ (r.next = i ∧ r.fseq = q)) ∧
  (∃ (s v : State) (c : Cell) (e : Entry) (k i len q : Nat) (h : Word) (r : Reasm),
    (c.words.length = 20) ∧ (h = c.words.getD 0 0) ∧ (s.decode false c.ten.toNat c.f1.toNat 0 1 (some []) = (v, .channel e)) ∧ (e.type = tTUNNEL) ∧ (e.index = k) ∧ (k < 256) ∧ (i = c.f2.toNat) ∧ (len = wbits h 29 15) ∧ (q = wbits h 47 40) ∧ (i ≠ 0) ∧ (v.brg.reasm = [r]) ∧ (r.tun = k) ∧ (r.frame.bytes.length + 114 < r.len) ∧ (¬ (r.next = i ∧ r.fseq = q))) ∧
  (∃ (s : State) (k : Fin 256) (r : Reasm),
    (s.brg.reasm.find? (fun r => r.tun == k.val && !r.complete) = some r)) :=
  ⟨by refine ⟨tunnels 0x8003 Brg.reset [], tunFound (tunnels 0x8003 Brg.reset []) (some [5]) 1, { cellOf kWRITE cBULK 0 [5] with nm1 := 0 }, tun0 0x8003, 3, 1, false, false, ?main⟩; case main => ((and_intros <;> (try with_reducible rfl)); all_goals first | decide +kernel | rfl),
   by refine ⟨tunnels 0x8003 Brg.reset [], tunFound (tunnels 0x8003 Brg.reset []) none 1, { cellOf kREAD cBULK 0 [5] with nm1 := 0 }, tun0 0x8003, 3, 1, false, false, ?main⟩; case main => ((and_intros <;> (try with_reducible rfl)); all_goals first | decide +kernel | rfl),
   by refine ⟨host0 { Brg.reset with host := [hostWin] } [], 4, 20, hostWin, cellOf kREAD cBULK 0 [], false, false, List.replicate 20 6, ?main⟩; case main => ((and_intros <;> (try with_reducible rfl)); all_goals first | decide +kernel | rfl),
   by refine ⟨host0 { Brg.reset with host := [hostWin] } [], 4, 20, hostWin, cellOf kREAD cBULK 0 [], false, false, .poisoned , ?main⟩; case main => ((and_intros <;> (try with_reducible rfl)); all_goals first | ((intro x h; cases h)) | decide +kernel | rfl),
   by refine ⟨host0 { Brg.reset with host := [hostWin] } [], 4, 20, hostWin, cellOf kREAD cBULK 0 [], false, false, ?main⟩; case main => ((and_intros <;> (try with_reducible rfl)); all_goals first | decide +kernel | rfl),
   by refine ⟨mac0 { Mac.reset with rxq := [.mk 9 false 0 0 0 0 [1, 2]] } [], 0, .mk 9 false 0 0 0 0 [1, 2], [], ?main⟩; case main => ((and_intros <;> (try with_reducible rfl)); all_goals first | decide +kernel | rfl),
   by refine ⟨mac0 { Mac.reset with rxq := [.mk 9 false 0 0 0 0 [1, 2]] } [(BRG_TUN.EN 9, 1)], 0, .mk 9 false 0 0 0 0 [1, 2], [], ?main⟩; case main => ((and_intros <;> (try with_reducible rfl)); all_goals first | decide +kernel | rfl),
   by refine ⟨tunnels 3 Brg.reset [], tunFound (tunnels 3 Brg.reset []) (some []) 1, tunCell 0 300, tun0 3, 3, 0, 300, 5, word (5 * 2 ^ 40 + 300 * 2 ^ 15 + 9), tunFrame 102, ?main⟩; case main => ((and_intros <;> (try with_reducible rfl)); all_goals first | decide +kernel | rfl),
   by refine ⟨{ tunnels 3 Brg.reset [(BRG_TUN.SINK 3, 1), (BRG_TUN.SIDX 3, 4)] with kpMode := KpReg.of 4 }, tunFound { tunnels 3 Brg.reset [(BRG_TUN.SINK 3, 1), (BRG_TUN.SIDX 3, 4)] with kpMode := KpReg.of 4 } (some []) 1, tunCell 0 80, tun0 3, 3, 0, 80, 5, word (5 * 2 ^ 40 + 80 * 2 ^ 15 + 9), tunFrame 80, 4, ?main⟩; case main => ((and_intros <;> (try with_reducible rfl)); all_goals first | decide +kernel | rfl),
   by refine ⟨tunnels 3 { Brg.reset with reasm := [reasm3] } [], tunFound (tunnels 3 { Brg.reset with reasm := [reasm3] } []) (some []) 1, tunCell 1 0, tun0 3, 3, 1, 0, 5, word (5 * 2 ^ 40 + 9), reasm3, ?main⟩; case main => ((and_intros <;> (try with_reducible rfl)); all_goals first | decide +kernel | rfl),
   by refine ⟨tunnels 3 { Brg.reset with reasm := [reasm3] } [], tunFound (tunnels 3 { Brg.reset with reasm := [reasm3] } []) (some []) 1, tunCell 2 0, tun0 3, 3, 2, 0, 5, word (5 * 2 ^ 40 + 9), reasm3, ?main⟩; case main => ((and_intros <;> (try with_reducible rfl)); all_goals first | decide +kernel | rfl),
   by refine ⟨tunnels 3 { Brg.reset with reasm := [reasm3] } [], 3, reasm3, ?main⟩; case main => ((and_intros <;> (try with_reducible rfl)); all_goals first | decide +kernel | rfl)⟩

/-- States and operands meet the hypotheses of MacsReceiveSendAndChangeTheirLinks. -/
theorem witness_MacsReceiveSendAndChangeTheirLinks :
  (∃ (s : State) (m : Fin 12) (f : EthFrame) (x : Mac) (body : List Byte),
    (x = s.macRec m.val) ∧ (s.macLinked m.val = true) ∧ (body = f.bytes.take (f.bytes.length - 4)) ∧ (f.fcsOk = false)) ∧
  (∃ (s : State) (m : Fin 12) (f : EthFrame) (x : Mac) (body : List Byte),
    (x = s.macRec m.val) ∧ (s.macLinked m.val = true) ∧ (body = f.bytes.take (f.bytes.length - 4)) ∧ (¬ (f.fcsOk = false)) ∧ (f.bytes.length < 64 ∨ f.codeOk = false)) ∧
  (∃ (s : State) (m : Fin 12) (f : EthFrame) (x : Mac) (body : List Byte),
    (x = s.macRec m.val) ∧ (s.macLinked m.val = true) ∧ (body = f.bytes.take (f.bytes.length - 4)) ∧ (¬ (f.fcsOk = false)) ∧ (¬ (f.bytes.length < 64 ∨ f.codeOk = false)) ∧ (s.get (MAC_CFG.MAXLEN m.val) < f.bytes.length)) ∧
  (∃ (s : State) (m : Fin 12) (f : EthFrame) (x : Mac) (body : List Byte),
    (x = s.macRec m.val) ∧ (s.macLinked m.val = true) ∧ (body = f.bytes.take (f.bytes.length - 4)) ∧ (¬ (f.fcsOk = false)) ∧ (¬ (f.bytes.length < 64 ∨ f.codeOk = false)) ∧ (¬ (s.get (MAC_CFG.MAXLEN m.val) < f.bytes.length)) ∧ (32768 < x.rxBytes + f.bytes.length)) ∧
  (∃ (s : State) (m : Fin 12) (f : EthFrame) (x : Mac) (body : List Byte) (ip l4 : Nat),
    (x = s.macRec m.val) ∧ (s.macLinked m.val = true) ∧ (body = f.bytes.take (f.bytes.length - 4)) ∧ (¬ (f.fcsOk = false)) ∧ (¬ (f.bytes.length < 64 ∨ f.codeOk = false)) ∧ (¬ (s.get (MAC_CFG.MAXLEN m.val) < f.bytes.length)) ∧ (¬ (32768 < x.rxBytes + f.bytes.length)) ∧ (ip = (if s.on (MAC_CFG.RXCK m.val) then ipCheck body else 0)) ∧ (l4 = (if s.on (MAC_CFG.RXCK m.val) then l4Check body else 0))) ∧
  (∃ (s : State) (m : Fin 12) (x : Mac) (f : TxFrame) (rest : List TxFrame),
    (x = s.macRec m.val) ∧ (x.txq = f :: rest) ∧ (s.brg.reasm = []) ∧ (s.mode = mShadow)) ∧
  (∃ (s : State) (m : Fin 12) (x : Mac) (f : TxFrame) (rest : List TxFrame) (u : State) (bs : List Byte) (e : TxStamp),
    (x = s.macRec m.val) ∧ (x.txq = f :: rest) ∧ (s.brg.reasm = []) ∧ (s.mode ≠ mShadow) ∧ (s.macLinked m.val = true) ∧ (u = (if s.on (MAC_STAT.LPI m.val) = true then s.advance (usTicks (max (s.get (MAC_LPI.TWSYS m.val)) (s.get (MAC_LPI.TWPART m.val)))) else s)) ∧ (bs = (if s.on (MAC_CFG.TXCK m.val) then withChecks f.bytes else f.bytes))) ∧
  (∃ (s : State) (m : Fin 12) (rate : Fin 5) (x : Mac),
    (x = s.macRec m.val) ∧ (s.macRuns m.val = true) ∧ (s.on (MAC_STAT.LINK m.val) = false) ∧ (s.macRate m.val rate.val = true) ∧ (s.brg.reasm = [])) ∧
  (∃ (s : State) (m : Fin 12),
    (s.on (MAC_STAT.LINK m.val) = true)) ∧
  (∃ (s : State) (m : Fin 12) (x : Mac),
    (x = s.macRec m.val) ∧ (m.val < 4) ∧ (s.macRuns m.val = true) ∧ (s.macReduced m.val = false) ∧ (s.on (MAC_STAT.LINK m.val) = false) ∧ (s.get (MAC_CFG.SPEED m.val) = 0)) ∧
  (∃ (s : State) (m : Fin 12) (x : Mac),
    (x = s.macRec m.val) ∧ (s.on (MAC_CTL.LPIEN m.val) = true) ∧ (s.macLinked m.val = true) ∧ (x.txq = []) ∧ (s.on (MAC_STAT.LPI m.val) = false)) :=
  ⟨by refine ⟨mac0 Mac.reset [(MAC_STAT.LINK 0, 1)], 0, { eth64 with fcsOk := false }, Mac.reset, List.replicate 60 7, ?main⟩; case main => ((and_intros <;> (try with_reducible rfl)); all_goals first | decide +kernel | rfl),
   by refine ⟨mac0 Mac.reset [(MAC_STAT.LINK 0, 1)], 0, { eth64 with bytes := List.replicate 63 7 }, Mac.reset, List.replicate 59 7, ?main⟩; case main => ((and_intros <;> (try with_reducible rfl)); all_goals first | decide +kernel | rfl),
   by refine ⟨mac0 Mac.reset [(MAC_STAT.LINK 0, 1), (MAC_CFG.MAXLEN 0, 63)], 0, eth64, Mac.reset, List.replicate 60 7, ?main⟩; case main => ((and_intros <;> (try with_reducible rfl)); all_goals first | decide +kernel | rfl),
   by refine ⟨mac0 { Mac.reset with rxq := List.replicate 2 (.mk 9 false 0 0 0 0 (List.replicate 16384 0)) } [(MAC_STAT.LINK 0, 1)], 0, eth64, ?v92, List.replicate 60 7, ?main⟩; case main => ((and_intros <;> (try with_reducible rfl)); all_goals first | decide +kernel | rfl),
   by refine ⟨mac0 Mac.reset [(MAC_STAT.LINK 0, 1)], 0, eth64, Mac.reset, List.replicate 60 7, 0, 0, ?main⟩; case main => ((and_intros <;> (try with_reducible rfl)); all_goals first | decide +kernel | rfl),
   by refine ⟨{ mac0 { Mac.reset with txq := [tx64] } [] with kpMode := KpReg.of 5 }, 0, { Mac.reset with txq := [tx64] }, tx64, [], ?main⟩; case main => ((and_intros <;> (try with_reducible rfl)); all_goals first | decide +kernel | rfl),
   by refine ⟨mac0 { Mac.reset with txq := [tx64] } [(MAC_STAT.LINK 0, 1)], 0, { Mac.reset with txq := [tx64] }, tx64, [], ?v93, ?v94, .mk 0 0 0 0, ?main⟩; case main => ((and_intros <;> (try with_reducible rfl)); all_goals first | decide +kernel | rfl),
   by refine ⟨mac0 Mac.reset [], 0, 4, Mac.reset, ?main⟩; case main => ((and_intros <;> (try with_reducible rfl)); all_goals first | decide +kernel | rfl),
   by refine ⟨mac0 Mac.reset [(MAC_STAT.LINK 0, 1)], 0, ?main⟩; case main => ((and_intros <;> (try with_reducible rfl)); all_goals first | decide +kernel | rfl),
   by refine ⟨mac0 Mac.reset [], 0, Mac.reset, ?main⟩; case main => ((and_intros <;> (try with_reducible rfl)); all_goals first | decide +kernel | rfl),
   by refine ⟨mac0 Mac.reset [(MAC_STAT.LINK 0, 1), (MAC_CTL.LPIEN 0, 1)], 0, Mac.reset, ?main⟩; case main => ((and_intros <;> (try with_reducible rfl)); all_goals first | decide +kernel | rfl)⟩

/-- States and operands meet the hypotheses of TwinsBeatMirrorAndSwap. -/
theorem witness_TwinsBeatMirrorAndSwap :
  (∃ (s : State) (c : Cell) (w : Word),
    (c.words.length = 20) ∧ (w = c.words.getD 0 0) ∧ (wbits w 47 40 = 4) ∧ (s.get RED_CFG.ROLE = 0 ∨ wbits w 15 0 ≠ s.get RED_CFG.TWIN)) ∧
  (∃ (s : State) (c : Cell) (w : Word),
    (c.words.length = 20) ∧ (w = c.words.getD 0 0) ∧ (wbits w 47 40 = 4) ∧ (¬ (s.get RED_CFG.ROLE = 0 ∨ wbits w 15 0 ≠ s.get RED_CFG.TWIN))) ∧
  (∃ (s : State) (ch : Nat),
    (s.mirrorSends = true) ∧ (s.red.txCells = []) ∧ (s.mirrorReads = false) ∧ (s.get RED_MRANGE.FIRST ≤ s.get RED_MRANGE.LAST) ∧ (ch = s.red.walk.getD (s.get RED_MRANGE.FIRST)) ∧ (ch ≤ s.get RED_MRANGE.LAST)) ∧
  (∃ (s : State) (ch : Nat),
    (s.mirrorSends = true) ∧ (s.red.txCells = []) ∧ (s.mirrorReads = false) ∧ (s.get RED_MRANGE.FIRST ≤ s.get RED_MRANGE.LAST) ∧ (ch = s.red.walk.getD (s.get RED_MRANGE.FIRST)) ∧ (¬ (ch ≤ s.get RED_MRANGE.LAST))) ∧
  (∃ (s u : State) (c : Cell) (w0 w1 : Word) (data : List Word) (x : MirrorRx),
    (c.words.length = 20) ∧ (w0 = c.words.getD 0 0) ∧ (w1 = c.words.getD 1 0) ∧ (wbits w0 47 40 = 6) ∧ (s.mirrorBlocked = false) ∧ (data = (c.words.drop 2).take (wbits w0 36 32 + 1)) ∧ (u = { s with red := { s.red with revSeen := some (s.red.revSeen.getD 0) } }) ∧ ((s.redSt = rdSTANDBY ∧ w0.getLsbD 39 = false) ∨ (s.redSt = rdRETURNING ∧ w0.getLsbD 39 = true)) ∧ (s.red.rxRound = some (wbits w1 47 16)) ∧ (s.red.rx = some x) ∧ (wbits w1 15 0 ≠ 0) ∧ (x.ch = wbits w0 31 16) ∧ (x.next ≠ wbits w1 15 0)) ∧
  (∃ (s u : State) (c : Cell) (w0 w1 : Word) (data : List Word) (x : MirrorRx) (ws : List Word),
    (c.words.length = 20) ∧ (w0 = c.words.getD 0 0) ∧ (w1 = c.words.getD 1 0) ∧ (wbits w0 47 40 = 6) ∧ (s.mirrorBlocked = false) ∧ (data = (c.words.drop 2).take (wbits w0 36 32 + 1)) ∧ (u = { s with red := { s.red with revSeen := some (s.red.revSeen.getD 0) } }) ∧ ((s.redSt = rdSTANDBY ∧ w0.getLsbD 39 = false) ∨ (s.redSt = rdRETURNING ∧ w0.getLsbD 39 = true)) ∧ (s.red.rxRound = some (wbits w1 47 16)) ∧ (s.red.rx = some x) ∧ (wbits w1 15 0 ≠ 0) ∧ (x.ch = wbits w0 31 16) ∧ (¬ (x.next ≠ wbits w1 15 0)) ∧ (ws = x.words ++ data) ∧ (x.entry.extent < ws.length ∨ (w0.getLsbD 38 = true ∧ x.entry.extent ≠ ws.length))) ∧
  (∃ (s u : State) (c : Cell) (w0 w1 : Word) (data : List Word) (x : MirrorRx) (ws : List Word),
    (c.words.length = 20) ∧ (w0 = c.words.getD 0 0) ∧ (w1 = c.words.getD 1 0) ∧ (wbits w0 47 40 = 6) ∧ (s.mirrorBlocked = false) ∧ (data = (c.words.drop 2).take (wbits w0 36 32 + 1)) ∧ (u = { s with red := { s.red with revSeen := some (s.red.revSeen.getD 0) } }) ∧ ((s.redSt = rdSTANDBY ∧ w0.getLsbD 39 = false) ∨ (s.redSt = rdRETURNING ∧ w0.getLsbD 39 = true)) ∧ (s.red.rxRound = some (wbits w1 47 16)) ∧ (s.red.rx = some x) ∧ (wbits w1 15 0 ≠ 0) ∧ (x.ch = wbits w0 31 16) ∧ (¬ (x.next ≠ wbits w1 15 0)) ∧ (ws = x.words ++ data) ∧ (¬ (x.entry.extent < ws.length ∨ (w0.getLsbD 38 = true ∧ x.entry.extent ≠ ws.length)))) ∧
  (∃ (s u : State) (c : Cell) (w0 w1 : Word) (data : List Word) (v : State) (e : Entry),
    (c.words.length = 20) ∧ (w0 = c.words.getD 0 0) ∧ (w1 = c.words.getD 1 0) ∧ (wbits w0 47 40 = 6) ∧ (s.mirrorBlocked = false) ∧ (data = (c.words.drop 2).take (wbits w0 36 32 + 1)) ∧ (u = { s with red := { s.red with revSeen := some (s.red.revSeen.getD 0) } }) ∧ ((s.redSt = rdSTANDBY ∧ w0.getLsbD 39 = false) ∨ (s.redSt = rdRETURNING ∧ w0.getLsbD 39 = true)) ∧ (s.red.rxRound = some (wbits w1 47 16)) ∧ (s.red.rx = none) ∧ (wbits w1 15 0 = 0) ∧ (w0.getLsbD 38 = false) ∧ (data.length ≤ e.extent) ∧ (e.extent ≤ 4096) ∧ (u.lookup (wbits w0 31 16) = some (v, e)) ∧ (e.valid = true) ∧ (e.mirror = true)) ∧
  (∃ (s u : State) (c : Cell) (w0 w1 : Word) (data : List Word),
    (c.words.length = 20) ∧ (w0 = c.words.getD 0 0) ∧ (w1 = c.words.getD 1 0) ∧ (wbits w0 47 40 = 6) ∧ (s.mirrorBlocked = false) ∧ (data = (c.words.drop 2).take (wbits w0 36 32 + 1)) ∧ (u = { s with red := { s.red with revSeen := some (s.red.revSeen.getD 0) } }) ∧ (¬ ((s.redSt = rdSTANDBY ∧ w0.getLsbD 39 = false) ∨ (s.redSt = rdRETURNING ∧ w0.getLsbD 39 = true)))) ∧
  (∃ (s : State) (c : Cell) (w0 : Word) (g i : Nat) (data : List Word),
    (c.words.length = 20) ∧ (w0 = c.words.getD 0 0) ∧ (wbits w0 47 40 = 7) ∧ (g = wbits w0 31 24) ∧ (g ≠ 0) ∧ ((s.voteGroup g).en = true) ∧ ((s.voteGroup g).outNode = s.node) ∧ ((s.voteGroup g).source c.f1.toNat = some i) ∧ (data = (c.words.drop 2).take (wbits w0 36 32 + 1)) ∧ (s.red.slots = [])) ∧
  (∃ (s : State) (c : Cell) (w0 : Word) (g i : Nat) (data : List Word),
    (c.words.length = 20) ∧ (w0 = c.words.getD 0 0) ∧ (wbits w0 47 40 = 7) ∧ (g = wbits w0 31 24) ∧ (g ≠ 0) ∧ ((s.voteGroup g).en = true) ∧ ((s.voteGroup g).outNode = s.node) ∧ ((s.voteGroup g).source c.f1.toNat = some i) ∧ (data = (c.words.drop 2).take (wbits w0 36 32 + 1)) ∧ (16 ≤ (s.red.slots.filter (fun (x : VoteSlot) => x.group != g)).length) ∧ (s.red.dropped ≠ some (g, i, wbits w0 15 8))) :=
  ⟨by refine ⟨s0, ctl (4 * 2 ^ 40 + 6) 0, word (4 * 2 ^ 40 + 6), ?main⟩; case main => ((and_intros <;> (try with_reducible rfl)); all_goals first | decide +kernel | rfl),
   by refine ⟨twin Red.reset rdACTIVE [], ctl (4 * 2 ^ 40 + 4 * 2 ^ 37 + 6) 0, word (4 * 2 ^ 40 + 4 * 2 ^ 37 + 6), ?main⟩; case main => ((and_intros <;> (try with_reducible rfl)); all_goals first | decide +kernel | rfl),
   by refine ⟨mirrored Red.reset rdACTIVE, 0, ?main⟩; case main => ((and_intros <;> (try with_reducible rfl)); all_goals first | decide +kernel | rfl),
   by refine ⟨twin { Red.reset with walk := some 0xFFFF } rdACTIVE [(RED_MRANGE.LAST, 8)], 0xFFFF, ?main⟩; case main => ((and_intros <;> (try with_reducible rfl)); all_goals first | decide +kernel | rfl),
   by refine ⟨mirrored rxing rdSTANDBY, ?v95, ctl (6 * 2 ^ 40 + 2 ^ 38) (3 * 2 ^ 16 + 2), ?v96, ?v97, ?v98, rx1, ?main⟩; case main => ((and_intros <;> (try with_reducible rfl)); all_goals first | decide +kernel | rfl),
   by refine ⟨mirrored rxing rdSTANDBY, ?v99, ctl (6 * 2 ^ 40 + 2 ^ 38 + 2 ^ 32) (3 * 2 ^ 16 + 1), ?v100, ?v101, ?v102, rx1, ?v103, ?main⟩; case main => ((and_intros <;> (try with_reducible rfl)); all_goals first | decide +kernel | rfl),
   by refine ⟨mirrored rxing rdSTANDBY, ?v104, mirrCell, ?v105, ?v106, ?v107, rx1, ?v108, ?main⟩; case main => ((and_intros <;> (try with_reducible rfl)); all_goals first | decide +kernel | rfl),
   by refine ⟨mirrored { Red.reset with rxRound := some 3 } rdSTANDBY, ?v109, ctl (6 * 2 ^ 40) (3 * 2 ^ 16), ?v110, ?v111, ?v112, ({ mirrored { Red.reset with rxRound := some 3 } rdSTANDBY with red := { Red.reset with rxRound := some 3, revSeen := some 0 } }.lookup 0).getD (s0, mirr) |>.1, mirr, ?main⟩; case main => ((and_intros <;> (try with_reducible rfl)); all_goals first | decide +kernel | rfl),
   by refine ⟨mirrored rxing rdACTIVE, ?v113, mirrCell, ?v114, ?v115, ?v116, ?main⟩; case main => ((and_intros <;> (try with_reducible rfl)); all_goals first | decide +kernel | rfl),
   by refine ⟨voting [], voteCell, word (7 * 2 ^ 40 + 3 * 2 ^ 24), 3, 1, [42], ?main⟩; case main => ((and_intros <;> (try with_reducible rfl)); all_goals first | decide +kernel | rfl),
   by refine ⟨voting ((List.range 16).map (fun k => .mk (k + 10) none none none)), voteCell, word (7 * 2 ^ 40 + 3 * 2 ^ 24), 3, 1, [42], ?main⟩; case main => ((and_intros <;> (try with_reducible rfl)); all_goals first | decide +kernel | rfl)⟩

/-- States and operands meet the hypotheses of KingPostsVoteAndGroupsCommit. -/
theorem witness_KingPostsVoteAndGroupsCommit :
  (∃ (s : State) (v : Word) (g : VoteGroup),
    (g = .mk (s.get RED_VGSRC.SRC0) (s.get RED_VGSRC.SRC1) (s.get RED_VGSRC.SRC2) v.toNat)) ∧
  (∃ (s : State) (v : Word) (r : Fin 5),
    (s.kpLocked = true)) ∧
  (∃ (s : State) (v : Word),
    (s.kpLocked = false)) ∧
  (∃ (s : State) (v : Word),
    (s.kpLocked = false)) ∧
  (∃ (s : State) (v : Word),
    (s.kpLocked = false)) ∧
  (∃ (s : State) (v : Word),
    (s.kpLocked = false)) ∧
  (∃ (s : State) (v : Nat → Word),
    ((∀ i, i < 5 → (s.kp i).agreed = some (v i))) ∧ ((s.kp 0).stuck = false)) ∧
  (∃ (s : State) (i : Nat) (r : KpReg),
    (1 ≤ i) ∧ (i < 5) ∧ (r = s.kp i) ∧ (r.agreed = none) ∧ ((∀ j, j < 5 → j ≠ i → (s.kp j).agreed.isSome = true)) ∧ ((s.kp 0).stuck = false)) ∧
  (∃ (s : State) (i : Nat) (r : KpReg),
    (1 ≤ i) ∧ (i < 5) ∧ (r = s.kp i) ∧ (r.agreed = none) ∧ ((∀ j, j < 5 → j ≠ i → (s.kp j).agreed.isSome = true)) ∧ ((s.kp 0).stuck = false)) ∧
  (∃ (s : State) (v : Word) (i c b : Nat),
    (i = wbits v 11 8) ∧ (c = wbits v 7 6) ∧ (b = wbits v 5 0) ∧ (s.mode = mCommission ∧ i < 5 ∧ c < 3 ∧ b < 55) ∧ (i ≠ 0) ∧ (((s.kp 0).stuck = true ∨ (s.kp 0).agreed.isSome = true))) ∧
  (∃ (s : State) (v : Word) (i c b : Nat),
    (i = wbits v 11 8) ∧ (c = wbits v 7 6) ∧ (b = wbits v 5 0) ∧ (¬ (s.mode = mCommission ∧ i < 5 ∧ c < 3 ∧ b < 55))) :=
  ⟨by refine ⟨st [(RED_VGSEL.GROUP, 3), (RED_VGSRC.SRC0, 1), (RED_VGSRC.SRC1, 2), (RED_VGSRC.SRC2, 4)], 1, .mk 1 2 4 1, ?main⟩; case main => ((and_intros <;> (try with_reducible rfl)); all_goals first | decide +kernel | rfl),
   by refine ⟨st [(MGT_STAT.KPLOCK, 1)], 7, 1, ?main⟩; case main => ((and_intros <;> (try with_reducible rfl)); all_goals first | decide +kernel | rfl),
   by refine ⟨s0, 7, ?main⟩; case main => ((and_intros <;> (try with_reducible rfl)); all_goals first | decide +kernel | rfl),
   by refine ⟨s0, 7, ?main⟩; case main => ((and_intros <;> (try with_reducible rfl)); all_goals first | decide +kernel | rfl),
   by refine ⟨s0, 7, ?main⟩; case main => ((and_intros <;> (try with_reducible rfl)); all_goals first | decide +kernel | rfl),
   by refine ⟨s0, 0, ?main⟩; case main => ((and_intros <;> (try with_reducible rfl)); all_goals first | decide +kernel | rfl),
   by refine ⟨{ s0 with kpNode := { KpReg.of 0 with b := spoilt } }, fun i => if i = 0 then 1 else 0, ?main⟩; case main => ((and_intros <;> (try with_reducible rfl)); all_goals first | decide +kernel | rfl),
   by refine ⟨{ s0 with kpNode := { KpReg.of 0 with a := spoilt, b := spoilt } }, 1, { KpReg.of 0 with a := spoilt, b := spoilt }, ?main⟩; case main => ((and_intros <;> (try with_reducible rfl)); all_goals first | decide +kernel | rfl),
   by refine ⟨{ s0 with kpNode := { KpReg.of 0 with a := .mk 1 0, b := .mk 2 0 } }, 1, { KpReg.of 0 with a := .mk 1 0, b := .mk 2 0 }, ?main⟩; case main => ((and_intros <;> (try with_reducible rfl)); all_goals first | decide +kernel | rfl),
   by refine ⟨s0, 4 * 256 + 2 * 64 + 54, 4, 2, 54, ?main⟩; case main => ((and_intros <;> (try with_reducible rfl)); all_goals first | decide +kernel | rfl),
   by refine ⟨s0, 4 * 256 + 2 * 64 + 55, 4, 2, 55, ?main⟩; case main => ((and_intros <;> (try with_reducible rfl)); all_goals first | decide +kernel | rfl)⟩

/-- States and operands meet the hypotheses of FeedsStartTripAndRetry. -/
theorem witness_FeedsStartTripAndRetry :
  (∃ (s : State) (f : Fin 32),
    (s.get (FEED_CTL.HOLDOFF f.val) < 2) ∧ (s.get (FEED_CTL.PRIO f.val) < 8)) ∧
  (∃ (s : State) (f : Fin 32),
    (s.get (FEED_CTL.HOLDOFF f.val) < 2) ∧ (s.get (FEED_CTL.PRIO f.val) < 8)) ∧
  (∃ (s : State) (f : Fin 32),
    (s.get (FEED_CTL.HOLDOFF f.val) < 2) ∧ (s.get (FEED_CTL.PRIO f.val) < 8)) ∧
  (∃ (s : State) (g : Fin 4) (f : Nat) (rest : List Nat),
    (s.groupQueue g.val = f :: rest) ∧ (s.bit SUP_STAT.BELOW 6 = false ∧ s.mode ≠ mRecovery ∧ s.groupLoad g.val + s.get (FEED_CFG.INRUSH f) ≤ s.get (SUP_GRP.BUDGET g.val))) ∧
  (∃ (s : State) (g : Fin 4) (f : Nat) (rest : List Nat),
    (s.groupQueue g.val = f :: rest) ∧ (¬ (s.bit SUP_STAT.BELOW 6 = false ∧ s.mode ≠ mRecovery ∧ s.groupLoad g.val + s.get (FEED_CFG.INRUSH f) ≤ s.get (SUP_GRP.BUDGET g.val)))) ∧
  (∃ (s : State) (f : Fin 32) (x : Feed) (code : BitVec 12) (uv : Nat),
    (x = s.feed f.val) ∧ (uv = code.toNat * s.get (FEED_SCALE.VSCALE f.val)) ∧ (s.feedState f.val = fdPRECHARGE)) ∧
  (∃ (s : State) (f : Fin 32) (x : Feed) (code : BitVec 12) (uv : Nat),
    (x = s.feed f.val) ∧ (uv = code.toNat * s.get (FEED_SCALE.VSCALE f.val)) ∧ (s.feedState f.val = fdPRECHARGE)) ∧
  (∃ (s : State) (f : Fin 32) (x : Feed) (code : BitVec 12) (uv : Nat),
    (x = s.feed f.val) ∧ (uv = code.toNat * s.get (FEED_SCALE.VSCALE f.val)) ∧ (s.feedState f.val = fdGATING)) ∧
  (∃ (s : State) (f : Fin 32) (x : Feed) (code : BitVec 12) (uv : Nat),
    (x = s.feed f.val) ∧ (uv = code.toNat * s.get (FEED_SCALE.VSCALE f.val)) ∧ (s.feedState f.val = fdGATING)) ∧
  (∃ (s : State) (f : Fin 32) (c : Instr) (icode vcode : BitVec 12) (cause : Nat) (k : Kind) (cnt : Field) (ua r : Nat),
    (ua = icode.toNat * s.get (FEED_SCALE.ISCALE f.val)) ∧ (r = s.get (FEED_STAT.RETRY f.val)) ∧ ((c = .gateLost f ∧ cause = 6 ∧ k = Kind.GATE_LOST ∧ cnt = FEED_CNT.TRIPS f.val ∧ s.feedState f.val = fdON ∨ (s.feedState f.val = fdGATING ∨ s.feedState f.val = fdON) ∧ (c = .feedShort f icode ∧ cause = 3 ∧ k = Kind.FEED_SHORT ∧ cnt = FEED_CNT.SHORTS f.val ∧ s.get (FEED_TRIP.INST f.val) < icode.toNat ∨ c = .currentSample f icode vcode ∧ cause = 2 ∧ k = Kind.FEED_TRIP ∧ cnt = FEED_CNT.TRIPS f.val ∧ 2 ^ 32 ≤ nextAcc (s.curve f.val) (s.feed f.val).acc ua)))) ∧
  (∃ (s : State) (f : Fin 32) (c : Instr) (icode vcode : BitVec 12) (cause : Nat) (k : Kind) (cnt : Field) (ua r : Nat),
    (ua = icode.toNat * s.get (FEED_SCALE.ISCALE f.val)) ∧ (r = s.get (FEED_STAT.RETRY f.val)) ∧ ((c = .gateLost f ∧ cause = 6 ∧ k = Kind.GATE_LOST ∧ cnt = FEED_CNT.TRIPS f.val ∧ s.feedState f.val = fdON ∨ (s.feedState f.val = fdGATING ∨ s.feedState f.val = fdON) ∧ (c = .feedShort f icode ∧ cause = 3 ∧ k = Kind.FEED_SHORT ∧ cnt = FEED_CNT.SHORTS f.val ∧ s.get (FEED_TRIP.INST f.val) < icode.toNat ∨ c = .currentSample f icode vcode ∧ cause = 2 ∧ k = Kind.FEED_TRIP ∧ cnt = FEED_CNT.TRIPS f.val ∧ 2 ^ 32 ≤ nextAcc (s.curve f.val) (s.feed f.val).acc ua)))) ∧
  (∃ (s : State) (f : Fin 32) (c : Instr) (icode vcode : BitVec 12) (cause : Nat) (k : Kind) (cnt : Field) (ua r : Nat),
    (ua = icode.toNat * s.get (FEED_SCALE.ISCALE f.val)) ∧ (r = s.get (FEED_STAT.RETRY f.val)) ∧ ((c = .gateLost f ∧ cause = 6 ∧ k = Kind.GATE_LOST ∧ cnt = FEED_CNT.TRIPS f.val ∧ s.feedState f.val = fdON ∨ (s.feedState f.val = fdGATING ∨ s.feedState f.val = fdON) ∧ (c = .feedShort f icode ∧ cause = 3 ∧ k = Kind.FEED_SHORT ∧ cnt = FEED_CNT.SHORTS f.val ∧ s.get (FEED_TRIP.INST f.val) < icode.toNat ∨ c = .currentSample f icode vcode ∧ cause = 2 ∧ k = Kind.FEED_TRIP ∧ cnt = FEED_CNT.TRIPS f.val ∧ 2 ^ 32 ≤ nextAcc (s.curve f.val) (s.feed f.val).acc ua)))) ∧
  (∃ (s : State) (f : Fin 32) (icode vcode : BitVec 12) (x : Feed) (ua uv : Nat),
    (x = s.feed f.val) ∧ (ua = icode.toNat * s.get (FEED_SCALE.ISCALE f.val)) ∧ (uv = vcode.toNat * s.get (FEED_SCALE.VSCALE f.val)) ∧ ((s.feedState f.val = fdGATING ∨ s.feedState f.val = fdON → nextAcc (s.curve f.val) x.acc ua < 2 ^ 32))) ∧
  (∃ (s : State) (f : Fin 32),
    (s.feedState f.val = fdBACKOFF)) ∧
  (∃ (s : State) (f : Fin 32),
    (s.feedState f.val = fdON)) :=
  ⟨by refine ⟨s0, 5, ?main⟩; case main => ((and_intros <;> (try with_reducible rfl)); all_goals first | decide +kernel | rfl),
   by refine ⟨feed5 fed fdON [], 5, ?main⟩; case main => ((and_intros <;> (try with_reducible rfl)); all_goals first | decide +kernel | rfl),
   by refine ⟨feed5 fed fdON [], 5, ?main⟩; case main => ((and_intros <;> (try with_reducible rfl)); all_goals first | decide +kernel | rfl),
   by refine ⟨{ st [(SUP_GRP.BUDGET 0, 9), (FEED_CFG.INRUSH 5, 9)] with sup := { Sup.reset with govQ := [5] } }, 0, 5, [], ?main⟩; case main => ((and_intros <;> (try with_reducible rfl)); all_goals first | decide +kernel | rfl),
   by refine ⟨{ st [(SUP_GRP.BUDGET 0, 9), (FEED_CFG.INRUSH 5, 10)] with sup := { Sup.reset with govQ := [5] } }, 0, 5, [], ?main⟩; case main => ((and_intros <;> (try with_reducible rfl)); all_goals first | decide +kernel | rfl),
   by refine ⟨feed5 fed fdPRECHARGE [(FEED_SCALE.VSCALE 5, 1000)], 5, fed, 40, 40000, ?main⟩; case main => ((and_intros <;> (try with_reducible rfl)); all_goals first | decide +kernel | rfl),
   by refine ⟨feed5 fed fdPRECHARGE [(FEED_SCALE.VSCALE 5, 1000)], 5, fed, 40, 40000, ?main⟩; case main => ((and_intros <;> (try with_reducible rfl)); all_goals first | decide +kernel | rfl),
   by refine ⟨feed5 fed fdGATING [(FEED_SCALE.VSCALE 5, 1000)], 5, fed, 40, 40000, ?main⟩; case main => ((and_intros <;> (try with_reducible rfl)); all_goals first | decide +kernel | rfl),
   by refine ⟨feed5 fed fdGATING [(FEED_SCALE.VSCALE 5, 1000)], 5, fed, 40, 40000, ?main⟩; case main => ((and_intros <;> (try with_reducible rfl)); all_goals first | decide +kernel | rfl),
   by refine ⟨feed5 fed fdON [], 5, .gateLost 5, 0, 0, 6, Kind.GATE_LOST, FEED_CNT.TRIPS 5, 0, 0 , ?main⟩; case main => ((and_intros <;> (try with_reducible rfl)); all_goals first | ((left; exact ⟨rfl, rfl, rfl, rfl, by decide +kernel⟩)) | decide +kernel | rfl),
   by refine ⟨feed5 fed fdGATING [(FEED_TRIP.INST 5, 0)], 5, .feedShort 5 4095, 4095, 0, 3, Kind.FEED_SHORT, FEED_CNT.SHORTS 5, 19995885, 0 , ?main⟩; case main => ((and_intros <;> (try with_reducible rfl)); all_goals first | ((right; exact ⟨by decide +kernel, Or.inl ⟨rfl, rfl, rfl, rfl, by decide +kernel⟩⟩)) | decide +kernel | rfl),
   by refine ⟨feed5 fed fdON [(FEED_CURVE.I 5 0, 0), (FEED_CURVE.T 5 0, 0)], 5, .currentSample 5 7 8, 7, 8, 2, Kind.FEED_TRIP, FEED_CNT.TRIPS 5, 34181, 0 , ?main⟩; case main => ((and_intros <;> (try with_reducible rfl)); all_goals first | ((right; exact ⟨by decide +kernel, Or.inr ⟨rfl, rfl, rfl, rfl, by decide +kernel⟩⟩)) | decide +kernel | rfl),
   by refine ⟨feed5 fed fdON [], 5, 7, 8, fed, 34181, 58592, ?main⟩; case main => ((and_intros <;> (try with_reducible rfl)); all_goals first | decide +kernel | rfl),
   by refine ⟨feed5 fed fdBACKOFF [], 5, ?main⟩; case main => ((and_intros <;> (try with_reducible rfl)); all_goals first | decide +kernel | rfl),
   by refine ⟨feed5 fed fdON [], 5, ?main⟩; case main => ((and_intros <;> (try with_reducible rfl)); all_goals first | decide +kernel | rfl)⟩

/-- States and operands meet the hypotheses of EnergyAccountsAndSupplySupervision. -/
theorem witness_EnergyAccountsAndSupplySupervision :
  (∃ (s : State) (f : Fin 32) (v : Word),
    (s.get (FEED_CTL.HOLDOFF f.val) < 2) ∧ (s.get (FEED_CTL.PRIO f.val) < 8)) ∧
  (∃ (s : State) (f : Fin 32) (v : Word),
    (s.get (FEED_CTL.HOLDOFF f.val) < 2) ∧ (s.get (FEED_CTL.PRIO f.val) < 8)) ∧
  (∃ (s : State) (i : Fin 7),
    ((i.val = 6 → s.on SUP_CTL.SMEN = true)) ∧ (s.get SUP_STAT.BELOW = 0) ∧ (s.sup.writing = none)) ∧
  (∃ (s : State) (i : Fin 7),
    ((i.val = 6 → s.on SUP_CTL.SMEN = true)) ∧ (s.get SUP_STAT.BELOW = 0) ∧ (s.sup.writing = none)) ∧
  (∃ (s : State) (start port : Nat) (r : Retention),
    (s.sup.writing = some (start, r)) ∧ (port = s.get SPR_STAT.NVUSE % 2) ∧ (start + usTicks 600 < s.now)) ∧
  (∃ (s : State) (start port : Nat) (r : Retention),
    (s.sup.writing = some (start, r)) ∧ (port = s.get SPR_STAT.NVUSE % 2) ∧ (s.now ≤ start + usTicks 600)) ∧
  (∃ (s : State) (start port : Nat) (r : Retention),
    (s.sup.writing = some (start, r)) ∧ (port = s.get SPR_STAT.NVUSE % 2)) ∧
  (∃ (s : State) (start port : Nat) (r : Retention),
    (s.sup.writing = some (start, r)) ∧ (port = s.get SPR_STAT.NVUSE % 2)) ∧
  (∃ (s : State),
    (s.sup.okDue = true)) ∧
  (∃ (s : State),
    (s.sup.okDue = false)) ∧
  (∃ (s : State) (b : Fin 32),
    (s.get (BAY_CTL.BANK b.val) = 0)) ∧
  (∃ (s : State) (b : Fin 32),
    (¬ (s.get (BAY_CTL.BANK b.val) = 0))) ∧
  (∃ (s : State) (port : Nat),
    (s.get SUP_CKPT.MIN ≠ 0) ∧ (s.sup.writing = none) ∧ (port = s.get SPR_STAT.NVUSE % 2)) :=
  ⟨by refine ⟨s0, 5, 0, ?main⟩; case main => ((and_intros <;> (try with_reducible rfl)); all_goals first | decide +kernel | rfl),
   by refine ⟨s0, 5, 0, ?main⟩; case main => ((and_intros <;> (try with_reducible rfl)); all_goals first | decide +kernel | rfl),
   by refine ⟨s0, 3, ?main⟩; case main => ((and_intros <;> (try with_reducible rfl)); all_goals first | decide +kernel | rfl),
   by refine ⟨st [(SUP_CTL.SMEN, 1)], 6, ?main⟩; case main => ((and_intros <;> (try with_reducible rfl)); all_goals first | decide +kernel | rfl),
   by refine ⟨{ gasping with now := 60000000 }, 60, 0, record, ?main⟩; case main => ((and_intros <;> (try with_reducible rfl)); all_goals first | decide +kernel | rfl),
   by refine ⟨gasping, 60, 0, record, ?main⟩; case main => ((and_intros <;> (try with_reducible rfl)); all_goals first | decide +kernel | rfl),
   by refine ⟨gasping, 60, 0, record, ?main⟩; case main => ((and_intros <;> (try with_reducible rfl)); all_goals first | decide +kernel | rfl),
   by refine ⟨gasping, 60, 0, record, ?main⟩; case main => ((and_intros <;> (try with_reducible rfl)); all_goals first | decide +kernel | rfl),
   by refine ⟨{ s0 with sup := { Sup.reset with okDue := true } }, ?main⟩; case main => ((and_intros <;> (try with_reducible rfl)); all_goals first | decide +kernel | rfl),
   by refine ⟨s0, ?main⟩; case main => ((and_intros <;> (try with_reducible rfl)); all_goals first | decide +kernel | rfl),
   by refine ⟨s0, 5, ?main⟩; case main => ((and_intros <;> (try with_reducible rfl)); all_goals first | decide +kernel | rfl),
   by refine ⟨st [(BAY_CTL.BANK 5, 1)], 5, ?main⟩; case main => ((and_intros <;> (try with_reducible rfl)); all_goals first | decide +kernel | rfl),
   by refine ⟨st [(SUP_CKPT.MIN, 2)], 0, ?main⟩; case main => ((and_intros <;> (try with_reducible rfl)); all_goals first | decide +kernel | rfl)⟩

/-- States and operands meet the hypotheses of ReportsAreRecordedFoldedAndForwarded. -/
theorem witness_ReportsAreRecordedFoldedAndForwarded :
  (∃ (s : State) (r : Report) (msg : Msg) (total : Nat),
    (s.flt.nextReport = some r) ∧ (s.flt.summaries = []) ∧ (msg = .mk r 1) ∧ (total = s.get FLT_HPTR.TOTAL)) ∧
  (∃ (s : State) (m : Msg) (total : Nat),
    (s.flt.summaries = [m]) ∧ (s.slotsUsed < 16) ∧ (total = s.get FLT_HPTR.TOTAL)) ∧
  (∃ (s : State) (src : Fin 16) (j : Fin 6) (v : Word) (again : Bool),
    (again = (List.range 48).any (fun i => s.bit (FLT_STK.KIND (src.val + 1) j.val) i && v.getLsbD i && s.flt.causes.any (fun c => c.kind == Kind.mk (src.val + 1) (48 * j.val + i))))) ∧
  (∃ (s : State) (held : Kind → Bool),
    ((∀ k, held k = (Kind.levels.contains k && s.bit (FLT_STK.KIND k.src (k.kind / 48)) (k.kind % 48) && s.flt.causes.any (fun c => c.kind == k))))) ∧
  (∃ (s : State) (c : Cell) (ws : List Word),
    (c.words.length = 20) ∧ (ws = c.words) ∧ (wbits (ws.getD 0 0) 47 40 = 8) ∧ (s.on FLT_CTL.RXEN = false)) ∧
  (∃ (s : State) (c : Cell) (ws : List Word),
    (c.words.length = 20) ∧ (ws = c.words) ∧ (wbits (ws.getD 0 0) 47 40 = 8) ∧ (s.on FLT_CTL.RXEN = true) ∧ (64 ≤ s.flt.remoteQ.length)) ∧
  (∃ (s : State) (c : Cell) (ws : List Word),
    (c.words.length = 20) ∧ (ws = c.words) ∧ (wbits (ws.getD 0 0) 47 40 = 8) ∧ (s.on FLT_CTL.RXEN = true) ∧ (s.flt.remoteQ.length < 64)) :=
  ⟨by refine ⟨{ s0 with flt := { Flt.reset with reports := [report1] } }, report1, .mk report1 1, 0, ?main⟩; case main => ((and_intros <;> (try with_reducible rfl)); all_goals first | decide +kernel | rfl),
   by refine ⟨{ s0 with flt := { Flt.reset with summaries := [.mk report1 3] } }, .mk report1 3, 0, ?main⟩; case main => ((and_intros <;> (try with_reducible rfl)); all_goals first | decide +kernel | rfl),
   by refine ⟨slipped, 2, 0, word (2 ^ 47), false, ?main⟩; case main => ((and_intros <;> (try with_reducible rfl)); all_goals first | decide +kernel | rfl),
   by refine ⟨slipped, fun k => Kind.levels.contains k && slipped.bit (FLT_STK.KIND k.src (k.kind / 48)) (k.kind % 48) && slipped.flt.causes.any (fun c => c.kind == k) , ?main⟩; case main => ((and_intros <;> (try with_reducible rfl)); all_goals first | ((intro k; rfl)) | decide +kernel | rfl),
   by refine ⟨s0, fwdCell, fwdCell.words, ?main⟩; case main => ((and_intros <;> (try with_reducible rfl)); all_goals first | decide +kernel | rfl),
   by refine ⟨{ st [(FLT_CTL.RXEN, 1)] with flt := { Flt.reset with remoteQ := List.replicate 64 (7, .mk report1 1) } }, fwdCell, fwdCell.words, ?main⟩; case main => ((and_intros <;> (try with_reducible rfl)); all_goals first | decide +kernel | rfl),
   by refine ⟨st [(FLT_CTL.RXEN, 1)], fwdCell, fwdCell.words, ?main⟩; case main => ((and_intros <;> (try with_reducible rfl)); all_goals first | decide +kernel | rfl)⟩

/-- States and operands meet the hypotheses of RequestsAndResetsChangeTheMode. -/
theorem witness_RequestsAndResetsChangeTheMode :
  (∃ (s : State) (lanesOk tenonsOk : Bool) (fail : Nat),
    (s.on MGT_STAT.CHKRUN = true) ∧ (fail = s.failedChecks lanesOk tenonsOk)) ∧
  (∃ (s : State) (c : Instr) (cause : Nat) (rec lock : Bool) (straps : BitVec 4) (inputs : BitVec 7) (m : Nat),
    (m = (if s.on SUP_CTL.SMEN then inputs.toNat else inputs.toNat % 64)) ∧ ((c = .resetRequest lock ∧ cause = 4 ∧ rec = false ∨ c = .resetIntoRecovery lock ∧ cause = 4 ∧ rec = true ∨ c = .resetN straps ∧ cause = 1 ∧ rec = false ∨ c = .supplyReset inputs ∧ cause = 2 ∧ rec = false ∧ m ≠ 0))) ∧
  (∃ (s : State) (c : Instr) (cause : Nat) (rec lock : Bool) (straps : BitVec 4) (inputs : BitVec 7) (m : Nat),
    (m = (if s.on SUP_CTL.SMEN then inputs.toNat else inputs.toNat % 64)) ∧ ((c = .resetRequest lock ∧ cause = 4 ∧ rec = false ∨ c = .resetIntoRecovery lock ∧ cause = 4 ∧ rec = true ∨ c = .resetN straps ∧ cause = 1 ∧ rec = false ∨ c = .supplyReset inputs ∧ cause = 2 ∧ rec = false ∧ m ≠ 0))) ∧
  (∃ (s : State) (c : Instr) (cause : Nat) (rec lock : Bool) (straps : BitVec 4) (inputs : BitVec 7) (m : Nat),
    (m = (if s.on SUP_CTL.SMEN then inputs.toNat else inputs.toNat % 64)) ∧ ((c = .resetRequest lock ∧ cause = 4 ∧ rec = false ∨ c = .resetIntoRecovery lock ∧ cause = 4 ∧ rec = true ∨ c = .resetN straps ∧ cause = 1 ∧ rec = false ∨ c = .supplyReset inputs ∧ cause = 2 ∧ rec = false ∧ m ≠ 0))) ∧
  (∃ (s : State) (c : Instr) (cause : Nat) (rec lock : Bool) (straps : BitVec 4) (inputs : BitVec 7) (m : Nat),
    (m = (if s.on SUP_CTL.SMEN then inputs.toNat else inputs.toNat % 64)) ∧ ((c = .resetRequest lock ∧ cause = 4 ∧ rec = false ∨ c = .resetIntoRecovery lock ∧ cause = 4 ∧ rec = true ∨ c = .resetN straps ∧ cause = 1 ∧ rec = false ∨ c = .supplyReset inputs ∧ cause = 2 ∧ rec = false ∧ m ≠ 0))) :=
  ⟨by refine ⟨st [(MGT_STAT.CHKRUN, 1)], true, true, ?v117, ?main⟩; case main => ((and_intros <;> (try with_reducible rfl)); all_goals first | decide +kernel | rfl),
   by refine ⟨s0, .resetRequest true, 4, false, true, 0, 5, 5 , ?main⟩; case main => ((and_intros <;> (try with_reducible rfl)); all_goals first | ((left; exact ⟨rfl, rfl, rfl⟩)) | decide +kernel | rfl),
   by refine ⟨s0, .resetIntoRecovery true, 4, true, true, 0, 5, 5 , ?main⟩; case main => ((and_intros <;> (try with_reducible rfl)); all_goals first | ((right; left; exact ⟨rfl, rfl, rfl⟩)) | decide +kernel | rfl),
   by refine ⟨s0, .resetN 9, 1, false, true, 9, 5, 5 , ?main⟩; case main => ((and_intros <;> (try with_reducible rfl)); all_goals first | ((right; right; left; exact ⟨rfl, rfl, rfl⟩)) | decide +kernel | rfl),
   by refine ⟨s0, .supplyReset 32, 2, false, true, 9, 32, 32 , ?main⟩; case main => ((and_intros <;> (try with_reducible rfl)); all_goals first | ((right; right; right; exact ⟨rfl, rfl, rfl, by decide⟩)) | decide +kernel | rfl)⟩

/-- States and operands meet the hypotheses of BootEntropyReferencesAndSpareRows. -/
theorem witness_BootEntropyReferencesAndSpareRows :
  (∃ (s : State) (verified : BitVec 4) (port : Nat) (b : Bcr),
    (s.mgt.booting = true) ∧ (port = (s.bit MGT_STRAP.STRAP 2).toNat) ∧ (b = s.bootRecord port) ∧ (s.bit MGT_STRAP.STRAP 1 = false) ∧ (s.mgt.toRecovery = false) ∧ (b.trial = false) ∧ (verified.getLsbD (2 * port + b.active.toNat) = true)) ∧
  (∃ (s : State) (verified : BitVec 4) (port : Nat) (b : Bcr),
    (s.mgt.booting = true) ∧ (port = (s.bit MGT_STRAP.STRAP 2).toNat) ∧ (b = s.bootRecord port) ∧ (s.bit MGT_STRAP.STRAP 1 = true ∨ s.mgt.toRecovery = true ∨ verified = 0)) ∧
  (∃ (s : State),
    (s.on RNG_STATUS.READY = false)) ∧
  (∃ (s : State),
    (s.on RNG_STATUS.READY = false) ∧ (s.now ≤ s.mgt.resetAt + msTicks 50)) ∧
  (∃ (s : State) (v : Word) (b row : Nat),
    (b = wbits v 28 22) ∧ (row = wbits v 21 0)) ∧
  (∃ (s : State) (x : RowRepair),
    (s.mgt.repairing = some x) ∧ (s.get SPR_ROWREP.STATE = 2)) :=
  ⟨by refine ⟨s0, 5, 0, s0.bootRecord 0, ?main⟩; case main => ((and_intros <;> (try with_reducible rfl)); all_goals first | decide +kernel | rfl),
   by refine ⟨s0, 0, 0, s0.bootRecord 0, ?main⟩; case main => ((and_intros <;> (try with_reducible rfl)); all_goals first | decide +kernel | rfl),
   by refine ⟨s0, ?main⟩; case main => ((and_intros <;> (try with_reducible rfl)); all_goals first | decide +kernel | rfl),
   by refine ⟨s0, ?main⟩; case main => ((and_intros <;> (try with_reducible rfl)); all_goals first | decide +kernel | rfl),
   by refine ⟨s0, word (55 * 2 ^ 22 + 9), 55, 9, ?main⟩; case main => ((and_intros <;> (try with_reducible rfl)); all_goals first | decide +kernel | rfl),
   by refine ⟨{ st [(SPR_ROWREP.STATE, 2)] with mgt := { Mgt.reset with repairing := some (.mk 3 1 9), repairEnd := 900 } }, .mk 3 1 9, ?main⟩; case main => ((and_intros <;> (try with_reducible rfl)); all_goals first | decide +kernel | rfl)⟩

/-- States and operands meet the hypotheses of FirmwareIsUploadedTriedAndConfirmed. -/
theorem witness_FirmwareIsUploadedTriedAndConfirmed :
  (∃ (s : State) (v : Word) (b : Nat),
    (b = (!s.mgt.runs).toNat)) ∧
  (∃ (s : State) (v : Word) (b : Nat),
    (b = (!s.mgt.runs).toNat)) ∧
  (∃ (s : State) (v : Word) (b : Nat),
    (b = (!s.mgt.runs).toNat)) ∧
  (∃ (s : State) (v : Word) (b : Nat),
    (b = (!s.mgt.runs).toNat) ∧ (s.fwState = fwVERIFYING)) ∧
  (∃ (s : State) (v : Word) (b : Nat),
    (b = (!s.mgt.runs).toNat) ∧ (s.fwState = fwVERIFYING)) ∧
  (∃ (s : State) (port : Nat) (old : Bcr),
    (port = s.get SPR_STAT.NVUSE % 2) ∧ (old = s.bootRecord port)) ∧
  (∃ (s : State) (port : Nat) (old : Bcr),
    (port = s.get SPR_STAT.NVUSE % 2) ∧ (old = s.bootRecord port)) ∧
  (∃ (s : State),
    (s.fwState = fwTRIAL)) ∧
  (∃ (s : State),
    (s.fwState = fwTRIAL) ∧ (s.now ≤ s.mgt.trialStart + msTicks 2)) ∧
  (∃ (s : State) (c : Instr) (cause : Nat),
    ((c = .watchdogExpiry ∧ cause = 3 ∨ c = .lockstepDisagreement ∧ cause = 5))) ∧
  (∃ (s : State) (c : Instr) (cause : Nat),
    ((c = .watchdogExpiry ∧ cause = 3 ∨ c = .lockstepDisagreement ∧ cause = 5))) ∧
  (∃ (s : State) (path : RecoveryPath) (version : BitVec 32) (ok : Bool),
    (s.mode ≠ mRecovery)) ∧
  (∃ (s : State) (path : RecoveryPath) (version : BitVec 32),
    (s.mode = mRecovery)) ∧
  (∃ (s : State) (path : RecoveryPath) (version : BitVec 32),
    (s.mode = mRecovery) ∧ (s.mgt.rcvReset = none)) ∧
  (∃ (s : State) (due : Nat),
    (s.mgt.rcvReset = some due)) :=
  ⟨by refine ⟨s0, 7, 1, ?main⟩; case main => ((and_intros <;> (try with_reducible rfl)); all_goals first | decide +kernel | rfl),
   by refine ⟨s0, 7, 1, ?main⟩; case main => ((and_intros <;> (try with_reducible rfl)); all_goals first | decide +kernel | rfl),
   by refine ⟨s0, 7, 1, ?main⟩; case main => ((and_intros <;> (try with_reducible rfl)); all_goals first | decide +kernel | rfl),
   by refine ⟨firm Mgt.reset mCommission fwVERIFYING, 7, 1, ?main⟩; case main => ((and_intros <;> (try with_reducible rfl)); all_goals first | decide +kernel | rfl),
   by refine ⟨firm Mgt.reset mCommission fwVERIFYING, 7, 1, ?main⟩; case main => ((and_intros <;> (try with_reducible rfl)); all_goals first | decide +kernel | rfl),
   by refine ⟨firm Mgt.reset mCommission fwVERIFIED, 0, ?v118, ?main⟩; case main => ((and_intros <;> (try with_reducible rfl)); all_goals first | decide +kernel | rfl),
   by refine ⟨firm Mgt.reset mCommission fwTRIAL, 0, ?v119, ?main⟩; case main => ((and_intros <;> (try with_reducible rfl)); all_goals first | decide +kernel | rfl),
   by refine ⟨firm Mgt.reset mCommission fwTRIAL, ?main⟩; case main => ((and_intros <;> (try with_reducible rfl)); all_goals first | decide +kernel | rfl),
   by refine ⟨firm Mgt.reset mCommission fwTRIAL, ?main⟩; case main => ((and_intros <;> (try with_reducible rfl)); all_goals first | decide +kernel | rfl),
   by refine ⟨firm Mgt.reset mCommission fwTRIAL, .watchdogExpiry, 3 , ?main⟩; case main => ((and_intros <;> (try with_reducible rfl)); all_goals first | ((left; exact ⟨rfl, rfl⟩)) | decide +kernel | rfl),
   by refine ⟨s0, .lockstepDisagreement, 5 , ?main⟩; case main => ((and_intros <;> (try with_reducible rfl)); all_goals first | ((right; exact ⟨rfl, rfl⟩)) | decide +kernel | rfl),
   by refine ⟨s0, .pcie, 7, true, ?main⟩; case main => ((and_intros <;> (try with_reducible rfl)); all_goals first | decide +kernel | rfl),
   by refine ⟨firm Mgt.reset mRecovery 0, .uart, 7, ?main⟩; case main => ((and_intros <;> (try with_reducible rfl)); all_goals first | decide +kernel | rfl),
   by refine ⟨firm Mgt.reset mRecovery 0, .eth4, 7, ?main⟩; case main => ((and_intros <;> (try with_reducible rfl)); all_goals first | decide +kernel | rfl),
   by refine ⟨firm { Mgt.reset with rcvReset := some 90 } mRecovery 0, 90, ?main⟩; case main => ((and_intros <;> (try with_reducible rfl)); all_goals first | decide +kernel | rfl)⟩

theorem waiting2_never_stops : ∀ c ∈ waiting2.pending, neverStops c := by
  intro c hc
  obtain rfl | hc := List.mem_cons.1 hc
  · exact ⟨by decide, fun _ _ h => nomatch h⟩
  · obtain rfl | hc := List.mem_cons.1 hc
    · exact ⟨by decide, fun _ _ h => nomatch h⟩
    · nomatch hc

/-- States and operands meet the hypotheses of EveryStepKeepsTheStateSound. -/
theorem witness_EveryStepKeepsTheStateSound :
  (∃ (s t : State),
    (s.Sound) ∧ (step s = .next t)) :=
  by refine ⟨{ s0 with pending := [.supplyOk] }, s0 , ?main⟩; case main => ((and_intros <;> (try with_reducible rfl)); all_goals first | ((exact ⟨by decide, List.Pairwise.nil, by decide, by decide, by decide, by decide, by decide⟩)) | decide +kernel | rfl)

/-- States and operands meet the hypotheses of WellFormedCommandsDrainInOrder. -/
theorem witness_WellFormedCommandsDrainInOrder :
  (∃ (s : State),
    ((∀ c ∈ s.pending, neverStops c))) ∧
  (∃ (s : State) (n : Nat),
    ((∀ c ∈ s.pending, neverStops c)) ∧ (n ≤ s.pending.length)) :=
  ⟨by refine ⟨waiting2 , ?main⟩; case main => ((and_intros <;> (try with_reducible rfl)); all_goals first | ((exact waiting2_never_stops)) | decide +kernel | rfl),
   by refine ⟨waiting2, 1 , ?main⟩; case main => ((and_intros <;> (try with_reducible rfl)); all_goals first | ((exact waiting2_never_stops)) | decide +kernel | rfl)⟩

end Sys2Proof.Tests
end

section
/-! ### Frames: what a change of register fields leaves alone -/

namespace Sys2Proof.Machine

theorem Part.same_refl (p : Part) (s : State) : p.same s s := by
  cases p <;> simp [Part.same]

theorem Part.same_trans {p : Part} {s t u : State} (h : p.same s t) (k : p.same t u) : p.same s u := by
  cases p with
  | kp => exact fun i => Eq.trans (k i) (h i)
  | seqStore | tenStore =>
    obtain ⟨hw, hue, hweak, hpast⟩ := h
    obtain ⟨kw, kue, kweak, kpast⟩ := k
    exact ⟨kw.trans hw, kue.trans hue, kweak.trans hweak, kpast.trans hpast⟩
  | _ => exact Eq.trans k h

/-- A register write touches no part of the state but the register file. -/
theorem Part.same_set (p : Part) (s : State) (f : Field) (v : Nat) : p.same s (s.set f v) := by
  cases p with
  | kp => exact fun _ => rfl
  | seqStore | tenStore => exact ⟨rfl, rfl, rfl, rfl⟩
  | _ => exact rfl

/-- An emission touches no part but what the hub has emitted. -/
theorem Part.same_emit {p : Part} (hp : p ≠ .out) (s : State) (o : Out) : p.same s (s.emit o) := by
  cases p with
  | out => exact absurd rfl hp
  | kp => exact fun _ => rfl
  | seqStore | tenStore => exact ⟨rfl, rfl, rfl, rfl⟩
  | _ => exact rfl

theorem PartsKept.refl (ps : List Part) (s : State) : PartsKept ps s s :=
  ⟨rfl, fun p _ => p.same_refl s⟩

theorem PartsKept.trans {ps : List Part} {s t u : State} (h : PartsKept ps s t) (k : PartsKept ps t u) :
    PartsKept ps s u :=
  ⟨k.1.trans h.1, fun p hp => Part.same_trans (h.2 p hp) (k.2 p hp)⟩

theorem PartsKept.mono {ps qs : List Part} {s t : State} (hq : ps ⊆ qs) (h : PartsKept ps s t) :
    PartsKept qs s t :=
  ⟨h.1, fun p hp => h.2 p fun hm => hp (hq hm)⟩

theorem Frame.refl (ps : List Part) (fs : List Field) (s : State) : Frame ps fs s s :=
  ⟨PartsKept.refl ps s, fun _ _ => rfl⟩

theorem Frame.trans {ps : List Part} {fs : List Field} {s t u : State} (h : Frame ps fs s t)
    (k : Frame ps fs t u) : Frame ps fs s u :=
  ⟨h.1.trans k.1, fun g hg => (k.2 g hg).trans (h.2 g hg)⟩

theorem Frame.mono {ps qs : List Part} {fs gs : List Field} {s t : State} (hp : ps ⊆ qs) (hf : fs ⊆ gs)
    (h : Frame ps fs s t) : Frame qs gs s t :=
  ⟨h.1.mono hp, fun g hg => h.2 g fun hm => hg (List.map_subset _ hf hm)⟩

theorem Frame.set (s : State) (f : Field) (v : Nat) : Frame [] [f] s (s.set f v) :=
  ⟨⟨rfl, fun p _ => p.same_set s f v⟩, fun _ hg => s.get_set_ne v (by simpa using hg)⟩

theorem Frame.emit (s : State) (o : Out) : Frame [.out] [] s (s.emit o) :=
  ⟨⟨rfl, fun _ hp => Part.same_emit (by simpa using hp) s o⟩, fun g _ => s.emit_get o g⟩

/-! ### Passes over the fields of a register -/

/-- No two fields of the list share a place in the register file. -/
def KeysApart (fs : List Field) : Prop := fs.Pairwise fun f g => f.key ≠ g.key

/-- A pass that changes one listed field at a time changes the listed fields alone. -/
theorem Frame.foldl_fields {op : State → Field → State} (hop : ∀ t f, Frame [] [f] t (op t f))
    (fs : List Field) (s : State) : Frame [] fs s (fs.foldl op s) := by
  induction fs generalizing s with
  | nil => exact Frame.refl [] [] s
  | cons f fs ih =>
    have first : Frame [] (f :: fs) s (op s f) := (hop s f).mono (List.Subset.refl _) (by simp)
    exact first.trans ((ih (op s f)).mono (List.Subset.refl _) (List.subset_cons_self f fs))

/-- In such a pass each field gets what its own step makes of its value before the pass. -/
theorem get_foldl_fields {op : State → Field → State} (hop : ∀ t f, Frame [] [f] t (op t f))
    {val : Field → Nat → Nat} {fs : List Field} (hval : ∀ t, ∀ f ∈ fs, (op t f).get f = val f (t.get f))
    (hfs : KeysApart fs) (s : State) : ∀ f ∈ fs, (fs.foldl op s).get f = val f (s.get f) := by
  induction fs generalizing s with
  | nil => exact fun _ hf => nomatch hf
  | cons f fs ih =>
    obtain ⟨hhead, htail⟩ := List.pairwise_cons.1 hfs
    have hout : f.key ∉ fs.map Field.key := by
      intro hm
      obtain ⟨g, hg, hk⟩ := List.mem_map.1 hm
      exact hhead g hg hk.symm
    intro g hg
    rcases List.mem_cons.1 hg with rfl | hg
    · exact ((Frame.foldl_fields hop fs (op s g)).2 g hout).trans (hval s g List.mem_cons_self)
    · have hrest := ih (fun t f hf => hval t f (List.mem_cons_of_mem _ hf)) htail (op s f) g hg
      have hkeep : (op s f).get g = s.get g := (hop s f).2 g (by simpa using (hhead g hg).symm)
      rw [List.foldl_cons, hrest, hkeep]

/-! ### The layout of a register -/

/-- The fields `fs` are those of a register at address `a`: they stand inside its 48 bits, listed from the
highest down, and do not overlap. -/
structure LaidOut (a : Nat) (fs : List Field) : Prop where
  addr : ∀ f ∈ fs, f.addr = a
  fits : ∀ f ∈ fs, 0 < f.width ∧ f.lsb + f.width ≤ 48
  falling : fs.Pairwise fun f g => g.lsb + g.width ≤ f.lsb

theorem LaidOut.nil (a : Nat) : LaidOut a [] := by constructor <;> simp

theorem LaidOut.keysApart {a : Nat} {fs : List Field} (h : LaidOut a fs) : KeysApart fs := by
  refine h.falling.imp_of_mem fun {f g} hf hg hfg => ?_
  have haddr : f.addr = g.addr := (h.addr f hf).trans (h.addr g hg).symm
  have hwidth := (h.fits g hg).1
  unfold Field.key
  omega

/-- Every supply register is laid out (R455). -/
theorem fieldsSup_laidOut (o : Nat) : LaidOut (0x0100 + o) (fieldsSup o) := by
  unfold fieldsSup
  split
  · refine ⟨?_, by simp [SUP_GRP.BUDGET], by simp⟩
    simp only [List.forall_mem_cons, SUP_GRP.BUDGET]
    exact ⟨by omega, List.forall_mem_nil _⟩
  split
  · refine ⟨?_, by simp [SUP_GSTAT.USED, SUP_GSTAT.QLEN], by simp [SUP_GSTAT.USED, SUP_GSTAT.QLEN]⟩
    simp only [List.forall_mem_cons, SUP_GSTAT.USED, SUP_GSTAT.QLEN]
    exact ⟨by omega, by omega, List.forall_mem_nil _⟩
  split
  case h_8 => exact LaidOut.nil _
  all_goals constructor <;> decide

/-- Every switch-core register is laid out (R333). -/
theorem fieldsXbar_laidOut (o : Nat) : LaidOut (0x0800 + o) (fieldsXbar o) := by
  unfold fieldsXbar
  split
  · refine ⟨?_, by simp [XBAR_FWD.PRUN, XBAR_FWD.CTBULK, XBAR_FWD.CTPRIO, XBAR_FWD.CTCTL],
      by simp [XBAR_FWD.PRUN, XBAR_FWD.CTBULK, XBAR_FWD.CTPRIO, XBAR_FWD.CTCTL]⟩
    simp only [List.forall_mem_cons, XBAR_FWD.PRUN, XBAR_FWD.CTBULK, XBAR_FWD.CTPRIO, XBAR_FWD.CTCTL]
    exact ⟨by omega, by omega, by omega, by omega, List.forall_mem_nil _⟩
  split
  · refine ⟨?_, by simp [XBAR_TQUOTA.CLASS, XBAR_TQUOTA.TBLW, XBAR_TQUOTA.CELLS],
      by simp [XBAR_TQUOTA.CLASS, XBAR_TQUOTA.TBLW, XBAR_TQUOTA.CELLS]⟩
    simp only [List.forall_mem_cons, XBAR_TQUOTA.CLASS, XBAR_TQUOTA.TBLW, XBAR_TQUOTA.CELLS]
    exact ⟨by omega, by omega, by omega, List.forall_mem_nil _⟩
  split
  · refine ⟨?_, by simp [XBAR_TSTAT.OVER, XBAR_TSTAT.BUFFERED, XBAR_TSTAT.ADMITTED],
      by simp [XBAR_TSTAT.OVER, XBAR_TSTAT.BUFFERED, XBAR_TSTAT.ADMITTED]⟩
    simp only [List.forall_mem_cons, XBAR_TSTAT.OVER, XBAR_TSTAT.BUFFERED, XBAR_TSTAT.ADMITTED]
    exact ⟨by omega, by omega, by omega, List.forall_mem_nil _⟩
  split
  · refine ⟨?_, by simp [XBAR_BANKCE.CE], by simp⟩
    simp only [List.forall_mem_cons, XBAR_BANKCE.CE]
    exact ⟨by omega, List.forall_mem_nil _⟩
  split
  case h_7 => exact LaidOut.nil _
  all_goals constructor <;> decide

theorem regFields_supply {a : Nat} (hlo : 0x0100 ≤ a) (hhi : a < 0x0180) :
    regFields a = fieldsSup (a - 0x0100) := by
  unfold regFields
  rw [if_neg (by omega), if_pos hhi]

theorem regFields_xbar {a : Nat} (hlo : 0x0800 ≤ a) (hhi : a < 0x0C00) :
    regFields a = fieldsXbar (a - 0x0800) := by
  unfold regFields
  simp [hhi, show ¬ a < 0x0100 by omega, show ¬ a < 0x0180 by omega, show ¬ a < 0x0200 by omega,
    show ¬ a < 0x0300 by omega, show ¬ a < 0x0400 by omega, show ¬ a < 0x0600 by omega,
    show ¬ a < 0x0700 by omega, show ¬ a < 0x0800 by omega]

theorem regFields_supply_laidOut {a : Nat} (hlo : 0x0100 ≤ a) (hhi : a < 0x0180) :
    LaidOut a (regFields a) := by
  have h := fieldsSup_laidOut (a - 0x0100)
  rwa [Nat.add_sub_cancel' hlo, ← regFields_supply hlo hhi] at h

theorem regFields_xbar_laidOut {a : Nat} (hlo : 0x0800 ≤ a) (hhi : a < 0x0C00) :
    LaidOut a (regFields a) := by
  have h := fieldsXbar_laidOut (a - 0x0800)
  rwa [Nat.add_sub_cancel' hlo, ← regFields_xbar hlo hhi] at h

/-! ### Fields of a word -/

theorem Field.of_eq {f : Field} (hf : 0 < f.width) (v : Word) :
    f.of v = v.toNat / 2 ^ f.lsb % 2 ^ f.width := by
  have hw : f.lsb + f.width - 1 + 1 - f.lsb = f.width := by omega
  rw [Field.of, wbits, bits, hw]

theorem Field.of_lt {f : Field} (hf : 0 < f.width) (v : Word) : f.of v < 2 ^ f.width := by
  rw [Field.of_eq hf]
  exact Nat.mod_lt _ (Nat.two_pow_pos _)

/-- The number with the value `val f` at the place of each field. -/
def fieldSum (val : Field → Nat) : List Field → Nat
  | [] => 0
  | f :: fs => val f * 2 ^ f.lsb + fieldSum val fs

theorem foldl_eq_add_fieldSum (val : Field → Nat) (fs : List Field) (n : Nat) :
    fs.foldl (fun n f => n + val f * 2 ^ f.lsb) n = n + fieldSum val fs := by
  induction fs generalizing n with
  | nil => rfl
  | cons f fs ih => rw [List.foldl_cons, ih, fieldSum, Nat.add_assoc]

/-- Fields that fall from bit `m` down spell a number below `2 ^ m`. -/
theorem fieldSum_lt {val : Field → Nat} {fs : List Field} {m : Nat}
    (hfall : fs.Pairwise fun f g => g.lsb + g.width ≤ f.lsb) (hval : ∀ f ∈ fs, val f < 2 ^ f.width)
    (hm : ∀ f ∈ fs, f.lsb + f.width ≤ m) : fieldSum val fs < 2 ^ m := by
  induction fs generalizing m with
  | nil => exact Nat.two_pow_pos m
  | cons f fs ih =>
    obtain ⟨hbelow, htail⟩ := List.pairwise_cons.1 hfall
    have hrest : fieldSum val fs < 2 ^ f.lsb :=
      ih htail (fun g hg => hval g (List.mem_cons_of_mem _ hg)) hbelow
    have hhead : val f + 1 ≤ 2 ^ f.width := hval f List.mem_cons_self
    calc fieldSum val (f :: fs) < (val f + 1) * 2 ^ f.lsb := by rw [fieldSum, Nat.succ_mul]; omega
      _ ≤ 2 ^ f.width * 2 ^ f.lsb := Nat.mul_le_mul_right _ hhead
      _ = 2 ^ (f.lsb + f.width) := by rw [Nat.pow_add, Nat.mul_comm]
      _ ≤ 2 ^ m := Nat.pow_le_pow_right (by decide) (hm f List.mem_cons_self)

/-- Each field's bits of that number are its value. -/
theorem fieldSum_div_mod {val : Field → Nat} {fs : List Field}
    (hfall : fs.Pairwise fun f g => g.lsb + g.width ≤ f.lsb) (hval : ∀ f ∈ fs, val f < 2 ^ f.width) :
    ∀ f ∈ fs, fieldSum val fs / 2 ^ f.lsb % 2 ^ f.width = val f := by
  induction fs with
  | nil => exact fun _ hf => nomatch hf
  | cons f fs ih =>
    obtain ⟨hbelow, htail⟩ := List.pairwise_cons.1 hfall
    have hvaltail : ∀ g ∈ fs, val g < 2 ^ g.width := fun g hg => hval g (List.mem_cons_of_mem _ hg)
    intro g hg
    rcases List.mem_cons.1 hg with rfl | hg
    · have hrest : fieldSum val fs < 2 ^ g.lsb := fieldSum_lt htail hvaltail hbelow
      rw [fieldSum, Nat.mul_comm, Nat.mul_add_div (Nat.two_pow_pos _), Nat.div_eq_of_lt hrest, Nat.add_zero,
        Nat.mod_eq_of_lt (hval g List.mem_cons_self)]
    · obtain ⟨d, hd⟩ := Nat.exists_eq_add_of_le (hbelow g hg)
      have hplace : val f * 2 ^ f.lsb = 2 ^ g.lsb * (2 ^ g.width * (2 ^ d * val f)) := by
        rw [hd, Nat.pow_add, Nat.pow_add]; ac_rfl
      rw [fieldSum, hplace, Nat.mul_add_div (Nat.two_pow_pos _), Nat.mul_add_mod]
      exact ih htail hvaltail g hg

/-- The bit gathering of a W1C write: bit `i` of the number is `p i`. -/
theorem foldl_bits_lt_and_testBit (p : Nat → Bool) (w : Nat) :
    (List.range w).foldl (fun n i => n + (p i).toNat * 2 ^ i) 0 < 2 ^ w ∧
      ∀ i, i < w → ((List.range w).foldl (fun n i => n + (p i).toNat * 2 ^ i) 0).testBit i = p i := by
  induction w with
  | zero => exact ⟨Nat.one_pos, fun _ hi => nomatch hi⟩
  | succ w ih =>
    obtain ⟨hlt, hbit⟩ := ih
    rw [List.range_succ, List.foldl_append, List.foldl_cons, List.foldl_nil, Nat.add_comm, Nat.mul_comm]
    refine ⟨?_, fun i hi => ?_⟩
    · have htop : 2 ^ w * (p w).toNat ≤ 2 ^ w * 1 := Nat.mul_le_mul_left _ (Bool.toNat_le (p w))
      rw [Nat.pow_succ]
      omega
    · rw [Nat.testBit_two_pow_mul_add _ hlt]
      split
      · next hiw => exact hbit i hiw
      · obtain rfl : i = w := by omega
        cases p i <;> simp

end Sys2Proof.Machine
end

section
/-! ### A register write by access code (R8) -/

namespace Sys2Proof.Machine

/-- What a plain write of `v` makes of a field that holds `x`, where no lock stands in its way. -/
def Field.written (f : Field) (v : Word) (x : Nat) : Nat :=
  match f.acc with
  | .rw | .rwl => f.of v
  | .w1c => (List.range f.width).foldl (fun n i => n + (x.testBit i && !(f.of v).testBit i).toNat * 2 ^ i) 0
  | _ => x

theorem Field.written_kept {f : Field} (hrw : f.acc ≠ .rw) (hrwl : f.acc ≠ .rwl) (hw1c : f.acc ≠ .w1c)
    (v : Word) (x : Nat) : f.written v x = x := by
  cases hacc : f.acc <;> simp_all [Field.written]

/-- The step of `State.writeFields` at one field. -/
def State.writeField (v : Word) (s : State) (f : Field) : State :=
  match f.acc with
  | .rw => s.set f (f.of v)
  | .rwl => if s.kpLocked then s else s.set f (f.of v)
  | .w1c => s.set f (f.written v (s.get f))
  | _ => s

theorem State.writeFields_eq_foldl (s : State) (fs : List Field) (v : Word) :
    s.writeFields fs v = fs.foldl (State.writeField v) s := by
  unfold State.writeFields
  congr 1
  funext t f
  obtain ⟨addr, lsb, width, acc, rst⟩ := f
  cases acc <;> rfl

/-- Clearing the bits named with a 1 leaves a number of the field's width. -/
theorem Field.written_w1c_testBit {f : Field} (hf : f.acc = .w1c) (v : Word) (x : Nat) {i : Nat}
    (hi : i < f.width) : (f.written v x).testBit i = (x.testBit i && !(f.of v).testBit i) := by
  simp only [Field.written, hf]
  exact (foldl_bits_lt_and_testBit (fun i => x.testBit i && !(f.of v).testBit i) f.width).2 i hi

theorem Field.written_w1c_lt {f : Field} (hf : f.acc = .w1c) (v : Word) (x : Nat) :
    f.written v x < 2 ^ f.width := by
  simp only [Field.written, hf]
  exact (foldl_bits_lt_and_testBit (fun i => x.testBit i && !(f.of v).testBit i) f.width).1

theorem Frame.writeField (v : Word) (s : State) (f : Field) : Frame [] [f] s (s.writeField v f) := by
  unfold State.writeField
  split
  · exact Frame.set s f _
  · split
    · exact Frame.refl [] [f] s
    · exact Frame.set s f _
  · exact Frame.set s f _
  · exact Frame.refl [] [f] s

theorem State.get_writeField (v : Word) (s : State) {f : Field} (hf : 0 < f.width) (hl : f.acc ≠ .rwl) :
    (s.writeField v f).get f = f.written v (s.get f) := by
  cases hacc : f.acc with
  | rwl => exact absurd hacc hl
  | rw => simp [State.writeField, Field.written, hacc, Nat.mod_eq_of_lt (Field.of_lt hf v)]
  | w1c =>
    simp only [State.writeField, hacc, State.get_set_same]
    exact Nat.mod_eq_of_lt (Field.written_w1c_lt hacc v _)
  | _ => simp [State.writeField, Field.written, hacc]

/-- A plain write changes the register's fields alone. -/
theorem Frame.writePlain (s : State) (a : Nat) (v : Word) : Frame [] (regFields a) s (s.writePlain a v) := by
  rw [State.writePlain, State.writeFields_eq_foldl]
  exact Frame.foldl_fields (Frame.writeField v) _ s

/-- A plain write of a register without a field under the king-post lock treats each field by its access code. -/
theorem State.get_writePlain (s : State) {a : Nat} (v : Word) (hlay : LaidOut a (regFields a))
    (hl : ∀ f ∈ regFields a, f.acc ≠ .rwl) :
    ∀ f ∈ regFields a, (s.writePlain a v).get f = f.written v (s.get f) := by
  rw [State.writePlain, State.writeFields_eq_foldl]
  exact get_foldl_fields (Frame.writeField v)
    (fun t f hf => State.get_writeField v t (hlay.fits f hf).1 (hl f hf)) hlay.keysApart s

/-- No supply register is under the king-post lock (R455). -/
theorem fieldsSup_acc_ne_rwl (o : Nat) : ∀ f ∈ fieldsSup o, f.acc ≠ .rwl := by
  unfold fieldsSup
  split
  · simp [SUP_GRP.BUDGET]
  split
  · simp [SUP_GSTAT.USED, SUP_GSTAT.QLEN]
  split <;> decide

theorem inSpan_eq_false {x a b : Nat} (h : x < a ∨ b ≤ x) : inSpan x a b = false := by
  rcases h with h | h
  · rw [inSpan, decide_eq_false (Nat.not_le.2 h), Bool.false_and]
  · rw [inSpan, decide_eq_false (Nat.not_lt.2 h), Bool.and_false]

/-- The supply registers from `SUP_STAT` on have no effect of their own: a write of one is plain. -/
theorem State.writeReg_supply (s : State) {a : Nat} (v : Word) (hlo : 0x0102 ≤ a) (hhi : a < 0x0180) :
    s.writeReg a v = s.writePlain a v := by
  unfold State.writeReg
  split
  · next hempty =>
    rw [State.writePlain, List.isEmpty_iff.1 hempty]
    rfl
  rw [if_pos (show a < 0x0300 by omega)]
  unfold State.writeMgtBlock
  split
  case h_16 => rw [inSpan_eq_false (.inl (by omega))]; rfl
  all_goals omega

/-- Settles O2: a write of a supply register is plain, and a plain write is one pass over fields that share no
place. -/
theorem registerWriteByAccessCode : Obligations.RegisterWriteByAccessCode := by
  intro s a v hlo hhi
  have hlay : LaidOut a.toNat (regFields a.toNat) := regFields_supply_laidOut (by omega) hhi
  have hlock : ∀ f ∈ regFields a.toNat, f.acc ≠ .rwl := by
    rw [regFields_supply (by omega) hhi]
    exact fieldsSup_acc_ne_rwl _
  refine ⟨s.writePlain a.toNat v, congrArg Host.Outcome.next (s.writeReg_supply v hlo hhi), fun f hf => ?_,
    Frame.writePlain s a.toNat v⟩
  have hget := s.get_writePlain v hlay hlock f hf
  split
  case h_1 hacc => simpa [Field.written, hacc] using hget
  case h_2 hacc => exact fun i hi => hget ▸ Field.written_w1c_testBit hacc v _ hi
  case h_3 hrw hw1c => rwa [Field.written_kept hrw (hlock f hf) hw1c] at hget

/-! ### A register read and the RC fields (R8) -/

/-- A register shows each field's value in the field's own bits. -/
theorem Field.of_regWord (s : State) {a : Nat} (hlay : LaidOut a (regFields a))
    (hval : ∀ f ∈ regFields a, s.shown f < 2 ^ f.width) :
    ∀ f ∈ regFields a, f.of (s.regWord a) = s.shown f := by
  intro f hf
  have hlt : fieldSum s.shown (regFields a) < 2 ^ 48 :=
    fieldSum_lt hlay.falling hval fun g hg => (hlay.fits g hg).2
  have hword : (s.regWord a).toNat = fieldSum s.shown (regFields a) := by
    rw [State.regWord, foldl_eq_add_fieldSum, Nat.zero_add, word, BitVec.toNat_ofNat, Nat.mod_eq_of_lt hlt]
  rw [Field.of_eq (hlay.fits f hf).1, hword]
  exact fieldSum_div_mod hlay.falling hval f hf

/-- A switch-core field shows what the register file holds; a WO field shows 0. -/
theorem State.shown_xbar (s : State) {f : Field} (hlo : 0x0800 ≤ f.addr) (hhi : f.addr < 0x0C00)
    (hne : f.addr ≠ 0x0845) : s.shown f = if f.acc = .wo then 0 else s.get f := by
  have h1 : inSpan f.addr 0x1400 0x1700 = false :=
    inSpan_eq_false (by omega)
  have h2 : inSpan f.addr 0x1800 0x1C00 = false :=
    inSpan_eq_false (by omega)
  have h3 : inSpan f.addr 0x2000 0x3000 = false :=
    inSpan_eq_false (by omega)
  simp [State.shown, h1, h2, h3, hne, show ¬ f.addr < 0x0800 by omega, show f.addr ≠ 0x3403 by omega]

/-- The step of `State.readClears` at one field. -/
def State.clearRc (s : State) (f : Field) : State := if f.acc = .rc then s.set f 0 else s

theorem Frame.clearRc (s : State) (f : Field) : Frame [] [f] s (s.clearRc f) := by
  unfold State.clearRc
  split
  · exact Frame.set s f 0
  · exact Frame.refl [] [f] s

theorem State.get_clearRc (s : State) (f : Field) :
    (s.clearRc f).get f = if f.acc = .rc then 0 else s.get f := by
  unfold State.clearRc
  split
  · rw [State.get_set_same, Nat.zero_mod]
  · rfl

/-- A read of a switch-core register clears its RC fields and has no other effect. -/
theorem State.readReg_xbar (s : State) {a : Nat} (hlo : 0x0800 ≤ a) (hhi : a < 0x0C00) :
    s.readReg a = ((regFields a).foldl State.clearRc s, s.regWord a) := by
  have hbay : inSpan a 0x2000 0x3000 = false :=
    inSpan_eq_false (by omega)
  have hkp : inSpan a 0x0010 0x0014 = false :=
    inSpan_eq_false (by omega)
  have hmac : inSpan a 0x1400 0x1700 = false :=
    inSpan_eq_false (by omega)
  have hclear : s.readClears a = (regFields a).foldl State.clearRc s := by
    rw [State.readClears, if_neg (show a ≠ 0x018B by omega), hmac, Bool.false_and, if_neg Bool.false_ne_true,
      if_neg (show a ≠ 0x3403 by omega)]
    rfl
  simp [State.readReg, hbay, hkp, hclear, show a ≠ 0x0600 by omega, show a ≠ 0x0021 by omega]

/-- Settles O4: the word is made of fields that do not overlap, and the clearing is one pass over fields that
share no place. -/
theorem registerReadClearsRcFields : Obligations.RegisterReadClearsRcFields := by
  intro s a hlo hhi hne hval
  have hlay : LaidOut a.toNat (regFields a.toNat) := regFields_xbar_laidOut hlo hhi
  have hshown : ∀ f ∈ regFields a.toNat, s.shown f = if f.acc = .wo then 0 else s.get f := by
    intro f hf
    have haddr := hlay.addr f hf
    exact s.shown_xbar (by omega) (by omega) (by omega)
  have hshown_lt : ∀ f ∈ regFields a.toNat, s.shown f < 2 ^ f.width := by
    intro f hf
    rw [hshown f hf]
    split
    · exact Nat.two_pow_pos _
    · exact hval f hf
  have hread : exec (.registerReadClear a) s =
      .next (((regFields a.toNat).foldl State.clearRc s).emit (.read (s.regWord a.toNat))) := by
    show Host.Outcome.next (s.readOutReg a.toNat) = _
    rw [State.readOutReg, s.readReg_xbar hlo hhi]
  have hframe := Frame.foldl_fields Frame.clearRc (regFields a.toNat) s
  refine ⟨_, s.regWord a.toNat, hread, congrArg (Out.read (s.regWord a.toNat) :: ·) ?_,
    fun f hf => ⟨fun hwo => ?_, ?_⟩, ?_⟩
  · exact hframe.1.2 .out (by simp)
  · rw [Field.of_regWord s hlay hshown_lt f hf, hshown f hf, if_neg hwo]
  · rw [State.emit_get]
    exact get_foldl_fields Frame.clearRc (fun t f _ => t.get_clearRc f) hlay.keysApart s f hf
  · exact (hframe.mono (List.nil_subset _) (List.Subset.refl _)).trans
      ((Frame.emit _ _).mono (List.Subset.refl _) (List.nil_subset _))

/-! ### The state after reset (R13, R474) -/

/-- A copy none of whose stored bits is flipped reads as its data. -/
theorem KpCopy.read_intact (v : Word) : (KpCopy.mk v 0).read = some v := by
  have herrors : (KpCopy.mk v 0).errors = 0 := (by decide : (KpCopy.mk 0 0).errors = 0)
  simp only [KpCopy.read, herrors]

/-- Three copies of one value agree on it. -/
theorem KpReg.agreed_of (v : Word) : (KpReg.of v).agreed = some v := by
  simp only [KpReg.agreed, KpReg.of, KpCopy.read_intact, if_true]

/-- After reset the three copies of every king-post register hold one value. -/
theorem State.reset_kp (i : Nat) : ∃ v, State.reset.kp i = KpReg.of v := by
  unfold State.kp
  split <;> exact ⟨_, rfl⟩

theorem State.reset_sound : State.reset.Sound where
  mem := rfl
  regs := List.Pairwise.nil
  doors := Nat.zero_le _
  wheel := Nat.zero_le _
  causes := List.nodup_nil
  fwd := Nat.zero_le _
  remote := Nat.zero_le _

theorem State.reset_mode : State.reset.mode = mCommission := by
  have hagreed : State.reset.kpMode.agreed = some 1 := KpReg.agreed_of 1
  rw [State.mode, KpReg.value, hagreed]
  rfl

/-- Settles O58: no memory or queue holds anything, and every king-post register holds three equal copies. -/
theorem resetLeavesASoundHub : Obligations.ResetLeavesASoundHub := by
  refine ⟨State.reset_sound, ?_, fun i _ => ?_, rfl, rfl, State.reset_mode⟩
  · simp [State.legalMode, State.reset_mode]
  · obtain ⟨v, hv⟩ := State.reset_kp i
    simp [hv, KpReg.agreed_of]

end Sys2Proof.Machine
end

section
/-! ### Frames of the shared operations and of the clock -/

namespace Sys2Proof.Machine

theorem PartsKept.part {ps : List Part} {s t : State} (h : PartsKept ps s t) {p : Part}
    (hp : p ∉ ps := by decide) : p.same s t := h.2 p hp

theorem Frame.part {ps : List Part} {fs : List Field} {s t : State} (h : Frame ps fs s t) {p : Part}
    (hp : p ∉ ps := by decide) : p.same s t := h.1.part hp

/-- A field at a key below those of all changed fields stays. -/
theorem Frame.get_of_key_lt {ps : List Part} {fs : List Field} {s t : State} (h : Frame ps fs s t) {g : Field}
    {n : Nat} (hfs : ∀ f ∈ fs, n ≤ f.key) (hg : g.key < n) : t.get g = s.get g := by
  refine h.2 g fun hm => ?_
  obtain ⟨f, hf, hk⟩ := List.mem_map.1 hm
  have := hfs f hf
  omega

/-- A state that differs in the clock, the cycle matrix, the table, the sequencer, the engines, the chain
ports and the collector at most: which of them are kept decides. -/
theorem Frame.of_parts {ps : List Part} {s t : State}
    (hrest : t = { s with
      now := t.now, cyc := t.cyc, tbl := t.tbl, seq := t.seq, eng := t.eng, chp := t.chp, flt := t.flt })
    (hclock : .clock ∈ ps ∨ t.now = s.now := by simp) (hcyc : .cyc ∈ ps ∨ t.cyc = s.cyc := by simp)
    (htbl : .tbl ∈ ps ∨ { t.tbl with ddr := [], host := [] } = { s.tbl with ddr := [], host := [] } := by simp)
    (hddr : t.tbl.ddr = s.tbl.ddr := by rfl) (hhost : t.tbl.host = s.tbl.host := by rfl)
    (hseq : .seq ∈ ps ∨ t.seq = s.seq := by simp) (heng : .eng ∈ ps ∨ t.eng = s.eng := by simp)
    (hchp : .chp ∈ ps ∨ t.chp = s.chp := by simp) (hflt : .flt ∈ ps ∨ t.flt = s.flt := by simp) :
    Frame ps [] s t := by
  refine ⟨⟨by rw [hrest], fun p hp => ?_⟩, fun g _ => by rw [hrest]; rfl⟩
  cases p with
  | clock => exact hclock.resolve_left hp
  | cyc => exact hcyc.resolve_left hp
  | tbl => exact htbl.resolve_left hp
  | seq => exact hseq.resolve_left hp
  | eng => exact heng.resolve_left hp
  | chp => exact hchp.resolve_left hp
  | flt => exact hflt.resolve_left hp
  | ddr => exact hddr
  | host => exact hhost
  | kp => intro i; rw [hrest]; rfl
  | seqStore | tenStore => rw [hrest]; exact ⟨rfl, rfl, rfl, rfl⟩
  | _ => rw [Part.same, hrest]

theorem Frame.withSeq (s : State) (q : Seq) : Frame [.seq] [] s { s with seq := q } := .of_parts rfl

theorem Frame.setEngine (s : State) (k : Nat) (e : Eng) : Frame [.eng] [] s (s.setEngine k e) :=
  have h : Frame [.eng] [] s { s with eng := Tab.put Eng.reset s.eng k e } := .of_parts rfl
  h

theorem Frame.withFlt (s : State) (x : Flt) : Frame [.flt] [] s { s with flt := x } := .of_parts rfl

theorem Frame.withChp (s : State) (x : Tab Chp) : Frame [.chp] [] s { s with chp := x } := .of_parts rfl

theorem Frame.raise (s : State) (k : Kind) (a : Nat) : Frame [.flt] [] s (s.raise k a) := Frame.withFlt s _

theorem Frame.endLevel (s : State) (k : Kind) (a : Nat) : Frame [.flt] [] s (s.endLevel k a) := Frame.withFlt s _

/-- Two changes in a row. -/
theorem Frame.andThen {ps qs : List Part} {fs gs : List Field} {s t u : State} (h : Frame ps fs s t)
    (k : Frame qs gs t u) : Frame (ps ++ qs) (fs ++ gs) s u :=
  (h.mono (List.subset_append_left ps qs) (List.subset_append_left fs gs)).trans
    (k.mono (List.subset_append_right ps qs) (List.subset_append_right fs gs))

/-! ### The clock (R335, R358) -/

/-- The fields that the clock moves: the cycle position, the ring time and what is left of a steering. -/
def clockFields : List Field := [CYC_STEERST.REMAIN, CYC_STAT.MSEQ, CYC_STAT.CYC, CYC_TICKS.TICKS]

theorem Frame.setInt (s : State) (f : Field) (v : Int) : Frame [] [f] s (s.setInt f v) := Frame.set s f _

theorem Frame.movePosition (s : State) (n : Nat) :
    Frame [.cyc] [CYC_STAT.MSEQ, CYC_STAT.CYC] s (s.movePosition n) := by
  have offset (c : Cyc) : Frame [.cyc] [] s { s with cyc := c } := .of_parts rfl
  exact ((offset _).andThen (Frame.set _ _ _)).andThen (Frame.set _ _ _)

theorem Frame.advance (s : State) (n : Nat) : Frame [.clock, .cyc] clockFields s (s.advance n) := by
  have passed (m : Nat) (c : Cyc) : Frame [.clock, .cyc] [] s { s with now := m, cyc := c } := .of_parts rfl
  unfold State.advance
  split
  · exact Frame.refl _ _ s
  · exact ((((passed _ _).andThen (Frame.setInt _ _ _)).andThen (Frame.movePosition _ _)).andThen
      (Frame.setInt _ _ _)).mono (by simp) (by simp [clockFields])

theorem State.advance_now (s : State) (n : Nat) : (s.advance n).now = s.now + n := by
  unfold State.advance
  split
  case isTrue h => rw [h]; rfl
  case isFalse => rfl

theorem State.advance_seq (s : State) (n : Nat) : (s.advance n).seq = s.seq := (Frame.advance s n).part (p := .seq)

theorem State.advance_entry (s : State) (n i : Nat) : (s.advance n).entry i = s.entry i := by
  rw [State.entry, State.advance_seq]
  rfl

theorem State.waitUntil_now (s : State) (t : Nat) : (s.waitUntil t).now = max s.now t := by
  rw [State.waitUntil, State.advance_now]
  omega

/-- A field below the clock's registers does not move with the clock. -/
theorem State.advance_get (s : State) (n : Nat) {g : Field} (hg : g.key < CYC_STAT.CYC.key) :
    (s.advance n).get g = s.get g :=
  (Frame.advance s n).get_of_key_lt (by decide) hg

theorem State.advance_fwd (s : State) (n d : Nat) : (s.advance n).fwd d = s.fwd d := by
  have hkey : (PH_STAT.DIR d).key ∉ clockFields.map Field.key := by
    simp [clockFields, Field.key, PH_STAT.DIR, CYC_STEERST.REMAIN, CYC_STAT.MSEQ, CYC_STAT.CYC, CYC_TICKS.TICKS]
    omega
  rw [State.fwd, State.on, (Frame.advance s n).2 _ hkey]
  rfl

end Sys2Proof.Machine
end

section
/-! ### Entries and the firing queue (R127, R128, R135) -/

namespace Sys2Proof.Machine

/-- No tenant's count of entries stands at the field's place. -/
def Field.notUsed (g : Field) : Prop := ∀ n, g.key ≠ (SEQ_TCAP.USED n).key

theorem Field.notUsed_of_key_lt {g : Field} (hg : g.key < (SEQ_TCAP.USED 0).key) : g.notUsed := by
  intro n
  have hle : (SEQ_TCAP.USED 0).key ≤ (SEQ_TCAP.USED n).key := by
    simp only [Field.key, SEQ_TCAP.USED]
    omega
  omega

/-- The direction of a domain is no count of entries. -/
theorem notUsed_dir (d : Nat) : (PH_STAT.DIR d).notUsed := by
  intro n
  simp [Field.key, PH_STAT.DIR, SEQ_TCAP.USED]
  omega

/-- From `s` to `t` nothing changes but the sequencer's record and the tenants' counts of entries. -/
structure EntriesOnly (s t : State) : Prop where
  parts : PartsKept [.seq] s t
  get {g : Field} : g.notUsed → t.get g = s.get g

theorem EntriesOnly.refl (s : State) : EntriesOnly s s := ⟨PartsKept.refl _ s, fun _ => rfl⟩

theorem EntriesOnly.trans {s t u : State} (h : EntriesOnly s t) (k : EntriesOnly t u) : EntriesOnly s u :=
  ⟨h.parts.trans k.parts, fun hg => (k.get hg).trans (h.get hg)⟩

theorem EntriesOnly.of_frame {fs : List Field} {s t : State} (h : Frame [.seq] fs s t)
    (hfs : ∀ f ∈ fs, ∃ n, f = SEQ_TCAP.USED n) : EntriesOnly s t := by
  refine ⟨h.1, fun {g} hg => h.2 g fun hm => ?_⟩
  obtain ⟨f, hf, hk⟩ := List.mem_map.1 hm
  obtain ⟨n, rfl⟩ := hfs f hf
  exact hg n hk.symm

theorem EntriesOnly.used (s : State) (n v : Nat) : EntriesOnly s (s.set (SEQ_TCAP.USED n) v) :=
  .of_frame ((Frame.set s _ v).mono (List.nil_subset _) (List.Subset.refl _))
    fun _ hf => ⟨n, List.mem_singleton.1 hf⟩

/-- The tenants' counts follow where an entry passes from one owner to another; both are numbers of tenants plus
one, 0 for none (R128). -/
def State.recount (s : State) (old new : Nat) : State :=
  if old = new then s
  else
    let s := if old = 0 then s else s.set (SEQ_TCAP.USED (old - 1)) (s.used (old - 1) - 1)
    if new = 0 then s else s.set (SEQ_TCAP.USED (new - 1)) (s.used (new - 1) + 1)

/-- The owner that an entry has. -/
def Eph.owner (e : Eph) : Nat := if e.state = eFREE then 0 else e.tenant + 1

theorem State.setEntry_eq (s : State) (i : Nat) (e : Eph) :
    s.setEntry i e = ({ s with seq := { s.seq with
        eph := Tab.put Eph.free s.seq.eph i e
        owner := Tab.put 0 s.seq.owner i e.owner } } : State).recount (Tab.get 0 s.seq.owner i) e.owner := rfl

theorem State.recount_seq (s : State) (old new : Nat) : (s.recount old new).seq = s.seq := by
  unfold State.recount
  repeat' split
  all_goals rfl

theorem EntriesOnly.recount (s : State) (old new : Nat) : EntriesOnly s (s.recount old new) := by
  have joins (t : State) (h : EntriesOnly s t) :
      EntriesOnly s (if new = 0 then t else t.set (SEQ_TCAP.USED (new - 1)) (t.used (new - 1) + 1)) := by
    split
    · exact h
    · exact h.trans (.used t _ _)
  unfold State.recount
  split
  · exact .refl s
  · refine joins _ ?_
    split
    · exact .refl s
    · exact .used s _ _

theorem EntriesOnly.setEntry (s : State) (i : Nat) (e : Eph) : EntriesOnly s (s.setEntry i e) :=
  (EntriesOnly.of_frame (Frame.withSeq s _) (by simp)).trans (.recount _ _ _)

/-- Replacing an entry changes the entries and the record of their tenants. -/
theorem State.setEntry_seq (s : State) (i : Nat) (e : Eph) :
    (s.setEntry i e).seq = { s.seq with
      eph := Tab.put Eph.free s.seq.eph i e, owner := Tab.put 0 s.seq.owner i e.owner } := by
  rw [State.setEntry_eq, State.recount_seq]

@[simp] theorem State.setEntry_wheel (s : State) (i : Nat) (e : Eph) : (s.setEntry i e).seq.wheel = s.seq.wheel := by
  rw [State.setEntry_seq]

@[simp] theorem State.setEntry_acts (s : State) (i : Nat) (e : Eph) : (s.setEntry i e).seq.acts = s.seq.acts := by
  rw [State.setEntry_seq]

@[simp] theorem State.setEntry_nextAct (s : State) (i : Nat) (e : Eph) :
    (s.setEntry i e).seq.nextAct = s.seq.nextAct := by
  rw [State.setEntry_seq]

@[simp] theorem State.entry_setEntry (s : State) (i : Nat) (e : Eph) (j : Nat) :
    (s.setEntry i e).entry j = if j = i then e else s.entry j := by
  rw [State.entry, State.setEntry_seq]
  exact Tab.get_put Eph.free s.seq.eph i j e

theorem Frame.setWheel (s : State) (w : List Firing) : Frame [.seq] [SEQ_STAT.WHEEL] s (s.setWheel w) :=
  (Frame.withSeq s _).andThen (Frame.set _ _ _)

@[simp] theorem State.setWheel_seq (s : State) (w : List Firing) : (s.setWheel w).seq = { s.seq with wheel := w } := rfl

@[simp] theorem State.entry_setWheel (s : State) (w : List Firing) (i : Nat) : (s.setWheel w).entry i = s.entry i := rfl

/-- A withdrawal sets the queue and may set one entry. -/
theorem State.withdraw_eq (s : State) (i : Nat) :
    s.withdraw i = (s.setWheel (s.seq.wheel.filter fun f => f.entry != i)) ∨
      s.withdraw i = (s.setWheel (s.seq.wheel.filter fun f => f.entry != i)).setEntry i
        { s.entry i with state := eARMED } := by
  unfold State.withdraw
  simp only
  split
  · exact .inr rfl
  · exact .inl rfl

theorem State.withdraw_queued {s : State} {i : Nat} (h : (s.entry i).state = eQUEUED) :
    s.withdraw i = (s.setWheel (s.seq.wheel.filter fun f => f.entry != i)).setEntry i
      { s.entry i with state := eARMED } := by
  unfold State.withdraw
  simp only [State.entry_setWheel, h, if_true]
  rfl

theorem State.withdraw_wheel (s : State) (i : Nat) :
    (s.withdraw i).seq.wheel = s.seq.wheel.filter fun f => f.entry != i := by
  rcases s.withdraw_eq i with h | h <;> rw [h] <;> simp

theorem State.withdraw_acts (s : State) (i : Nat) : (s.withdraw i).seq.acts = s.seq.acts := by
  rcases s.withdraw_eq i with h | h <;> rw [h] <;> simp

theorem State.withdraw_nextAct (s : State) (i : Nat) : (s.withdraw i).seq.nextAct = s.seq.nextAct := by
  rcases s.withdraw_eq i with h | h <;> rw [h] <;> simp

theorem State.withdraw_entry_queued {s : State} {i : Nat} (h : (s.entry i).state = eQUEUED) :
    (s.withdraw i).entry i = { s.entry i with state := eARMED } := by
  simp [State.withdraw_queued h]

theorem State.withdraw_partsKept (s : State) (i : Nat) : PartsKept [.seq] s (s.withdraw i) := by
  have wheel := (Frame.setWheel s (s.seq.wheel.filter fun f => f.entry != i)).1
  rcases s.withdraw_eq i with h | h <;> rw [h]
  · exact wheel
  · exact wheel.trans (EntriesOnly.setEntry _ _ _).parts

theorem State.withdraw_get (s : State) (i : Nat) {g : Field} (hg : g.notUsed) (hw : g.key ≠ SEQ_STAT.WHEEL.key) :
    (s.withdraw i).get g = s.get g := by
  have wheel : (s.setWheel (s.seq.wheel.filter fun f => f.entry != i)).get g = s.get g :=
    (Frame.setWheel s _).2 g (by simpa using hw)
  rcases s.withdraw_eq i with h | h <;> rw [h]
  · exact wheel
  · exact ((EntriesOnly.setEntry _ _ _).get hg).trans wheel

theorem State.withdraw_fwd (s : State) (i d : Nat) : (s.withdraw i).fwd d = s.fwd d := by
  have hkey : (PH_STAT.DIR d).key ≠ SEQ_STAT.WHEEL.key := by
    simp [Field.key, PH_STAT.DIR, SEQ_STAT.WHEEL]
    omega
  rw [State.fwd, State.on, s.withdraw_get i (notUsed_dir d) hkey]
  rfl

/-- An entry without an uncorrectable or a correctable error is read without a trace. -/
theorem State.touchEntry_intact {s : State} {i : Nat} (hbad : i ∉ s.seq.bad) (hweak : i ∉ s.seq.weak) :
    s.touchEntry i false = s := by
  simp [State.touchEntry, hbad, hweak]

end Sys2Proof.Machine
end

section
/-! ### The sweep (R133 to R135) -/

namespace Sys2Proof.Machine

/-- The visit of an ARMED TIME entry that is due within the horizon queues it (R134). -/
theorem State.visit_time {s : State} {i : Nat} (hstate : (s.entry i).state = eARMED)
    (hkind : (s.entry i).trigkind = 0) (hahead : 0 < dt (s.entry i).trig s.ticks)
    (hnear : dt (s.entry i).trig s.ticks ≤ s.get SEQ_HORIZON.TICKS) :
    s.visit i = s.enqueue i (s.entry i).trig := by
  simp [State.visit, hstate, hkind, hnear, Int.not_le.2 hahead]

/-- A firing that finds room in the queue joins it, its entry QUEUED (R135); a LATCH looks up its channel
besides. -/
theorem State.enqueue_room {s : State} {i : Nat} (instant : Nat) (hroom : s.seq.wheel.length < 16384)
    (hact : (s.entry i).act ≠ 1) :
    s.enqueue i instant = (s.entryState i eQUEUED).setWheel (s.seq.wheel ++ [.mk i instant none false]) := by
  simp [State.enqueue, Nat.not_le.2 hroom, hact]

/-- A visit of the entry at which the sweep stands, which is not the last of the pass, is of that entry alone. -/
theorem execSweepVisit_here {s : State} {e : Fin 262144} (hrun : s.on SEQ_CTL.RUN = true)
    (hlimit : e.val < s.get SEQ_SCAN.LIMIT) (hat : s.seq.sweepAt = e.val) (hbad : e.val ∉ s.seq.bad)
    (hweak : e.val ∉ s.seq.weak) :
    exec (.sweepVisit e false) s =
      .next { s.visit e.val with seq := { (s.visit e.val).seq with sweepAt := e.val + 1 } } := by
  have hspan : s.sweepSpan e.val e.val = s := by
    have hempty (l : List Nat) : l.filter (fun i => inSpan i e.val e.val) = [] :=
      List.filter_eq_nil_iff.2 fun i _ => by simp [inSpan]
    rw [State.sweepSpan, hempty, List.foldl_nil]
  show execSweepVisit e false s = _
  simp [execSweepVisit, hrun, hat, hspan, State.touchEntry_intact hbad hweak, Nat.ne_of_lt hlimit,
    Nat.not_lt.2 (Nat.le_of_lt hlimit)]

/-! ### The dispatch of a queued PROG firing (R137, R139) -/

/-- With no action that waits or awaits its instant, a dispatch is of the only firing in the queue; the lead of a
PROG is 0 (R125). -/
theorem execDispatch_single {s : State} {f : Firing} (hwaiting : s.nextWaiting = none)
    (hlanding : s.nextLanding = none) (hrun : s.on SEQ_CTL.RUN = true) (hwheel : s.seq.wheel = [f])
    (hact : (s.entry f.entry).act = 0) (hbad : f.entry ∉ s.seq.bad) (hweak : f.entry ∉ s.seq.weak) :
    exec (.dispatch false) s =
      .next ((s.advance (dt f.instant s.ticks).toNat).dispatch f.entry f.instant .queued) := by
  have hlands : s.landsFirst = none := by rw [State.landsFirst, hlanding]; rfl
  have hfiring : s.nextFiring = some f := by simp [State.nextFiring, hrun, hwheel, minBy]
  have hin : s.dispatchIn f = (dt f.instant s.ticks).toNat := by
    simp [State.dispatchIn, State.leadOf, State.lead, hact]
  have hread (u : State) (hu : u.seq = s.seq) :
      u.dispatchRead f false = u.dispatch f.entry f.instant .queued := by
    have hubad : f.entry ∉ u.seq.bad := by rwa [hu]
    have huweak : f.entry ∉ u.seq.weak := by rwa [hu]
    simp [State.dispatchRead, State.touchEntry_intact hubad huweak, hubad]
  show execDispatch false s = _
  simp only [execDispatch, hwaiting, hlands, hfiring, hin]
  rw [hread _ (s.advance_seq _)]

/-- The capture of an entry (R137): its action waits, and the entry moves on. -/
def State.capture (s : State) (i instant : Nat) : State :=
  let a := s.actOf i instant false
  let m := (s.setEntry i a.e).moveEntryOn i (s.fwd (s.entry i).domain)
  { m with seq := { m.seq with acts := m.seq.acts ++ [a], nextAct := m.seq.nextAct + 1 } }

/-- A PROG without a deadline whose tenant is not held is captured, and waits for a lane (R137, R139). -/
theorem State.dispatch_prog {s : State} {i : Nat} (instant : Nat) (hact : ((s.withdraw i).entry i).act = 0)
    (hdl : ((s.withdraw i).entry i).dlkind = 0)
    (hheld : (s.withdraw i).bit SEQ_HOLD.TENANT ((s.withdraw i).entry i).tenant = false)
    (hmissed : ∀ f ∈ s.seq.wheel, f.missed = false) :
    s.dispatch i instant .queued = (s.withdraw i).capture i instant := by
  have hnone : s.seq.wheel.any (fun f => f.entry == i && f.missed) = false := by
    simpa using fun f hf _ => hmissed f hf
  have hmiss : (s.withdraw i).missIn ((s.withdraw i).actOf i instant false) = none := by
    simp [State.missIn, Act.timedOut, State.actOf, hdl]
  have hqueued : (Cause137.queued == .overdue true) = false := by decide
  have hfire : (Cause137.queued == .fire) = false := by decide
  unfold State.dispatch State.capture
  simp only [hnone, hqueued, hfire, Bool.or_false]
  generalize s.withdraw i = w at *
  simp [hact, hheld, hmiss]

/-- The same at an instant to which the clock has run, for the entry as it stood before. -/
theorem State.dispatch_advance {s : State} {i n instant : Nat} (hstate : (s.entry i).state = eQUEUED)
    (hact : (s.entry i).act = 0) (hdl : (s.entry i).dlkind = 0)
    (hheld : s.bit SEQ_HOLD.TENANT (s.entry i).tenant = false) (hmissed : ∀ f ∈ s.seq.wheel, f.missed = false) :
    (s.advance n).dispatch i instant .queued = ((s.advance n).withdraw i).capture i instant := by
  have hentry : ((s.advance n).withdraw i).entry i = { s.entry i with state := eARMED } := by
    rw [State.withdraw_entry_queued (by rw [State.advance_entry, hstate]), State.advance_entry]
  have hhold : ((s.advance n).withdraw i).get SEQ_HOLD.TENANT = s.get SEQ_HOLD.TENANT := by
    rw [State.withdraw_get _ i (Field.notUsed_of_key_lt (by decide)) (by decide), s.advance_get _ (by decide)]
  refine State.dispatch_prog _ ?_ ?_ ?_ ?_
  · rw [hentry]
    exact hact
  · rw [hentry]
    exact hdl
  · rw [hentry, State.bit, hhold]
    exact hheld
  · rwa [State.advance_seq]

/-- A one-shot entry is DONE after its dispatch (R130). -/
theorem State.moveEntryOn_oneShot {s : State} {i : Nat} (fwd : Bool) (hkind : (s.entry i).trigkind ≠ 2) :
    s.moveEntryOn i fwd = s.setEntry i { s.entry i with state := eDONE } := by
  simp [State.moveEntryOn, hkind]

theorem State.moveEntryOn_eq (s : State) (i : Nat) (fwd : Bool) : ∃ e, s.moveEntryOn i fwd = s.setEntry i e := by
  unfold State.moveEntryOn
  simp only
  split <;> exact ⟨_, rfl⟩

theorem EntriesOnly.capture (s : State) (i instant : Nat) : EntriesOnly s (s.capture i instant) := by
  unfold State.capture
  obtain ⟨e, he⟩ := (s.setEntry i (s.actOf i instant false).e).moveEntryOn_eq i (s.fwd (s.entry i).domain)
  simp only [he]
  exact ((EntriesOnly.setEntry s i _).trans (.setEntry _ i e)).trans (.of_frame (Frame.withSeq _ _) (by simp))

/-- The capture adds its action to those dispatched, and leaves the queue alone. -/
theorem State.capture_seq (s : State) (i instant : Nat) :
    (s.capture i instant).seq.wheel = s.seq.wheel ∧
      (s.capture i instant).seq.acts = s.seq.acts ++ [s.actOf i instant false] := by
  unfold State.capture
  obtain ⟨e, he⟩ := (s.setEntry i (s.actOf i instant false).e).moveEntryOn_eq i (s.fwd (s.entry i).domain)
  simp [he]

/-- A captured one-shot entry is DONE, with its count one more (R130). -/
theorem State.capture_entry_oneShot {s : State} {i : Nat} (instant : Nat) (hkind : (s.entry i).trigkind ≠ 2) :
    (s.capture i instant).entry i =
      { s.entry i with state := eDONE, count := ((s.entry i).count + 1) % 4096 } := by
  have hkind' : ((s.setEntry i (s.actOf i instant false).e).entry i).trigkind ≠ 2 := by
    simpa [State.actOf] using hkind
  show (((s.setEntry i (s.actOf i instant false).e).moveEntryOn i _).entry i) = _
  rw [State.moveEntryOn_oneShot _ hkind']
  simp [State.actOf]

/-- Settles O22: the visit reads no other entry, and the dispatch is of the one firing in the queue. -/
theorem sweepQueuesAndDispatchCaptures : Obligations.SweepQueuesAndDispatchCaptures := by
  refine ⟨?_, ?_⟩
  · intro s e hrun hlimit hstate hkind hahead hnear hroom hat hbad hweak hact
    have hvisit : s.visit e.val = (s.entryState e.val eQUEUED).setWheel
        (s.seq.wheel ++ [.mk e.val (s.entry e.val).trig none false]) :=
      (State.visit_time hstate hkind hahead hnear).trans (State.enqueue_room _ hroom hact)
    refine ⟨_, execSweepVisit_here hrun hlimit hat hbad hweak, ?_, ?_, rfl, fun j hj => ?_, ?_, ?_⟩
    · show (s.visit e.val).entry e.val = _
      simp [hvisit, State.entryState]
    · simp [hvisit]
    · show (s.visit e.val).entry j = _
      simp [hvisit, State.entryState, hj]
    · show (s.visit e.val).get SEQ_STAT.WHEEL = _
      have hfits : s.seq.wheel.length + 1 < 2 ^ 15 := by omega
      rw [hvisit, State.setWheel, State.get_set_same, List.length_append]
      exact Nat.mod_eq_of_lt hfits
    · have hqueue : PartsKept [.seq] s (s.visit e.val) := by
        rw [hvisit]
        exact (EntriesOnly.setEntry s _ _).parts.trans (Frame.setWheel _ _).1
      exact hqueue.trans (Frame.withSeq _ _).1
  · intro s f e hwaiting hlanding hrun hwheel he hstate hkind hact hdl hheld hmissed hbad hweak
    subst he
    obtain ⟨u, hu⟩ : ∃ u, u = s.advance (dt f.instant s.ticks).toNat := ⟨_, rfl⟩
    obtain ⟨w, hw⟩ : ∃ w, w = u.withdraw f.entry := ⟨_, rfl⟩
    have huseq : u.seq = s.seq := hu ▸ s.advance_seq _
    have hwentry : w.entry f.entry = { s.entry f.entry with state := eARMED } := by
      have huentry : u.entry f.entry = s.entry f.entry := hu ▸ s.advance_entry _ _
      rw [hw, State.withdraw_entry_queued (by rw [huentry, hstate]), huentry]
    have hexec : exec (.dispatch false) s = .next (w.capture f.entry f.instant) := by
      rw [execDispatch_single hwaiting hlanding hrun hwheel hact hbad hweak,
        State.dispatch_advance hstate hact hdl hheld (by simp [hwheel, hmissed]), hw, hu]
    have hkept : PartsKept [.seq] u (w.capture f.entry f.instant) :=
      (hw ▸ u.withdraw_partsKept f.entry).trans (EntriesOnly.capture w _ _).parts
    refine ⟨_, hexec, ?_, ?_, ?_, ?_, ?_⟩
    · rw [(w.capture_seq _ _).1, hw, State.withdraw_wheel, huseq, hwheel]
      simp
    · rw [State.capture_entry_oneShot _ (by simp [hwentry, hkind]), hwentry]
    · have hfwd (d : Nat) : w.fwd d = s.fwd d := by rw [hw, State.withdraw_fwd, hu, State.advance_fwd]
      have hacts : w.seq.acts = s.seq.acts := by rw [hw, State.withdraw_acts, huseq]
      have hnext : w.seq.nextAct = s.seq.nextAct := by rw [hw, State.withdraw_nextAct, huseq]
      simp only [(w.capture_seq _ _).2, State.actOf, Eph.target, hwentry, hfwd, hacts, hnext]
    · rw [hkept.part (p := .clock), hu, State.advance_now]
    · exact ((hu ▸ (Frame.advance s _).1 : PartsKept [.clock, .cyc] s u).mono (by simp)).trans
        (hkept.mono (by simp))

end Sys2Proof.Machine
end

section
/-! ### Bits of a number -/

namespace Sys2Proof.Machine

/-- A number around its bit `i`. -/
theorem exists_eq_around_bit (v i : Nat) :
    ∃ q r, r < 2 ^ i ∧ v = 2 ^ i * (2 * q + (v.testBit i).toNat) + r := by
  refine ⟨v / 2 ^ i / 2, v % 2 ^ i, Nat.mod_lt _ (Nat.two_pow_pos i), ?_⟩
  have hbit : 2 * (v / 2 ^ i / 2) + (v.testBit i).toNat = v / 2 ^ i := by
    rw [Nat.toNat_testBit]
    omega
  rw [hbit, Nat.div_add_mod]

/-- Numbers alike around bit `i` differ in that bit alone. -/
theorem testBit_around_bit {i r : Nat} (hr : r < 2 ^ i) (q : Nat) (a b : Bool) (j : Nat) :
    (2 ^ i * (2 * q + b.toNat) + r).testBit j =
      if j = i then b else (2 ^ i * (2 * q + a.toNat) + r).testBit j := by
  rw [Nat.testBit_two_pow_mul_add _ hr, Nat.testBit_two_pow_mul_add _ hr]
  rcases Nat.lt_trichotomy j i with hj | rfl | hj
  · rw [if_pos hj, if_pos hj, if_neg (Nat.ne_of_lt hj)]
  · have hmod : (2 * q + b.toNat) % 2 = b.toNat := by cases b <;> simp
    simp [Nat.testBit_zero, hmod]
  · obtain ⟨d, rfl⟩ : ∃ d, j = i + (d + 1) := ⟨j - i - 1, by omega⟩
    have hhalf (c : Bool) : (2 * q + c.toNat) / 2 = q := by
      have := c.toNat_lt
      omega
    simp [Nat.testBit_succ, hhalf]

/-- `v` with its bit `i` made `b`. -/
def putBit (v i : Nat) (b : Bool) : Nat := if v.testBit i = b then v else if b then v + 2 ^ i else v - 2 ^ i

theorem testBit_putBit (v i : Nat) (b : Bool) (j : Nat) :
    (putBit v i b).testBit j = if j = i then b else v.testBit j := by
  obtain ⟨q, r, hr, hv⟩ := exists_eq_around_bit v i
  have hput : putBit v i b = 2 ^ i * (2 * q + b.toNat) + r := by
    unfold putBit
    split
    case isTrue h => rw [← h]; exact hv
    case isFalse h =>
      cases b with
      | true =>
        have hclear : v.testBit i = false := by simpa using h
        simp [hclear, Nat.mul_add] at hv ⊢
        omega
      | false =>
        have hset : v.testBit i = true := by simpa using h
        simp [hset, Nat.mul_add] at hv ⊢
        omega
  rw [hput, testBit_around_bit hr q (v.testBit i) b j, ← hv]

theorem putBit_lt {v w i : Nat} (hv : v < 2 ^ w) (hi : i < w) (b : Bool) : putBit v i b < 2 ^ w := by
  refine Nat.lt_pow_two_of_testBit _ fun j hj => ?_
  have hne : j ≠ i := by omega
  rw [testBit_putBit, if_neg hne]
  exact Nat.testBit_lt_two_pow (Nat.lt_of_lt_of_le hv (Nat.pow_le_pow_right (by decide) hj))

theorem State.get_setBit (s : State) (f : Field) (i : Nat) (b : Bool) :
    (s.setBit f i b).get f = putBit (s.get f) i b % 2 ^ f.width := State.get_set_same s f _

/-- A bit just written reads back, and the others of its field stay. -/
theorem State.bit_setBit {s : State} {f : Field} {i : Nat} (b : Bool) (hf : s.get f < 2 ^ f.width)
    (hi : i < f.width) (j : Nat) : (s.setBit f i b).bit f j = if j = i then b else s.bit f j := by
  rw [State.bit, State.get_setBit, Nat.mod_eq_of_lt (putBit_lt hf hi b), testBit_putBit]
  rfl

theorem Frame.setBit (s : State) (f : Field) (i : Nat) (b : Bool) : Frame [] [f] s (s.setBit f i b) :=
  Frame.set s f _

end Sys2Proof.Machine
end

section
/-! ### The effects of actions: programs, timed commands and MOVEs (R139, R140, R142, R155) -/

namespace Sys2Proof.Machine

theorem Frame.actEffect (s : State) (id : Nat) : Frame [.seq] [] s (s.actEffect id) := Frame.withSeq s _

/-- An action that has had its effect is gone. -/
theorem State.ne_of_mem_actEffect {s : State} {id : Nat} {x : Act} (h : x ∈ (s.actEffect id).seq.acts) :
    x.id ≠ id := by
  simpa using (List.mem_filter.1 h).2

/-- A change of the table's record that leaves its memories alone. -/
theorem Frame.withTbl (s : State) (x : Tbl) (hddr : x.ddr = s.tbl.ddr := by rfl)
    (hhost : x.host = s.tbl.host := by rfl) :
    Frame [.tbl] [] s { s with tbl := x } :=
  .of_parts rfl (hddr := hddr) (hhost := hhost)

theorem Frame.laneIdle (s : State) (k : Nat) :
    Frame [.eng, .tbl] [SEQ_LANE.STATE k, SEQ_STAT.BUSY] s (s.laneIdle k) :=
  (((Frame.set s _ _).andThen (Frame.setBit _ _ _ _)).andThen (Frame.setEngine _ _ _)).andThen
    (Frame.withTbl _ _)

/-- The actions and the engine as a program of lane `k` starts (R139, R159). -/
def State.startOf (s : State) (k : Nat) (a : Act) : State :=
  (s.actEffect a.id).setEngine k { Eng.reset with
    regs := Tab.putList 0 [] 0 [word a.entry, word a.instant, word a.e.trig, word a.e.count]
    pc := a.e.arg % 16384, ready := s.now * 64, entry := a.entry, tenant := a.e.tenant, act := a.id
    started := s.now, runmax := s.get SEQ_CFG.RUNMAX }

/-- The registers show that lane `k` runs a program of an entry. -/
def State.showRunning (s : State) (k entry : Nat) : State :=
  ((s.set (SEQ_LANE.STATE k) 1).set (SEQ_LANE.ENTRY k) entry).setBit SEQ_STAT.BUSY k true

theorem execProgramStart_free {s : State} {k : Fin 8} {a : Act} (hfree : s.laneFree k.val = true)
    (ha : s.seq.acts.find? (s.laneTakes k.val) = some a) :
    exec (.programStart k) s = .next ((s.startOf k.val a).showRunning k.val a.entry) := by
  show execProgramStart k s = _
  simp only [execProgramStart, hfree, ha]
  rfl

theorem Frame.startOf (s : State) (k : Nat) (a : Act) : Frame [.seq, .eng] [] s (s.startOf k a) :=
  (Frame.actEffect s a.id).andThen (Frame.setEngine _ _ _)

theorem Frame.showRunning (s : State) (k entry : Nat) :
    Frame [] [SEQ_LANE.STATE k, SEQ_LANE.ENTRY k, SEQ_STAT.BUSY] s (s.showRunning k entry) :=
  ((Frame.set s _ _).andThen (Frame.set _ _ _)).andThen (Frame.setBit _ _ _ _)

/-- A lane's state stands at another place than `SEQ_STAT.BUSY` and the lane's entry. -/
theorem laneState_key_ne (k : Nat) :
    (SEQ_LANE.STATE k).key ≠ SEQ_STAT.BUSY.key ∧ (SEQ_LANE.STATE k).key ≠ (SEQ_LANE.ENTRY k).key := by
  simp only [Field.key, SEQ_LANE.STATE, SEQ_STAT.BUSY, SEQ_LANE.ENTRY]
  omega

theorem State.showRunning_state (s : State) (k entry : Nat) :
    (s.showRunning k entry).get (SEQ_LANE.STATE k) = 1 := by
  obtain ⟨hbusy, hentry⟩ := laneState_key_ne k
  rw [State.showRunning, State.get_setBit_ne _ _ _ hbusy, State.get_set_ne _ _ hentry, State.get_set_same]
  rfl

theorem State.startOf_engine (s : State) (k : Nat) (a : Act) :
    ∃ e, (s.startOf k a).engine k = e ∧ e.pc = a.e.arg % 16384 ∧ e.z = false ∧ e.n = false ∧ e.c = false ∧
      e.v = false ∧ e.stack = [] ∧
      Tab.getList 0 e.regs 0 4 = [word a.entry, word a.instant, word a.e.trig, word a.e.count] := by
  refine ⟨_, Tab.get_put_same _ _ _ _, rfl, rfl, rfl, rfl, rfl, rfl, ?_⟩
  simp [Tab.getList, Tab.get_putList]

/-! ### The stop of a lane (R140, R176) -/

/-- The stop of a lane as `SEQ_ABORT` records it (R192). -/
def State.recordStop (s : State) (k cause : Nat) : State :=
  ((s.set SEQ_ABORT.CAUSE cause).set SEQ_ABORT.LANE k).set SEQ_ABORT.PC (s.atPc (s.engine k))

theorem Frame.recordStop (s : State) (k cause : Nat) :
    Frame [] [SEQ_ABORT.CAUSE, SEQ_ABORT.LANE, SEQ_ABORT.PC] s (s.recordStop k cause) :=
  ((Frame.set s _ _).andThen (Frame.set _ _ _)).andThen (Frame.set _ _ _)

theorem State.stopLane_eq (s : State) (k cause : Nat) :
    s.stopLane k cause =
      ((s.recordStop k cause).laneIdle k).raise Kind.SEQ_LANE_ABORT (k * 2 ^ 20 + (s.engine k).entry) := rfl

theorem State.laneIdle_state (s : State) (k : Nat) : (s.laneIdle k).get (SEQ_LANE.STATE k) = 0 := by
  show ((s.set (SEQ_LANE.STATE k) 0).setBit SEQ_STAT.BUSY k false).get (SEQ_LANE.STATE k) = 0
  rw [State.get_setBit_ne _ _ _ (laneState_key_ne k).1, State.get_set_same]
  rfl

/-- A stop takes no time, leaves the lane idle, and names cause and lane in `SEQ_ABORT`. -/
theorem State.stopLane_shows (s : State) {k cause : Nat} (hk : k < 8) (hcause : cause < 16) :
    (s.stopLane k cause).now = s.now ∧ (s.stopLane k cause).get (SEQ_LANE.STATE k) = 0 ∧
      (s.stopLane k cause).get SEQ_ABORT.CAUSE = cause ∧ (s.stopLane k cause).get SEQ_ABORT.LANE = k := by
  have hidle := Frame.laneIdle (s.recordStop k cause) k
  have habort {g : Field} (hg : g.addr = 0x0448) : (s.stopLane k cause).get g = (s.recordStop k cause).get g := by
    rw [State.stopLane_eq, State.raise_get]
    refine hidle.2 g ?_
    simp [Field.key, hg, SEQ_LANE.STATE, SEQ_STAT.BUSY]
    omega
  refine ⟨?_, ?_, ?_, ?_⟩
  · rw [State.stopLane_eq, State.raise_now, hidle.part (p := .clock)]
    rfl
  · rw [State.stopLane_eq, State.raise_get, State.laneIdle_state]
  · rw [habort rfl, State.recordStop, State.get_set_ne _ _ (by decide), State.get_set_ne _ _ (by decide),
      State.get_set_same]
    exact Nat.mod_eq_of_lt hcause
  · rw [habort rfl, State.recordStop, State.get_set_ne _ _ (by decide), State.get_set_same]
    exact Nat.mod_eq_of_lt hk

/-! ### The release of output hold (R147) -/

theorem State.each_succ (s : State) (n : Nat) (f : Nat → State → State) : s.each (n + 1) f = f n (s.each n f) := by
  simp [State.each, List.range_succ]

theorem State.inCause_endLevel (s : State) (k : Kind) (a b : Nat) :
    (s.endLevel k a).inCause k b = (s.inCause k b && b != a) := by
  rw [Bool.eq_iff_iff]
  simp [State.inCause, State.endLevel]

/-- From `s` to `t` output hold has ended for the tenants below `n` that `v` names. -/
structure HoldReleased (v : Word) (n : Nat) (s t : State) : Prop where
  frame : Frame [.flt] [SEQ_HOLD.TENANT] s t
  fits : t.get SEQ_HOLD.TENANT < 2 ^ 16
  held : ∀ j, t.bit SEQ_HOLD.TENANT j = (s.bit SEQ_HOLD.TENANT j && !(decide (j < n) && v.getLsbD j))
  causes : ∀ j, j < n → v.getLsbD j = true → t.inCause Kind.SEQ_HOLD j = false

/-- The step of `State.writeSeqHold` at one tenant. -/
def State.releaseHold (v : Word) (n : Nat) (s : State) : State :=
  if v.getLsbD n then (s.setBit SEQ_HOLD.TENANT n false).endLevel Kind.SEQ_HOLD n else s

theorem HoldReleased.step {v : Word} {n : Nat} {s t : State} (h : HoldReleased v n s t) (hn : n < 16) :
    HoldReleased v (n + 1) s (t.releaseHold v n) := by
  have hbelow (j : Nat) : decide (j < n + 1) = (decide (j < n) || decide (j = n)) := by
    rw [← Bool.decide_or, decide_eq_decide]
    omega
  unfold State.releaseHold
  cases hv : v.getLsbD n with
  | false =>
    refine ⟨h.frame, h.fits, fun j => ?_, fun j hj hvj => ?_⟩
    · rw [if_neg Bool.false_ne_true, h.held, hbelow]
      by_cases hjn : j = n <;> simp [hjn, hv]
    · have hne : j ≠ n := by
        rintro rfl
        exact absurd hvj (by simp [hv])
      exact h.causes j (by omega) hvj
  | true =>
    rw [if_pos rfl]
    refine ⟨?_, ?_, fun j => ?_, fun j hj hvj => ?_⟩
    · exact h.frame.trans (((Frame.setBit t _ _ _).andThen (Frame.endLevel _ _ _)).mono (by simp) (by simp))
    · rw [State.endLevel_get, State.get_setBit]
      exact Nat.mod_lt _ (Nat.two_pow_pos _)
    · show (t.setBit SEQ_HOLD.TENANT n false).bit SEQ_HOLD.TENANT j = _
      rw [State.bit_setBit false h.fits hn, h.held, hbelow]
      by_cases hjn : j = n <;> simp [hjn, hv]
    · rw [State.inCause_endLevel]
      by_cases hjn : j = n
      · simp [hjn]
      · have hcause : (t.setBit SEQ_HOLD.TENANT n false).inCause Kind.SEQ_HOLD j = false :=
          h.causes j (by omega) hvj
        simp [hcause]

theorem HoldReleased.each {v : Word} {s : State} (hs : s.get SEQ_HOLD.TENANT < 2 ^ 16) {n : Nat} (hn : n ≤ 16) :
    HoldReleased v n s (s.each n (State.releaseHold v)) := by
  induction n with
  | zero => exact ⟨Frame.refl _ _ s, hs, by simp [State.each], by simp⟩
  | succ n ih =>
    rw [State.each_succ]
    exact (ih (by omega)).step hn

/-! ### Clearing RUN (R155) -/

/-- From `s` to `t` the firings that `l` names by their entries are withdrawn. -/
structure Withdrawn (l : List Firing) (s t : State) : Prop where
  parts : PartsKept [.seq] s t
  get {g : Field} : g.key < (SEQ_TCAP.USED 0).key → g.key ≠ SEQ_STAT.WHEEL.key → t.get g = s.get g
  wheel : ∀ f ∈ t.seq.wheel, f ∈ s.seq.wheel ∧ ∀ g ∈ l, f.entry ≠ g.entry

theorem Withdrawn.foldl (l : List Firing) (s : State) :
    Withdrawn l s (l.foldl (fun s f => s.withdraw f.entry) s) := by
  induction l generalizing s with
  | nil => exact ⟨PartsKept.refl _ s, fun _ _ => rfl, fun f hf => ⟨hf, by simp⟩⟩
  | cons f l ih =>
    obtain ⟨parts, get, wheel⟩ := ih (s.withdraw f.entry)
    refine ⟨(s.withdraw_partsKept f.entry).trans parts, fun hg hw => ?_, fun x hx => ?_⟩
    · rw [List.foldl_cons, get hg hw, s.withdraw_get f.entry (Field.notUsed_of_key_lt hg) hw]
    · obtain ⟨hmem, hne⟩ := wheel x hx
      rw [State.withdraw_wheel, List.mem_filter] at hmem
      exact ⟨hmem.1, by simpa using ⟨by simpa using hmem.2, hne⟩⟩

/-- RUN is 0, the queue is empty, and no lane's enable changes. -/
theorem State.clearRun_spec (s : State) :
    s.clearRun.on SEQ_CTL.RUN = false ∧ s.clearRun.seq.wheel = [] ∧
      s.clearRun.get SEQ_CTL.LANE_EN = s.get SEQ_CTL.LANE_EN ∧ PartsKept [.seq] s s.clearRun := by
  have h : Withdrawn s.seq.wheel (s.set SEQ_CTL.RUN 0) s.clearRun := Withdrawn.foldl _ _
  refine ⟨?_, List.eq_nil_iff_forall_not_mem.2 fun f hf => ?_, ?_, ?_⟩
  · rw [State.on, h.get (by decide) (by decide), State.get_set_same]
    rfl
  · obtain ⟨hmem, hne⟩ := h.wheel f hf
    exact hne f hmem rfl
  · rw [h.get (by decide) (by decide), State.get_set_ne _ _ (by decide)]
  · exact ((Frame.set s _ _).1.mono (List.nil_subset _)).trans h.parts

/-- Bits above the lowest do not see it cleared. -/
theorem wbits_clear_bit_zero (v : Word) {hi lo : Nat} (hlo : 0 < lo) :
    wbits (v &&& ~~~1#48) hi lo = wbits v hi lo := by
  refine Nat.eq_of_testBit_eq fun i => ?_
  have hone : (1#48).getLsbD (i + lo) = false := by
    rw [BitVec.getLsbD_one]
    simp
    omega
  have hbit : (v &&& ~~~1#48).getLsbD (i + lo) = v.getLsbD (i + lo) := by
    rw [BitVec.getLsbD_and, BitVec.getLsbD_not, hone, Bool.not_false, Bool.and_true]
    by_cases hw : i + lo < 48
    · simp [hw]
    · rw [BitVec.getLsbD_of_ge _ _ (by omega), Bool.false_and]
  simp only [wbits, bits, Nat.testBit_mod_two_pow, Nat.testBit_div_two_pow, BitVec.testBit_toNat, hbit]

end Sys2Proof.Machine
end

section
/-! ### A missed deadline (R144 to R147) -/

namespace Sys2Proof.Machine

theorem Frame.raiseLevel (s : State) (k : Kind) (a : Nat) : Frame [.flt] [] s (s.raiseLevel k a) := by
  unfold State.raiseLevel
  split
  · exact Frame.refl _ _ s
  · exact Frame.withFlt s _

/-- A miss as `SEQ_LASTMISS` and `SEQ_COUNT` record it (R146). -/
def State.recordMiss (s : State) (i : Nat) (e : Eph) : State :=
  (((s.set SEQ_LASTMISS.ENTRY i).set SEQ_LASTMISS.POLICY e.policy).inc SEQ_COUNT.MISS).raise Kind.SEQ_MISS
    (e.policy * 2 ^ 18 + i)

theorem State.miss_eq (s : State) (i : Nat) (e : Eph) :
    s.miss i e = if e.policy = 2 then
      ((s.recordMiss i e).setBit SEQ_HOLD.TENANT e.tenant true).raiseLevel Kind.SEQ_HOLD e.tenant
      else s.recordMiss i e := rfl

theorem Frame.recordMiss (s : State) (i : Nat) (e : Eph) :
    Frame [.flt] [SEQ_LASTMISS.ENTRY, SEQ_LASTMISS.POLICY, SEQ_COUNT.MISS] s (s.recordMiss i e) :=
  (((Frame.set s _ _).andThen (Frame.set _ _ _)).andThen (Frame.set _ _ _)).andThen (Frame.raise _ _ _)

/-- What follows the record of a miss is output hold alone. -/
theorem Frame.miss_after_record (s : State) (i : Nat) (e : Eph) :
    Frame [.flt] [SEQ_HOLD.TENANT] (s.recordMiss i e) (s.miss i e) := by
  rw [State.miss_eq]
  split
  · exact (Frame.setBit _ _ _ _).andThen (Frame.raiseLevel _ _ _)
  · exact Frame.refl _ _ _

theorem State.miss_now (s : State) (i : Nat) (e : Eph) : (s.miss i e).now = s.now :=
  (Frame.miss_after_record s i e).part (p := .clock)

/-- The registers that a miss sets (R146). -/
theorem State.miss_shows (s : State) {i : Nat} {e : Eph} (hi : i < 2 ^ 18) (hpolicy : e.policy < 4) :
    (s.miss i e).get SEQ_LASTMISS.ENTRY = i ∧ (s.miss i e).get SEQ_LASTMISS.POLICY = e.policy ∧
      (s.miss i e).get SEQ_COUNT.MISS = min (s.get SEQ_COUNT.MISS + 1) (2 ^ 12 - 1) := by
  have hrecord {g : Field} (hg : g.key ≠ SEQ_HOLD.TENANT.key) : (s.miss i e).get g = (s.recordMiss i e).get g :=
    (Frame.miss_after_record s i e).2 g (by simpa using hg)
  refine ⟨?_, ?_, ?_⟩
  · rw [hrecord (by decide), State.recordMiss, State.raise_get, State.get_inc_ne _ (by decide),
      State.get_set_ne _ _ (by decide), State.get_set_same]
    exact Nat.mod_eq_of_lt hi
  · rw [hrecord (by decide), State.recordMiss, State.raise_get, State.get_inc_ne _ (by decide), State.get_set_same]
    exact Nat.mod_eq_of_lt hpolicy
  · rw [hrecord (by decide), State.recordMiss, State.raise_get, State.get_inc_same,
      State.get_set_ne _ _ (by decide), State.get_set_ne _ _ (by decide)]
    rfl

/-- A miss takes the entry's tenant into output hold under policy HOLD alone (R147). -/
theorem State.miss_hold {s : State} {e : Eph} (i : Nat) (htenant : e.tenant < 16)
    (hs : s.get SEQ_HOLD.TENANT < 2 ^ 16) (j : Nat) :
    (s.miss i e).bit SEQ_HOLD.TENANT j = (s.bit SEQ_HOLD.TENANT j || (e.policy == 2 && j == e.tenant)) := by
  have hkept : (s.recordMiss i e).get SEQ_HOLD.TENANT = s.get SEQ_HOLD.TENANT :=
    (Frame.recordMiss s i e).2 _ (by decide)
  have hbit : (s.recordMiss i e).bit SEQ_HOLD.TENANT j = s.bit SEQ_HOLD.TENANT j := by
    rw [State.bit, hkept]
    rfl
  rw [State.miss_eq]
  by_cases hpolicy : e.policy = 2
  · rw [if_pos hpolicy, State.bit, State.raiseLevel_get]
    show ((s.recordMiss i e).setBit SEQ_HOLD.TENANT e.tenant true).bit SEQ_HOLD.TENANT j = _
    rw [State.bit_setBit true (hkept ▸ hs) htenant, hbit]
    by_cases hj : j = e.tenant <;> simp [hj, hpolicy]
  · simp [hpolicy, hbit]

/-! ### What becomes of the action that missed -/

/-- A pass whose step at `a` changes the parts `ps` and the field `F a`. -/
theorem Frame.foldl {α : Type} {ps : List Part} {op : State → α → State} {F : α → Field}
    (hop : ∀ t a, Frame ps [F a] t (op t a)) (l : List α) (s : State) : Frame ps (l.map F) s (l.foldl op s) := by
  induction l generalizing s with
  | nil => exact Frame.refl _ _ s
  | cons a l ih =>
    exact ((hop s a).mono (List.Subset.refl _) (by simp)).trans
      ((ih (op s a)).mono (List.Subset.refl _) (by simp))

theorem Frame.settleWait (s : State) (n : Nat) : Frame [.tbl] [TBL_WAIT.WAIT n] s (s.settleWait n) := by
  unfold State.settleWait
  split
  · exact Frame.refl _ _ s
  · exact (Frame.withTbl s _).andThen (Frame.set _ _ _)

theorem Frame.judgeWait (s : State) (n : Nat) : Frame [.tbl] [TBL_WAIT.WAIT n] s (s.judgeWait n) := by
  unfold State.judgeWait
  split
  · split
    · exact (Frame.withTbl s _).mono (List.Subset.refl _) (List.nil_subset _)
    · exact Frame.refl _ _ s
  · exact Frame.settleWait s n

theorem Frame.judgeWaits (s : State) : Frame [.tbl] ((List.range 8).map TBL_WAIT.WAIT) s s.judgeWaits :=
  Frame.foldl (fun t n => Frame.judgeWait t n) _ s

theorem Frame.setDoors (s : State) (ds : List Doorbell) : Frame [.tbl] [TBL_STAT.DEPTH] s (s.setDoors ds) :=
  (Frame.withTbl s _).andThen (Frame.set _ _ _)

theorem Frame.dropOps (s : State) (p : Op → Bool) :
    Frame [.tbl, .seq] (TBL_STAT.DEPTH :: (List.range 8).map TBL_WAIT.WAIT) s (s.dropOps p) := by
  have removed (x : Tbl) (q : Seq) (hddr : x.ddr = s.tbl.ddr) (hhost : x.host = s.tbl.host) :
      Frame [.tbl, .seq] [] s { s with tbl := x, seq := q } := .of_parts rfl (hddr := hddr) (hhost := hhost)
  have doors (u : State) (c : Prop) [Decidable c] (ds : List Doorbell) :
      Frame [.tbl] (TBL_STAT.DEPTH :: (List.range 8).map TBL_WAIT.WAIT) u
        (if c then u.setDoors ds else u).judgeWaits := by
    split
    · exact ((Frame.setDoors u ds).andThen (Frame.judgeWaits _)).mono (by simp) (List.Subset.refl _)
    · exact (Frame.judgeWaits u).mono (List.Subset.refl _) (List.subset_cons_self _ _)
  unfold State.dropOps
  refine Frame.trans ?_ ((doors _ _ _).mono (by simp) (List.Subset.refl _))
  exact (removed _ _ (by rfl) (by rfl)).mono (List.Subset.refl _) (List.nil_subset _)

/-- From `s` to `t` no time passes, and the registers below the tenants' counts of entries stay. -/
structure LowKept (s t : State) : Prop where
  now : t.now = s.now
  get {g : Field} : g.key < (SEQ_TCAP.USED 0).key → t.get g = s.get g

theorem LowKept.refl (s : State) : LowKept s s := ⟨rfl, fun _ => rfl⟩

theorem LowKept.trans {s t u : State} (h : LowKept s t) (k : LowKept t u) : LowKept s u :=
  ⟨k.now.trans h.now, fun hg => (k.get hg).trans (h.get hg)⟩

theorem LowKept.of_frame {ps : List Part} {fs : List Field} {s t : State} (h : Frame ps fs s t)
    (hps : .clock ∉ ps := by decide) (hfs : ∀ f ∈ fs, (SEQ_TCAP.USED 0).key ≤ f.key := by decide) : LowKept s t :=
  ⟨h.part (p := .clock) hps, h.get_of_key_lt hfs⟩

theorem LowKept.undone (s : State) (i : Nat) : LowKept s (s.undone i) := by
  unfold State.undone
  split
  · have hentry := EntriesOnly.setEntry s i { s.entry i with state := eMISSED }
    exact ⟨hentry.parts.part (p := .clock), fun hg => hentry.get (Field.notUsed_of_key_lt hg)⟩
  · exact .refl s

theorem LowKept.actEffect (s : State) (id : Nat) : LowKept s (s.actEffect id) := .of_frame (Frame.actEffect s id)

theorem LowKept.dropTimed (s : State) (id : Nat) : LowKept s (s.dropTimed id) :=
  (LowKept.of_frame (Frame.dropOps s _)).trans (.of_frame (Frame.withSeq _ _))

theorem LowKept.dropLatch (s : State) (id : Nat) : LowKept s (s.dropLatch id) := .of_frame (Frame.withChp s _)

/-- Beyond the record of its miss, an action's missed deadline moves no clock and no sequencer register below
the counts of entries. -/
theorem LowKept.missAct (s : State) (a : Act) : LowKept (s.miss a.entry a.e) (s.missAct a) := by
  have put (u : State) (x : Act) : LowKept u (u.putAct x) := .of_frame (Frame.withSeq u _)
  unfold State.missAct
  simp only
  split
  · split
    · exact put _ _
    · exact (put _ _).trans (.actEffect _ _)
  · exact (((LowKept.dropLatch _ _).trans (.dropTimed _ _)).trans (.actEffect _ _)).trans (.undone _ _)

/-- The deadline of the only action is the only one to pass where no firing is queued. -/
theorem execDeadlineMiss_single {s : State} {a : Act} {n : Nat} (hacts : s.seq.acts = [a])
    (hwheel : s.seq.wheel = []) (hmiss : s.missIn a = some n) :
    exec .deadlineMiss s = .next ((s.advance n).missAct a) := by
  have hdeadlines : s.deadlines = [(n, .inr a)] := by simp [State.deadlines, hacts, hwheel, hmiss]
  show execDeadlineMiss s = _
  simp [execDeadlineMiss, hdeadlines, minBy]

/-- Settles O23: one lemma above says for each of the seven commands what becomes of the state. -/
theorem actionsHaveTheirEffects : Obligations.ActionsHaveTheirEffects := by
  refine ⟨?_, ?_, ?_, ?_, ?_, ?_, ?_⟩
  · intro s k a hfree ha
    obtain ⟨e, he, hpc, hz, hn, hc, hv, hstack, hregs⟩ := s.startOf_engine k.val a
    have hengine : ((s.startOf k.val a).showRunning k.val a.entry).engine k.val = e := he
    refine ⟨_, execProgramStart_free hfree ha, ?_⟩
    rw [hengine]
    exact ⟨hpc, hregs, hz, hn, hc, hv, hstack, State.showRunning_state _ _ _,
      fun x hx => State.ne_of_mem_actEffect (s := s) hx, (Frame.startOf s k.val a).andThen (Frame.showRunning _ _ _)⟩
  · intro s k hbusy hlimit
    obtain ⟨hnow, hstate, hcause, hlane⟩ :=
      (s.waitUntil ((s.engine k.val).started + (s.engine k.val).runmax + 1)).stopLane_shows
        (cause := 1) k.isLt (by decide)
    refine ⟨_, ?_, hstate, hcause, hlane, hnow.trans (s.waitUntil_now _)⟩
    show execLaneRunmax k s = _
    simp [execLaneRunmax, hbusy, hlimit]
  · intro s u c htimed hu
    subst hu
    have hleft : (s.advance (dt c.instant s.ticks).toNat).seq.timed.erase c = [] := by
      simp [State.advance_seq, htimed]
    show execTimedCommand s = _
    simp only [execTimedCommand, htimed, minBy, hleft]
    rfl
  · intro s o id hpurpose hfind
    show execMoveComplete s = _
    unfold execMoveComplete
    split
    case h_1 hnone => exact nomatch hnone.symm.trans hfind
    case h_2 x hsome =>
      obtain rfl : x = o := Option.some.inj (hsome.symm.trans hfind)
      simp only [hpurpose]
  · intro s a n hacts hwheel hmiss hpolicy hentry htenant hhold
    have hlow := LowKept.missAct (s.advance n) a
    have hadvance {g : Field} (hg : g.key < CYC_STAT.CYC.key) : (s.advance n).get g = s.get g := s.advance_get n hg
    obtain ⟨hshown, hshownPolicy, hcount⟩ := (s.advance n).miss_shows hentry hpolicy
    refine ⟨_, execDeadlineMiss_single hacts hwheel hmiss, ?_, ?_, ?_, ?_, fun j => ?_⟩
    · rw [hlow.now, State.miss_now, State.advance_now]
    · rw [hlow.get (by decide), hshown]
    · rw [hlow.get (by decide), hshownPolicy]
    · rw [hlow.get (by decide), hcount, hadvance (by decide)]
    · have hheld := State.miss_hold a.entry htenant (hadvance (g := SEQ_HOLD.TENANT) (by decide) ▸ hhold) j
      rw [State.bit, hlow.get (by decide)]
      refine hheld.trans ?_
      rw [State.bit, hadvance (by decide)]
      rfl
  · intro s v hs
    have h : HoldReleased v 16 s (s.writeSeqHold v) := HoldReleased.each hs (Nat.le_refl 16)
    refine ⟨_, rfl, fun j hj => ?_, h.causes, h.frame⟩
    rw [h.held, decide_eq_true hj, Bool.true_and]
  · intro s v
    obtain ⟨hrun, hwheel, hlanes, hparts⟩ := (s.set SEQ_CTL.LANE_EN (wbits v 15 8)).clearRun_spec
    have hexec : exec (.runClear v) s = .next (s.set SEQ_CTL.LANE_EN (wbits v 15 8)).clearRun := by
      show Host.Outcome.next (s.writeSeqCtl (v &&& ~~~1#48)) = _
      have hbit : (v &&& ~~~1#48).getLsbD 0 = false := by simp
      rw [State.writeSeqCtl, hbit, wbits_clear_bit_zero v (by decide)]
      rfl
    refine ⟨_, hexec, hrun, hwheel, ?_, ((Frame.set s _ _).1.mono (List.nil_subset _)).trans hparts⟩
    rw [hlanes, State.get_set_same]
    exact Nat.mod_eq_of_lt (Nat.mod_lt _ (by decide))

end Sys2Proof.Machine
end

section
/-! ### Reads that take an entry out of a queue (R219, R400, R471, R482) -/

namespace Sys2Proof.Machine

theorem inSpan_eq_true {x a b : Nat} (ha : a ≤ x) (hb : x < b) : inSpan x a b = true := by
  rw [inSpan, decide_eq_true ha, decide_eq_true hb, Bool.and_self]

/-- A read outside the bays, the king-post registers and the entropy pool shows the register and clears it. -/
theorem State.readReg_eq (s : State) {a : Nat} (hkp : a < 0x0010 ∨ 0x0014 ≤ a) (hbay : a < 0x2000 ∨ 0x3000 ≤ a)
    (hrng : a ≠ 0x0021) (hhome : a ≠ 0x0600) : s.readReg a = (s.readClears a, s.regWord a) := by
  simp [State.readReg, inSpan_eq_false hkp, inSpan_eq_false hbay, hrng, hhome]

/-- A register of one field from bit 0 on shows that field. -/
theorem State.regWord_single (s : State) {a : Nat} {f : Field} (hfields : regFields a = [f]) (hlsb : f.lsb = 0) :
    s.regWord a = word (s.shown f) := by
  simp [State.regWord, hfields, hlsb]

/-! ### The remote queue -/

theorem State.regWord_remote {s : State} {m : Nat × Msg} {rest : List (Nat × Msg)}
    (hqueue : s.flt.remoteQ = m :: rest) : s.regWord 0x018B = recordWord m.2.raw 2 := by
  have hshown : s.shown FLT_RQ3.WORD = (recordWord m.2.raw 2).toNat := by
    simp [State.shown, State.shownLow, FLT_RQ3.WORD, hqueue]
  rw [s.regWord_single (f := FLT_RQ3.WORD) rfl rfl, hshown, word, BitVec.ofNat_toNat, BitVec.setWidth_eq]

/-! ### The timestamps of a MAC -/

theorem regFields_txts1 (m : Fin 12) : regFields (0x1400 + 0x40 * m.val + 8) = [MAC_TXTS1.TICKS m.val] := by
  revert m
  decide

/-- Where the register of the oldest timestamp's ticks stands in the block of the MACs. -/
theorem txts1_place {m : Fin 12} {a : Nat} (ha : a = 0x1400 + 0x40 * m.val + 8) :
    inSpan a 0x1400 0x1700 = true ∧ a % 0x40 = 8 ∧ (a - 0x1400) / 0x40 = m.val :=
  ⟨inSpan_eq_true (by omega) (by omega), by omega, by omega⟩

/-- That register shows the ticks of the oldest timestamp (R400). -/
theorem State.shown_txts1 {s : State} {m : Fin 12} {x : TxStamp} {rest : List TxStamp}
    (hstamps : (s.macRec m.val).stamps = x :: rest) : s.shown (MAC_TXTS1.TICKS m.val) = x.ticks := by
  obtain ⟨a, ha⟩ : ∃ a, a = 0x1400 + 0x40 * m.val + 8 := ⟨_, rfl⟩
  obtain ⟨hspan, hoff, hmac⟩ := txts1_place ha
  rw [MAC_TXTS1.TICKS, ← ha]
  simp [State.shown, hspan, hoff, hmac, hstamps, show ¬ a < 0x0800 by omega, show a ≠ 0x0845 by omega]

/-- A read of that register removes the oldest timestamp (R400). -/
theorem State.readClears_txts1 (s : State) (m : Fin 12) :
    s.readClears (0x1400 + 0x40 * m.val + 8) = s.popStamp m.val := by
  obtain ⟨a, ha⟩ : ∃ a, a = 0x1400 + 0x40 * m.val + 8 := ⟨_, rfl⟩
  obtain ⟨hspan, hoff, hmac⟩ := txts1_place ha
  rw [← ha]
  simp [State.readClears, hspan, hoff, hmac, show a ≠ 0x018B by omega]

/-! ### The output queue of a logical tenon -/

theorem State.readReg_queueOut (s : State) (b : Fin 32) (l : Fin 4) :
    s.readReg (0x2000 + 0x80 * b.val + 0x0A + 4 * l.val) = (s.settleBay b.val).queueOut b.val l.val := by
  obtain ⟨a, ha⟩ : ∃ a, a = 0x2000 + 0x80 * b.val + 0x0A + 4 * l.val := ⟨_, rfl⟩
  have hspan : inSpan a 0x2000 0x3000 = true := inSpan_eq_true (by omega) (by omega)
  have hkp : inSpan a 0x0010 0x0014 = false := inSpan_eq_false (by omega)
  have hoff : a % 0x80 = 0x0A + 4 * l.val := by omega
  have hqueue : inSpan (0x0A + 4 * l.val) 0x08 0x18 = true := inSpan_eq_true (by omega) (by omega)
  have hbay : (a - 0x2000) / 0x80 = b.val := by omega
  have hlog : (0x0A + 4 * l.val - 8) / 4 = l.val := by omega
  rw [← ha]
  simp [State.readReg, hspan, hkp, hoff, hqueue, hbay, hlog, show a % 4 = 2 by omega, show a ≠ 0x0600 by omega,
    show a ≠ 0x0021 by omega]

/-- A read takes the oldest item of the highest priority, unless an automatic stream takes the items out (R216,
R219). -/
theorem State.queueOut_takes {s : State} {b l : Nat} {x : Item} {q : Queues}
    (hauto : (s.on (BAY_STREAM.AUTO b l) && s.on (BAY_STREAM.DIR b l)) = false) (hcap : s.qcap b l ≠ 0)
    (htake : (s.queues b l).take = some (x, q)) :
    s.queueOut b l = ((s.setQueues b l q).set (BAY_QSTAT.LASTPRI b l) x.pri, x.val) := by
  simp [State.queueOut, hauto, hcap, htake]

/-! ### The entropy pool -/

theorem State.readRng_draws {s r : State} (hr : s.serveNonces.refillPool = r) (hready : r.on RNG_STATUS.READY = true)
    (hbits : 32 ≤ r.get RNG_STATUS.BITS) :
    s.readRng = ((r.set RNG_STATUS.BITS (r.get RNG_STATUS.BITS - 32)).draw,
      word (2 ^ 47 + (Config.entropy r.free).toNat % 2 ^ 32)) := by
  simp [State.readRng, hr, hready, hbits]

/-- Settles O5: each command reads one register, and the lemmas above say what that register shows and what its
read takes out. -/
theorem queueReadsTakeTheOldest : Obligations.QueueReadsTakeTheOldest := by
  refine ⟨?_, ?_, ?_, ?_⟩
  · intro s m rest hqueue
    have hpop : s.readClears 0x018B = { s with flt := { s.flt with remoteQ := rest } } := by
      show s.popRemote = _
      rw [State.popRemote, hqueue, List.drop_one, List.tail_cons]
    show Host.Outcome.next (s.readOutReg 0x018B) = _
    rw [State.readOutReg, s.readReg_eq (by decide) (by decide) (by decide) (by decide), hpop,
      State.regWord_remote hqueue]
  · intro s m x rest hstamps _
    show Host.Outcome.next (s.readOutReg (0x1400 + 0x40 * m.val + 8)) = _
    rw [State.readOutReg, s.readReg_eq (by omega) (by omega) (by omega) (by omega), s.readClears_txts1,
      s.regWord_single (regFields_txts1 m) rfl, State.shown_txts1 hstamps, State.popStamp, hstamps,
      List.drop_one, List.tail_cons]
  · intro s r b l x q hr hauto hcap htake
    subst hr
    show Host.Outcome.next (s.readOutReg (0x2000 + 0x80 * b.val + 0x0A + 4 * l.val)) = _
    rw [State.readOutReg, s.readReg_queueOut, State.queueOut_takes hauto hcap htake]
  · intro s r hr hready hbits
    refine ⟨(Config.entropy r.free).toNat % 2 ^ 32, Nat.mod_lt _ (Nat.two_pow_pos 32), ?_⟩
    show Host.Outcome.next (s.readRng.1.emit (.read s.readRng.2)) = _
    rw [State.readRng_draws hr hready hbits]

end Sys2Proof.Machine
end

section
/-! ### A burst of an automatic stream lands (R222) -/

namespace Sys2Proof.Machine

/-- A burst that has closed lands before a new one begins. -/
theorem execAutoStreamBurst_closed {s : State} {b : Fin 32} {l : Fin 4} {o : Op}
    (hauto : s.autoOp b.val l.val = some o) (hclosed : o.closed = true) :
    exec (.autoStreamBurst b l) s = .next (s.autoClosed o) := by
  show execAutoStreamBurst b l s = _
  simp only [execAutoStreamBurst, hauto, hclosed, if_true]

theorem Tab.length_getList {α : Type} (d : α) (m : Tab α) (k n : Nat) : (Tab.getList d m k n).length = n := by
  induction n generalizing k with
  | zero => rfl
  | succ n ih => rw [Tab.getList, List.length_cons, ih]

/-- The operation is gone once its words have landed in a queue that has space for them all. -/
theorem State.autoClosed_room {s : State} {o : Op}
    (hroom : (s.queues o.entry.bay o.entry.tenon).inq.length + o.count ≤ s.qcap o.entry.bay o.entry.tenon) :
    s.autoClosed o =
      ({ s with tbl := { s.tbl with ops := s.tbl.ops.filter fun x => x.id != o.id } } : State).autoLands
        o.entry.bay o.entry.tenon o.first o.entry.points (Tab.getList 0 o.data o.first o.count) := by
  simp only [State.autoClosed, Tab.length_getList, if_neg (Nat.not_lt.2 hroom)]

/-- Wherever a burst lands, WPTR holds 16 bits after it. -/
theorem State.autoLands_wptr_lt (s : State) (b l p points : Nat) (ws : List Word) :
    (s.autoLands b l p points ws).get (BAY_STREAM.WPTR b l) < 2 ^ 16 := by
  rw [State.autoLands, State.moveWptr, State.get_set_same]
  exact Nat.mod_lt _ (Nat.two_pow_pos 16)

/-- A closed burst of words 65528 to 65535 of a channel that has one word more than 65536. -/
def burstToWptrEnd : Op :=
  { id := 0, req := 1, cp := bayPort 0, ten := 0, write := false, ch := 0,
    entry := { Entry.empty 0 with valid := true, type := tSTREAM, points := 65537 }, first := 65528, count := 8,
    start := 0, granted := 8192, moved := 8192, data := [], purpose := .auto, closed := true, failed := false,
    paced := false, taken := 65528, idleAt := none }

/-- The hub after reset with that burst at the table port. -/
def landingAtWptrEnd : State := { State.reset with tbl := { Tbl.reset with ops := [burstToWptrEnd] } }

/-- Refutes O38: its clause on the landing of a burst bounds the burst's words by 65536 but not the channel's
POINTS, which R44 bounds. After a burst up to word 65535 of a channel longer than R44 allows it asks for
WPTR = 65536, and WPTR has 16 bits. -/
theorem not_queuesAndStreamsOfABay : ¬ Obligations.QueuesAndStreamsOfABay := by
  intro ⟨_, _, _, hlanding, _⟩
  have hroom : (landingAtWptrEnd.queues 0 0).inq.length + 8 ≤ landingAtWptrEnd.qcap 0 0 := by decide
  obtain ⟨t, hexec, _, hwptr, _⟩ :=
    hlanding landingAtWptrEnd 0 0 burstToWptrEnd _ rfl rfl rfl (by decide) hroom
  have ht : t.get (BAY_STREAM.WPTR 0 0) < 2 ^ 16 := by
    rw [execAutoStreamBurst_closed rfl rfl, State.autoClosed_room hroom] at hexec
    cases hexec
    exact State.autoLands_wptr_lt _ _ _ _ _ _
  have hasked : t.get (BAY_STREAM.WPTR 0 0) = 2 ^ 16 := hwptr
  omega

end Sys2Proof.Machine
end

section
/-! ### The swap of an armed substitution (R229, R230) -/

namespace Sys2Proof.Machine

/-- An armed substitution in its basic cycle swaps the tenons at the first swap point. -/
theorem execTenSpareIn_armed {s : State} {b : Fin 32} {w : Swap} (hswap : (s.bayRec b.val).swap = some w)
    (hstate : s.get (BAY_SWAP.STATE b.val) = 2) (hcycle : w.cycle = s.cycKey)
    (hpoint : s.swapPoint b.val w.old = true) : exec (.tenSpareIn b) s = .next (s.swapTenons b.val w) := by
  show execTenSpareIn b s = _
  simp [execTenSpareIn, hswap, hstate, hcycle, hpoint]

/-- A substitution of tenon 0, which is to retire, by tenon 4. -/
def retiringSwap : Swap :=
  { log := 0, old := 0, new := 4, copy := true, retire := true, copied := true, ends := 0, cycle := 0 }

/-- That substitution is armed in bay 0, whose pin 0 is driven; BAY_PIN.IN holds 65536, which its 16 bits do not
fit. -/
def swapAtWidePins : State :=
  { State.reset with
    bay := [(0, { Bay.reset with swap := some retiringSwap })]
    regs := [((BAY_CTL.BANKOK 0).key, 1), ((BAY_PADS.DOE 0).key, 1), ((BAY_PIN.IN 0).key, 2 ^ 16),
      ((BAY_SWAP.STATE 0).key, 2)] }

theorem swapAtWidePins_settled : (swapAtWidePins.settleBay 0).get (BAY_PIN.IN 0) = 2 ^ 16 ∧
    (swapAtWidePins.settleBay 0).get (BAY_PIN.OUT 0) = 0 := by decide +kernel

/-- The driven pin is settled, and the write of its bit cuts the register to its 16 bits. -/
theorem swapAtWidePins_swapped : (swapAtWidePins.swapTenons 0 retiringSwap).get (BAY_PIN.IN 0) = 0 := by
  decide +kernel

/-- Refutes O39: it takes only the fields of the old tenon's configuration to fit their widths, and its clause on
the levels of the pins asks BAY_PIN.IN to stay; where that register holds more than its 16 bits the swap cuts it. -/
theorem not_substitutionOfATenon : ¬ Obligations.SubstitutionOfATenon := by
  intro ⟨_, hsubst⟩
  obtain ⟨_, _, hswap⟩ := hsubst swapAtWidePins 0 retiringSwap 0 rfl
  have hpoint : swapAtWidePins.swapPoint 0 0 = true := by decide
  obtain ⟨hin, hout⟩ := swapAtWidePins_settled
  have hlevels (p : Nat) (hp : p < 16) (_ : (swapAtWidePins.settleBay 0).pinDriven 0 p = true) :
      (swapAtWidePins.settleBay 0).bit (BAY_PIN.IN 0) p = (swapAtWidePins.settleBay 0).bit (BAY_PIN.OUT 0) p := by
    rw [State.bit, State.bit, hin, hout, Nat.testBit_two_pow_of_ne (by omega), Nat.zero_testBit]
  obtain ⟨t, _, hexec, _, _, _, _, _, _, _, hpins, _⟩ :=
    hswap 0 4 rfl rfl (by decide) (by decide) (by decide) hpoint (by decide) _ rfl
  have hkept : t.get (BAY_PIN.IN 0) = 2 ^ 16 := (hpins (by decide) (by decide) hlevels).trans hin
  have ht : t = swapAtWidePins.swapTenons 0 retiringSwap :=
    Host.Outcome.next.inj (hexec.symm.trans (execTenSpareIn_armed rfl (by decide) (by decide) hpoint))
  have hcut : t.get (BAY_PIN.IN 0) = 0 := ht ▸ swapAtWidePins_swapped
  omega

end Sys2Proof.Machine
end
